-- ==== Sys2Proof/Word.lean ====
section
/-!
DEFINITION. The byte of both serial ports, and the 32-bit counters of the part (00_scope, "Counters").
-/

namespace Sys2Proof

/-- One byte of a frame on either serial port. -/
abbrev Byte := BitVec 8

/-- The bytes of a frame or of a part of one, in the order they travel. -/
abbrev Bytes := List Byte

/-- The largest value of a counter, of the hall clock and of a rest-until (00_scope; R12; R178). -/
def counterMax : Nat := 4294967295

/-- The largest reel id (00_scope, Identifiers). -/
def reelIdMax : Nat := 4294967294

end Sys2Proof
end

