-- ==== Sys2Proof/Syntax.lean ====
section
/-!
DEFINITION. The commands: one constructor of `Instr` for each row of the table of operations and events, with the operands
the spec gives it, and `Request`, the requests of the line link without their tag (what the request queue holds, R170).

Operands that travel in a frame are numbers of the width R192's tables give them, out-of-range values among them: the owning
block judges them (R192). A choice the port has already judged is a name (a DONE result, a FAULT code).
-/

namespace Sys2Proof

/-- One of the two arms of a feed position (R89). -/
inductive Arm where
  | A
  | B
  deriving DecidableEq, Repr

/-- One of the two serial ports. -/
inductive Port where
  | line
  | vehicle
  deriving DecidableEq, Repr

/-- The rate the link rate strap selects for both ports (chapter 10, introduction). -/
inductive LinkRate where
  | baud115200
  | baud460800
  deriving DecidableEq, Repr

/-- A digital field input with a filter (R130). -/
inductive FieldInput where
  | copy (line : Nat)
  | divert (line : Nat)
  | pressRunning (line : Nat)
  | revolutionMark (position : Nat)
  | spliceConfirm (position : Nat)
  | emergencyStop
  deriving DecidableEq, Repr

/-- The result a DONE carries (R192: a result outside these is discarded by the port). -/
inductive DoneResult where
  | ok
  | empty
  | blocked
  | abandoned
  deriving DecidableEq, Repr

/-- The code a FAULT frame carries (R192: any other code is discarded by the port). -/
inductive ReportedFault where
  | drive
  | battery
  | obstacle
  | load
  deriving DecidableEq, Repr

/-- The reel data block of INTAKE, RESTOCK and LOADREEL (12.4); mass 0 stands for absent. -/
structure ReelData where
  id : Nat
  grade : Nat
  width : Nat
  diameter : Nat
  caliper : Nat
  mass : Nat
  deriving DecidableEq, Repr

/-- The sixteen run parameters of a feed position (R88), as POSCFG carries them. -/
structure Params where
  spliceDiameter : Nat
  coreDiameter : Nat
  returnDiameter : Nat
  accelLength : Nat
  armLength : Nat
  fireLength : Nat
  pasteToCut : Nat
  confirmLength : Nat
  pastePulse : Nat
  cutPulse : Nat
  matchTolerance : Nat
  matchHold : Nat
  leadTime : Nat
  callOffLength : Nat
  urgentMargin : Nat
  tensionSetpoint : Nat
  deriving DecidableEq, Repr

/-- A request of the line computer without its tag: the fields of 12.3's table. -/
inductive Request where
  | ident
  | status
  | setclock (value : Nat)
  | restart
  | defnode (node zone kind : Nat)
  | defbay (bay node height : Nat)
  | defroute (src dst length : Nat) (zones : List Nat)
  | defpos (position node enabled : Nat)
  | commit
  | intake (reel : ReelData) (node bay : Nat)
  | restock (reel : ReelData) (origin arrival bay level : Nat)
  | reelinfo (reel mode : Nat)
  | remove (reel : Nat)
  | resttime (grade minutes : Nat)
  | bayinfo (bay mode : Nat)
  | deliver (position reel priority : Nat)
  | relocate (reel bay priority : Nat)
  | ret (position arm bay priority : Nat)
  | clear (position arm priority : Nat)
  | park (vehicle node priority : Nat)
  | cancel (order : Nat)
  | resolve (order action : Nat)
  | orderinfo (order mode : Nat)
  | halt (vehicle : Nat)
  | resume (vehicle : Nat)
  | retire (vehicle : Nat)
  | vehinfo (vehicle : Nat)
  | vehcfg (offerTimeout heartbeat lowBattery zoneWait : Nat)
  | poscfg (position : Nat) (params : Params)
  | demand (position grade width : Nat)
  | thread (position arm : Nat)
  | loadreel (position arm : Nat) (reel : ReelData)
  | unload (position : Nat)
  | buttoff (position arm : Nat)
  | posinfo (position : Nat)
  | prepared (position arm : Nat)
  | splicenow (position : Nat)
  | splicefix (position arm : Nat)
  | linecfg (line steady filter : Nat)
  | lineinfo (line : Nat)
  | envset (slot action : Nat) (codes levels : List Nat) (offset : Int)
  | envsel (line startSlot startSignature spliceSlot spliceSignature : Nat)
  | envinfo (slot probe : Nat)
  | runstart (line number target : Nat)
  | runend (line : Nat)
  | runinfo (line : Nat)
  | splicelist (line first : Nat)
  | noticecfg (source mode level : Nat)
  deriving DecidableEq, Repr

/-- The commands, one for each row of the table of operations and events. The requests carry the tag their reply echoes
(R171). -/
inductive Instr where
  -- ports and transmitters
  | pinReset (strap : LinkRate)
  | lineFrameReceived (bytes : Bytes)
  | oversizeLength (port : Port) (length : Byte)
  | gapTimeout (port : Port)
  | requestTaken
  | lineFrameSent
  -- requests of the line computer
  | ident (tag : Nat)
  | status (tag : Nat)
  | setclock (tag value : Nat)
  | restart (tag : Nat)
  | defnode (tag node zone kind : Nat)
  | defbay (tag bay node height : Nat)
  | defroute (tag src dst length : Nat) (zones : List Nat)
  | defpos (tag position node enabled : Nat)
  | commit (tag : Nat)
  | intake (tag : Nat) (reel : ReelData) (node bay : Nat)
  | restock (tag : Nat) (reel : ReelData) (origin arrival bay level : Nat)
  | reelinfo (tag reel mode : Nat)
  | remove (tag reel : Nat)
  | resttime (tag grade minutes : Nat)
  | bayinfo (tag bay mode : Nat)
  | deliver (tag position reel priority : Nat)
  | relocate (tag reel bay priority : Nat)
  | ret (tag position arm bay priority : Nat)
  | clear (tag position arm priority : Nat)
  | park (tag vehicle node priority : Nat)
  | cancel (tag order : Nat)
  | resolve (tag order action : Nat)
  | orderinfo (tag order mode : Nat)
  | halt (tag vehicle : Nat)
  | resume (tag vehicle : Nat)
  | retire (tag vehicle : Nat)
  | vehinfo (tag vehicle : Nat)
  | vehcfg (tag offerTimeout heartbeat lowBattery zoneWait : Nat)
  | poscfg (tag position : Nat) (params : Params)
  | demand (tag position grade width : Nat)
  | thread (tag position arm : Nat)
  | loadreel (tag position arm : Nat) (reel : ReelData)
  | unload (tag position : Nat)
  | buttoff (tag position arm : Nat)
  | posinfo (tag position : Nat)
  | prepared (tag position arm : Nat)
  | splicenow (tag position : Nat)
  | splicefix (tag position arm : Nat)
  | linecfg (tag line steady filter : Nat)
  | lineinfo (tag line : Nat)
  | envset (tag slot action : Nat) (codes levels : List Nat) (offset : Int)
  | envsel (tag line startSlot startSignature spliceSlot spliceSignature : Nat)
  | envinfo (tag slot probe : Nat)
  | runstart (tag line number target : Nat)
  | runend (tag line : Nat)
  | runinfo (tag line : Nat)
  | splicelist (tag line first : Nat)
  | noticecfg (tag source mode level : Nat)
  -- vehicle link frames
  | vehicleFrameDiscarded (bytes : Bytes)
  | join (vehicle node load battery : Nat)
  | take (vehicle order leg : Nat)
  | pass (vehicle zone : Nat)
  | done (vehicle order leg : Nat) (result : DoneResult) (node reel : Nat)
  | alive (vehicle battery node : Nat)
  | fault (vehicle : Nat) (code : ReportedFault)
  | ready (vehicle : Nat)
  | vehicleFrameSent
  -- timers and the hall clock
  | offerTimeout (vehicle : Nat)
  | silenceTimeout (vehicle : Nat)
  | zoneWaitLimit (order : Nat)
  | hallClockTick
  | restWatchReached
  -- feed positions and splices
  | speedWindow (position standbyCounts : Nat)
  | matchHoldExpiry (position : Nat)
  | webCount (position : Nat)
  | pasteEnd (position : Nat)
  | cutEnd (position : Nat)
  | firingTimeout (position : Nat)
  | confirmWindowExpiry (position : Nat)
  | confirmEdge (position : Nat)
  | revolutionMark (position : Nat)
  -- copy counting and field inputs
  | copyEvent (line : Nat)
  | divertChange (line : Nat) (active : Bool)
  | pressRunningRise (line : Nat)
  | pressRunningFall (line : Nat)
  | estopAsserted
  | estopReleased
  | tensionSampleDelivered (sample : Nat)
  | inputFilterSample (input : FieldInput) (high : Bool)
  | conversionIntervalStart
  deriving DecidableEq, Repr

end Sys2Proof
end

