-- ==== Sys2Proof/Decode.lean ====
section
/-!
DEFINITION. The command a word of the table's bits spells. No row of the table gives bits (its rows have neither fixed bits nor
fields), so no word spells a command (log 35). Frames of the two serial ports are decoded in Machine/Frames.lean.
-/

namespace Sys2Proof

/-- No row gives bits: no word spells a command (log 35). -/
def decodeTableWord (_nbits _w : Nat) : Option Instr := none

end Sys2Proof
end

