-- ==== Sys2Proof/Config.lean ====
section
/-!
DEFINITION. What the spec leaves open and the model leaves free: constants with no body, so that nothing can be proved of
their values. Each is a value inside a reply of the line link; none decides what the part does.
-/

namespace Sys2Proof.Config

/-- The reply values that the spec reports and gives no width (12.2 lists the widths; log 12). -/
inductive OpenField where
  | identRevision
  | identRate
  | statusBays
  | statusDemands
  | statusReservations
  | statusVehicles
  | statusNotices
  | defnodeNodes
  | defbayBays
  | defrouteRoutes
  | commitNodes
  | commitBays
  | commitRoutes
  | commitPositions
  | bayinfoInbound
  | bayinfoFree
  | bayinfoBays
  | vehinfoPassed
  | vehinfoFrames
  | vehinfoSilenceSeconds
  | vehinfoOfferSeconds
  deriving DecidableEq, Repr

/-- By how many bytes, 0 to 3, such a field is wider than the one or two its values need in the ordinary case: every width of 12.2 is at
most four bytes, and every reply is to fit within 240 (R193). The value is sent, high byte first as every field is; only its width is
open. FREE VALUE (log 12). -/
opaque extraWidth (f : OpenField) : Fin 4

/-- The design revision number of the part, as IDENT sends it (R180 names it and gives no value). FREE VALUE (log 13). -/
opaque designRevision : Nat

/-- The number by which IDENT sends the link rate (R180 names it; 12.2 gives it no code). FREE VALUE (log 13). -/
opaque linkRateCode (r : LinkRate) : Nat

/-- How LINEINFO shows an absent latest sample, an absent latest deviation and the age of an absent sample
(R134, R140: absent values without a code). FREE VALUE (log 14). -/
opaque absentSample : BitVec 16

/-- See `absentSample`. FREE VALUE (log 14). -/
opaque absentDeviation : BitVec 8

/-- See `absentSample`. FREE VALUE (log 14). -/
opaque absentSampleAge : BitVec 16

/-- How POSINFO shows the absent estimate of a position in NO_WEB (R91, R110). FREE VALUE (log 14). -/
opaque absentEstimate : BitVec 16

/-- The order's state in the reply to a CANCEL or RESOLVE that has removed the order (R60, R61). FREE VALUE (log 15). -/
opaque removedOrderState : BitVec 8

/-- The offset and the length an ENVSET reply carries for a slot left EMPTY (R151). FREE VALUE (log 14). -/
opaque emptySlotOffset : BitVec 8

/-- See `emptySlotOffset`. FREE VALUE (log 14). -/
opaque emptySlotLength : BitVec 16

end Sys2Proof.Config
end

