-- ==== Sys2Proof/Machine/Bytes.lean ====
section
/-!
DEFINITION. The byte order of both links (chapter 12: high byte first, signed fields in two's complement) and the check of a
frame (R167).
-/

namespace Sys2Proof.Machine

/-- A field of one byte. -/
def be1 (n : Nat) : Bytes := [BitVec.ofNat 8 n]

/-- A field of two bytes, high byte first. -/
def be2 (n : Nat) : Bytes := [BitVec.ofNat 8 (n / 256), BitVec.ofNat 8 n]

/-- A field of four bytes, high byte first. -/
def be4 (n : Nat) : Bytes :=
  [BitVec.ofNat 8 (n / 16777216), BitVec.ofNat 8 (n / 65536), BitVec.ofNat 8 (n / 256), BitVec.ofNat 8 n]

/-- A flag: 0 or 1 (12.2). -/
def flagByte (b : Bool) : Bytes := be1 (if b then 1 else 0)

/-- A signed field of one byte. -/
def signedByte (i : Int) : Bytes := [BitVec.ofInt 8 i]

/-- An identifier of one byte, 0 when absent (12.2). -/
def opt1 (o : Option Nat) : Bytes := be1 (o.getD 0)

/-- An identifier of two bytes, 0 when absent (12.2). -/
def opt2 (o : Option Nat) : Bytes := be2 (o.getD 0)

/-- A reel id or time of four bytes, 0 when absent (12.2). -/
def opt4 (o : Option Nat) : Bytes := be4 (o.getD 0)

/-- A ms timer: two bytes; a stopped timer reads 0xFFFF (12.2). DESIGN CHOICE: a running one past 65,534 ms reads 65,534 (log 48,
unsafe). -/
def timerBytes : Option Nat → Bytes
  | some n => be2 (min n 65534)
  | none => be2 65535

/-- The number a field's bytes carry, high byte first. -/
def readNat (bs : Bytes) : Nat := bs.foldl (fun acc b => acc * 256 + b.toNat) 0

/-- The signed number of one byte. -/
def readSigned (b : Byte) : Int := b.toInt

/-- One bit of the check register of R167: polynomial x^16 + x^12 + x^5 + 1. -/
def crcBit (r : BitVec 16) : BitVec 16 := if r.msb then (r <<< 1) ^^^ 0x1021#16 else r <<< 1

/-- One byte into the check register, most significant bit first (R167). -/
def crcByte (r : BitVec 16) (b : Byte) : BitVec 16 :=
  crcBit (crcBit (crcBit (crcBit (crcBit (crcBit (crcBit (crcBit (r ^^^ (b.zeroExtend 16 <<< 8)))))))))

/-- The check over the bytes from the length byte to the end of the payload: start 65535, no final inversion (R167). -/
def crc (bs : Bytes) : BitVec 16 := bs.foldl crcByte 0xFFFF#16

/-- The two CHECK bytes, high byte first (R167). -/
def crcBytes (bs : Bytes) : Bytes := be2 (crc bs).toNat

/-- The sync byte (12.1). -/
def syncByte : Byte := 0xA5#8

end Sys2Proof.Machine
end

