-- ==== Sys2Proof/Machine/Table.lean ====
section
/-!
DEFINITION. A table of numbered entries, held as plain data: the entries in rising order of their numbers, each number once.
Every table of the part is one (reel records by reel id, orders by tag, bays, nodes, vehicles, zones, positions, lines, slots).
-/

namespace Sys2Proof

/-- Entries under numbers. The canonical form is `Table.wf`. -/
structure Table (α : Type) where
  entries : List (Nat × α)
  deriving DecidableEq, Repr

/-- The table with no entry. -/
def Table.empty {α : Type} : Table α := ⟨[]⟩

/-- The entry under `k` in a list of entries. -/
def Table.findIn {α : Type} (k : Nat) : List (Nat × α) → Option α
  | [] => none
  | e :: es => if e.1 = k then some e.2 else Table.findIn k es

/-- `es` with `v` under `k`, in the place the rising order gives it. -/
def Table.insertIn {α : Type} (k : Nat) (v : α) : List (Nat × α) → List (Nat × α)
  | [] => [(k, v)]
  | e :: es =>
    if k < e.1 then (k, v) :: e :: es
    else if k = e.1 then (k, v) :: es
    else e :: Table.insertIn k v es

/-- `es` without any entry under `k`. -/
def Table.eraseIn {α : Type} (k : Nat) : List (Nat × α) → List (Nat × α)
  | [] => []
  | e :: es => if e.1 = k then Table.eraseIn k es else e :: Table.eraseIn k es

/-- Every number of `es` is above `k`, and they rise. -/
def Table.risesFrom {α : Type} : Option Nat → List (Nat × α) → Bool
  | _, [] => true
  | none, e :: es => Table.risesFrom (some e.1) es
  | some k, e :: es => decide (k < e.1) && Table.risesFrom (some e.1) es

/-- The entry under `k`, if there is one. -/
def Table.find {α : Type} (t : Table α) (k : Nat) : Option α := Table.findIn k t.entries

/-- The table with `v` under `k`. -/
def Table.insert {α : Type} (t : Table α) (k : Nat) (v : α) : Table α := ⟨Table.insertIn k v t.entries⟩

/-- The table without an entry under `k`. -/
def Table.erase {α : Type} (t : Table α) (k : Nat) : Table α := ⟨Table.eraseIn k t.entries⟩

/-- There is an entry under `k`. -/
def Table.has {α : Type} (t : Table α) (k : Nat) : Bool := (t.find k).isSome

/-- The numbers in use, ascending. -/
def Table.keys {α : Type} (t : Table α) : List Nat := t.entries.map (·.1)

/-- How many entries there are. -/
def Table.count {α : Type} (t : Table α) : Nat := t.entries.length

/-- Every entry changed by `f`. -/
def Table.mapEntries {α β : Type} (t : Table α) (f : Nat → α → β) : Table β := ⟨t.entries.map fun e => (e.1, f e.1 e.2)⟩

/-- The canonical form: the numbers rise, so that equal tables are equal data. -/
def Table.wf {α : Type} (t : Table α) : Bool := Table.risesFrom none t.entries

end Sys2Proof
end

