-- ==== Sys2Proof/Machine/State.lean ====
section
/-!
DEFINITION. The state of the part: every piece the spec gives it, as plain data, and the state after pin reset. The rule that
names a piece stands at its declaration; INVENTORY.md lists them all with their reset values.
-/

namespace Sys2Proof.Machine

/-! ### The line link (chapter 10) -/

/-- The phase (R173). -/
inductive Phase where
  | config
  | run
  deriving DecidableEq, Repr

/-- A port's receiver (R166): the bytes held since the sync byte, that one included, and the ms since the last byte. The
five states of R166 are read off the bytes held (`Receiver.mode`). -/
structure Receiver where
  held : Bytes
  gapMs : Nat
  deriving DecidableEq, Repr

/-- An accepted request, with the tag its reply echoes (R170). -/
structure Accepted where
  tag : Nat
  request : Request
  deriving DecidableEq, Repr

/-- A reply, or one of the port's own answers, before its transmission (R171, R172, R193). -/
structure Reply where
  kind : Nat
  tag : Nat
  payload : Bytes
  deriving DecidableEq, Repr

/-- The link counts of R181. -/
structure LinkCounts where
  accepted : Nat
  badCheck : Nat
  gap : Nat
  oversize : Nat
  badKind : Nat
  badLen : Nat
  busy : Nat
  lostReply : Nat
  deriving DecidableEq, Repr

/-- The Line Link Port. -/
structure LineLink where
  phase : Phase
  rate : LinkRate
  rx : Receiver
  requests : List Accepted
  portReplies : List Reply
  replies : List Reply
  tx : Option Bytes
  counts : LinkCounts
  deriving DecidableEq, Repr

/-- The hall clock (R178) and the ms of its present second. -/
structure HallClock where
  seconds : Nat
  ms : Nat
  deriving DecidableEq, Repr

/-! ### The floor plan (R63, R174, R175) -/

/-- The kind of a node (R63). -/
inductive NodeKind where
  | bayAccess
  | stand
  | intake
  | waste
  | parking
  | charger
  deriving DecidableEq, Repr

/-- A node (R63). -/
structure Node where
  zone : Nat
  kind : NodeKind
  deriving DecidableEq, Repr

/-- A one-way route (R63). -/
structure Route where
  src : Nat
  dst : Nat
  zones : List Nat
  length : Nat
  deriving DecidableEq, Repr

/-! ### The store (chapters 1 and 2) -/

/-- The eight reel states (section 1.2). -/
inductive ReelState where
  | incoming
  | stored
  | reserved
  | inTransit
  | staged
  | prepared
  | running
  | butt
  deriving DecidableEq, Repr

/-- The five kinds of location (R3). -/
inductive Location where
  | atIntake (node : Nat)
  | inBay (bay level : Nat)
  | onVehicle (vehicle : Nat)
  | wasteBound (vehicle : Nat)
  | onArm (position : Nat) (arm : Arm)
  deriving DecidableEq, Repr

/-- The origin of a reel (R2). -/
inductive Origin where
  | intake
  | returned
  deriving DecidableEq, Repr

/-- A reel record (R2), held under its reel id. -/
structure Reel where
  grade : Nat
  width : Nat
  diameter : Nat
  caliper : Nat
  mass : Nat
  arrival : Nat
  restUntil : Nat
  origin : Origin
  state : ReelState
  location : Location
  reservation : Option Nat
  tag : Option Nat
  lastBay : Option Nat
  deriving DecidableEq, Repr

/-- A bay (R20), held under its number; the stack lists reel ids bottom to top. -/
structure Bay where
  node : Nat
  height : Nat
  stack : List Nat
  inbound : Nat
  deriving DecidableEq, Repr

/-- The conditioning rest (R12, R13): minutes by grade, and the rest watch. -/
structure Rest where
  minutes : Table Nat
  watch : Option Nat
  deriving DecidableEq, Repr

/-- An entry of the Demand Queue (R31). -/
structure DemandEntry where
  position : Nat
  grade : Nat
  width : Nat
  time : Nat
  deriving DecidableEq, Repr

/-! ### Transport orders (chapter 3) -/

/-- The order kinds (R40). -/
inductive OrderKind where
  | intake
  | deliver
  | ret
  | clear
  | relocate
  | park
  deriving DecidableEq, Repr

/-- Priority (R39, R55). -/
inductive Priority where
  | normal
  | urgent
  deriving DecidableEq, Repr

/-- The source or destination of an order (R39, 12.5). -/
inductive Place where
  | absent
  | bay (bay level : Nat)
  | arm (position : Nat) (arm : Option Arm)
  | node (node : Nat)
  deriving DecidableEq, Repr

/-- The order states (section 3.2); the reason of a suspension is a field of its own. -/
inductive OrderState where
  | waiting
  | offered
  | active
  | heldZones
  | heldArm
  | suspended
  | cancelling
  deriving DecidableEq, Repr

/-- Why an order is suspended (R39). -/
inductive Reason where
  | vehicle
  | wrongReel
  | emptyPick
  | blockedDrop
  | noRoute
  | noSpace
  deriving DecidableEq, Repr

/-- An order record (R39), held under its tag. Beyond R39's fields: the creation sequence (R38); the zones of the leg granted
or waiting and the count of them passed (R76); whether the present hold is reported (R78); whether the GO of the present leg
has been sent (R43, R62). The legs are computed from the kind. -/
structure Order where
  kind : OrderKind
  converted : Bool
  priority : Priority
  reel : Option Nat
  source : Place
  destination : Place
  targetArm : Option Arm
  progress : Nat
  vehicle : Option Nat
  state : OrderState
  reason : Option Reason
  created : Nat
  position : Option Nat
  heldSince : Option Nat
  cancelPending : Bool
  sequence : Nat
  legZones : List Nat
  legPassed : Nat
  holdReported : Bool
  goSent : Bool
  deriving DecidableEq, Repr

/-- The order a disposal asks for (R49, R102). -/
inductive DisposalKind where
  | ret
  | clear
  deriving DecidableEq, Repr

/-- An item of the creation backlog (R49), with the priority R55 has given it. -/
inductive BacklogItem where
  | delivery (position reel : Nat) (priority : Priority)
  | disposal (position : Nat) (arm : Arm) (kind : DisposalKind) (priority : Priority)
  deriving DecidableEq, Repr

/-- The Order List (R38) with its creation backlog (R49). -/
structure OrderList where
  table : Table Order
  lastTag : Nat
  nextSequence : Nat
  backlog : List BacklogItem
  deriving DecidableEq, Repr

/-! ### Vehicles (chapter 4) -/

/-- The vehicle states (R64). -/
inductive VehicleState where
  | absent
  | idle
  | offered
  | driving
  | stopped
  | faulted
  | lost
  deriving DecidableEq, Repr

/-- The prior state of a STOPPED vehicle (R64). -/
inductive PriorState where
  | offered
  | driving
  deriving DecidableEq, Repr

/-- The fault codes (R64; CONFLICT is carried by notices only, R67). -/
inductive FaultCode where
  | drive
  | battery
  | obstacle
  | load
  | route
  | link
  | offer
  | conflict
  deriving DecidableEq, Repr

/-- The current leg: the leg of the last GO sent (R64). -/
structure Leg where
  tag : Nat
  index : Nat
  target : Nat
  zones : List Nat
  passed : Nat
  deriving DecidableEq, Repr

/-- A vehicle slot (R64); node 0 is between nodes. The silence timer stops while the vehicle is LOST (R68); the time since its last frame,
whose seconds VEHINFO reports beside the timer (R85), goes on. -/
structure Vehicle where
  state : VehicleState
  prior : Option PriorState
  faultCode : Option FaultCode
  node : Nat
  zone : Option Nat
  load : Option Nat
  verified : Bool
  battery : Nat
  order : Option Nat
  leg : Option Leg
  silenceMs : Nat
  sinceFrameMs : Nat
  offerMs : Option Nat
  deriving DecidableEq, Repr

/-- The action of a GO (12.2). -/
inductive GoAction where
  | none
  | pick
  | drop
  deriving DecidableEq, Repr

/-- An outbound frame of the vehicle link (section 4.5); a HALT to vehicle 0 is HALT-ALL. -/
inductive VehicleFrame where
  | go (vehicle tag leg target : Nat) (action : GoAction) (zones : List Nat)
  | halt (vehicle : Nat)
  | resume (vehicle : Nat)
  | abandon (vehicle tag leg : Nat)
  deriving DecidableEq, Repr

/-- A vehicle frame in transmission, with its bytes. -/
structure VehicleTx where
  frame : VehicleFrame
  bytes : Bytes
  deriving DecidableEq, Repr

/-- The Vehicle Link Port (R80, R81): receiver, discarded-frame count, outbound queue, waiting line, frame in transmission. -/
structure VehicleLink where
  rx : Receiver
  discarded : Nat
  queue : List VehicleFrame
  waiting : List VehicleFrame
  tx : Option VehicleTx
  deriving DecidableEq, Repr

/-- The parameters of VEHCFG (R86), in seconds and percent. -/
structure VehicleConfig where
  offerTimeout : Nat
  heartbeat : Nat
  lowBattery : Nat
  zoneWait : Nat
  deriving DecidableEq, Repr

/-! ### Feed positions (chapters 5 and 6) -/

/-- A filter of a digital field input (R129). -/
structure Filter where
  level : Bool
  run : Nat
  deriving DecidableEq, Repr

/-- A position's demand (R87). -/
structure Demand where
  grade : Nat
  width : Nat
  deriving DecidableEq, Repr

/-- The disposal status of an arm with a butt (R102). -/
inductive Disposal where
  | ordered
  | backlog
  | noBay
  | manual
  deriving DecidableEq, Repr

/-- The ten states of the splice sequence (R111). -/
inductive Sequence where
  | noWeb
  | noStandby
  | standby
  | ready
  | accel
  | matched
  | armed
  | firing
  | confirm
  | failed
  deriving DecidableEq, Repr

/-- The web gauge (section 5.3). -/
structure Gauge where
  speed : Nat
  standbySpeed : Nat
  estimate : Option Nat
  remaining : Nat
  timeToSplice : Nat
  rejections : Nat
  flagH : Bool
  flagC : Bool
  flagS : Bool
  flagZ : Bool
  markPending : Bool
  deltaL : Nat
  caliper : Nat
  windowCounts : Nat
  deriving DecidableEq, Repr

/-- The call-off states (R98). -/
inductive CallOffState where
  | none
  | raised
  | waitStock
  | ordered
  deriving DecidableEq, Repr

/-- The call-off record (R98); `ordersFull` is the reason ORDERS_FULL. -/
structure CallOff where
  state : CallOffState
  ordersFull : Bool
  urgencyReported : Bool
  deriving DecidableEq, Repr

/-- The five outputs (R87). -/
structure Outputs where
  accelA : Bool
  accelB : Bool
  paste : Bool
  cut : Bool
  webEnd : Bool
  deriving DecidableEq, Repr

/-- The failure cause of a splice (R111). -/
inductive FailureCause where
  | noCut
  | noConfirm
  deriving DecidableEq, Repr

/-- The splice sequence record (R111) without its state; `cutStarted` says that the cut of the present firing has started. -/
structure SpliceSequence where
  matchMs : Option Nat
  pasteMs : Option Nat
  cutMs : Option Nat
  cutStarted : Bool
  sincePaste : Nat
  firingMs : Nat
  latch : Bool
  sinceConfirm : Nat
  confirmMs : Nat
  cause : Option FailureCause
  missed : Bool
  count : Nat
  deriving DecidableEq, Repr

/-- A feed position unit (R87). The web state is WEB exactly when there is a running arm (R89). -/
structure Position where
  standNode : Nat
  enabled : Bool
  params : Params
  demand : Option Demand
  armA : Option Nat
  armB : Option Nat
  disposalA : Option Disposal
  disposalB : Option Disposal
  running : Option Arm
  sequence : Sequence
  gauge : Gauge
  callOff : CallOff
  outputs : Outputs
  splice : SpliceSequence
  mark : Filter
  confirm : Filter
  deriving DecidableEq, Repr

/-! ### Counting (chapters 7, 8 and 9) -/

/-- The kinds of a web's envelope state (R146). -/
inductive EnvelopeKind where
  | none
  | steady
  | start
  | splice
  deriving DecidableEq, Repr

/-- A web's envelope state (R146), splice link (R138) and tension record (R134). -/
structure Web where
  kind : EnvelopeKind
  index : Nat
  slot : Option Nat
  link : Option Nat
  sample : Option Nat
  deviation : Option Nat
  maximum : Nat
  fresh : Bool
  ageMs : Nat
  deriving DecidableEq, Repr

/-- The state of a run (R155). -/
inductive RunState where
  | none
  | active
  | ended
  deriving DecidableEq, Repr

/-- How a splice was settled (R160). -/
inductive SettledBy where
  | confirm
  | fix
  deriving DecidableEq, Repr

/-- A splice record (R160); its number is its place in the list, from 1. -/
structure SpliceRecord where
  position : Nat
  oldReel : Nat
  newReel : Nat
  time : Nat
  gross : Nat
  charged : Nat
  settledBy : SettledBy
  splices : Nat
  deriving DecidableEq, Repr

/-- The target reached mark when set (R158). -/
structure TargetMark where
  time : Nat
  gross : Nat
  deriving DecidableEq, Repr

/-- A run record (R154). -/
structure Run where
  number : Nat
  state : RunState
  target : Nat
  gross : Nat
  good : Nat
  wasteStart : Nat
  wasteSplice : Nat
  wasteTension : Nat
  wasteDivert : Nat
  buttPaper : Nat
  startTime : Option Nat
  endTime : Option Nat
  reached : Option TargetMark
  frozen : Bool
  splices : List SpliceRecord
  deriving DecidableEq, Repr

/-- A press line: its filters (R130), settings (R139), counters outside the gate and on held values (R133, R136), selections
(R145) and run (R154). -/
structure Line where
  copy : Filter
  divert : Filter
  press : Filter
  filterCount : Nat
  steady : Nat
  outside : Nat
  heldCopies : Nat
  startSlot : Nat
  spliceSlot : Nat
  run : Run
  deriving DecidableEq, Repr

/-- The content of a FULL envelope slot (R141). -/
structure Envelope where
  codes : List Nat
  levels : List Nat
  offset : Int
  deriving DecidableEq, Repr

/-- The Tension Sampler (R135): last position converted, and the web of the conversion in progress. -/
structure Sampler where
  last : Nat
  converting : Option Nat
  deriving DecidableEq, Repr

/-! ### Notices (chapter 11) -/

/-- The modes of a notice source (R183). -/
inductive NoticeMode where
  | report
  | auto
  | both
  | off
  deriving DecidableEq, Repr

/-- The handling of one source (R183). -/
structure Handling where
  mode : NoticeMode
  level : Nat
  deriving DecidableEq, Repr

/-- Why a vehicle is lost (R185). -/
inductive LostReason where
  | silent
  | retired
  deriving DecidableEq, Repr

/-- The subjects of a notice, by source (R185); 0 stands for an absent id, tag or node (12.2). -/
inductive Subjects where
  | estop (asserted : Bool)
  | spliceMissed (position running : Nat) (state : Sequence) (standby : Nat)
  | spliceFailed (position : Nat) (cause : FailureCause) (running standby remaining : Nat)
  | vehicleLost (vehicle : Nat) (reason : LostReason) (node load : Nat)
  | vehicleFault (vehicle : Nat) (code : FaultCode) (node load tag holder recorded reported : Nat)
  | urgent (position timeToSplice tag : Nat)
  | callOff (position grade width remaining timeToSplice : Nat) (state : CallOffState) (ordersFull : Bool) (tag : Nat)
  | noStock (position grade width : Nat)
  | butt (position : Nat) (arm : Arm) (reel diameter paper : Nat) (status : Disposal) (tag : Nat)
  | orderHeld (tag vehicle seconds zone holder : Nat)
  | orderSuspended (tag : Nat) (reason : Reason) (vehicle reel : Nat)
  | spliceDone (position oldReel oldDiameter newReel newDiameter : Nat) (settledBy : SettledBy)
  | orderDone (tag : Nat) (kind : OrderKind) (reel vehicle : Nat)
  | diameter (position reel before after : Nat)
  | target (line run target good gross : Nat)
  deriving DecidableEq, Repr

/-- A notice (R185); its source is read off its subjects (`Subjects.source`). -/
structure Notice where
  level : Nat
  time : Nat
  sequence : Nat
  subjects : Subjects
  deriving DecidableEq, Repr

/-- The Notice Queue (R186), the overflow flag (R188), the sequence (R185) and the sources' handling (R183). -/
structure Notices where
  queue : List Notice
  overflow : Bool
  sequence : Nat
  handling : Table Handling
  deriving DecidableEq, Repr

/-! ### The whole state -/

/-- The state of the part. `pending` is the queue of commands that wait, first in, first out. -/
structure State where
  pending : List Instr
  link : LineLink
  clock : HallClock
  nodes : Table Node
  routes : Table Route
  reels : Table Reel
  rest : Rest
  bays : Table Bay
  demands : List DemandEntry
  orders : OrderList
  vehicles : Table Vehicle
  locks : Table Nat
  vlink : VehicleLink
  vconfig : VehicleConfig
  positions : Table Position
  estop : Filter
  sampler : Sampler
  webs : Table Web
  lines : Table Line
  slots : Table Envelope
  notices : Notices
  deriving DecidableEq, Repr

/-- Why the machine stops with a fault: there is no such case. Every step of the spec ends in a state of the part. -/
inductive Fault where
  deriving DecidableEq, Repr

/-- Why a command has no meaning. -/
inductive Refusal where
  /-- Raised by an arm of `exec` whose command has no meaning yet, named by its mnemonic. Safe: the run stops. -/
  | notModelled (mnemonic : String)
  deriving DecidableEq, Repr

/-! ### Reset values -/

/-- HUNT with nothing held (R166). -/
def Receiver.hunt : Receiver := ⟨[], 0⟩

/-- A filter after reset: inactive, run count 0 (R129). -/
def Filter.reset : Filter := ⟨false, 0⟩

/-- The link counts after pin reset (R181). -/
def LinkCounts.zero : LinkCounts := ⟨0, 0, 0, 0, 0, 0, 0, 0⟩

/-- The defaults of R88. -/
def defaultParams : Params where
  spliceDiameter := 130
  coreDiameter := 100
  returnDiameter := 300
  accelLength := 600000
  armLength := 60000
  fireLength := 3000
  pasteToCut := 1200
  confirmLength := 4000
  pastePulse := 100
  cutPulse := 100
  matchTolerance := 5
  matchHold := 2000
  leadTime := 900
  callOffLength := 8000000
  urgentMargin := 300
  tensionSetpoint := 2000

/-- The gauge's NO_WEB readings with both speeds 0 (R91). DESIGN CHOICE for the mark-pending flag, the delta-L count and the
caliper (log 21, unsafe). -/
def Gauge.reset : Gauge where
  speed := 0
  standbySpeed := 0
  estimate := none
  remaining := 0
  timeToSplice := 65535
  rejections := 0
  flagH := false
  flagC := false
  flagS := false
  flagZ := false
  markPending := false
  deltaL := 0
  caliper := 0
  windowCounts := 0

/-- The splice sequence record after either reset (R111). -/
def SpliceSequence.reset : SpliceSequence where
  matchMs := none
  pasteMs := none
  cutMs := none
  cutStarted := false
  sincePaste := 0
  firingMs := 0
  latch := false
  sinceConfirm := 0
  confirmMs := 0
  cause := none
  missed := false
  count := 0

/-- Every output off (R87). -/
def Outputs.off : Outputs := ⟨false, false, false, false, false⟩

/-- A feed position after pin reset (R87). -/
def Position.reset : Position where
  standNode := 0
  enabled := false
  params := defaultParams
  demand := none
  armA := none
  armB := none
  disposalA := none
  disposalB := none
  running := none
  sequence := .noWeb
  gauge := Gauge.reset
  callOff := ⟨.none, false, false⟩
  outputs := Outputs.off
  splice := SpliceSequence.reset
  mark := Filter.reset
  confirm := Filter.reset

/-- An ABSENT slot with its fields cleared (R64). -/
def Vehicle.absentSlot : Vehicle where
  state := .absent
  prior := none
  faultCode := none
  node := 0
  zone := none
  load := none
  verified := false
  battery := 0
  order := none
  leg := none
  silenceMs := 0
  sinceFrameMs := 0
  offerMs := none

/-- A web that does not run: envelope NONE (R146), no link (R138), a blank tension record (R134). -/
def Web.blank : Web := ⟨.none, 0, none, none, none, none, 0, false, 0⟩

/-- A run record after reset (R154). -/
def Run.reset : Run where
  number := 0
  state := .none
  target := 0
  gross := 0
  good := 0
  wasteStart := 0
  wasteSplice := 0
  wasteTension := 0
  wasteDivert := 0
  buttPaper := 0
  startTime := none
  endTime := none
  reached := none
  frozen := false
  splices := []

/-- A press line after pin reset (R129, R130, R133, R136, R139, R145, R154). -/
def Line.reset : Line where
  copy := Filter.reset
  divert := Filter.reset
  press := Filter.reset
  filterCount := 4
  steady := 8
  outside := 0
  heldCopies := 0
  startSlot := 0
  spliceSlot := 0
  run := Run.reset

/-- The default mode and level of each source (R183). -/
def defaultHandling : Table Handling := ⟨[
  (1, ⟨.report, 0⟩), (2, ⟨.report, 0⟩), (3, ⟨.report, 0⟩), (4, ⟨.report, 1⟩), (5, ⟨.report, 1⟩),
  (6, ⟨.both, 1⟩), (7, ⟨.both, 2⟩), (8, ⟨.report, 2⟩), (9, ⟨.both, 2⟩), (10, ⟨.report, 2⟩),
  (11, ⟨.report, 2⟩), (12, ⟨.report, 3⟩), (13, ⟨.report, 3⟩), (14, ⟨.report, 3⟩), (15, ⟨.report, 3⟩)]⟩

/-- The outbound queue right after either reset: HALT-ALL first (R80). -/
def resetFrames : List VehicleFrame := [.halt 0]

/-- The part as pin reset makes it, with the strap read as `rate`; a free transmitter then takes its next frame. -/
def State.resetAt (rate : LinkRate) : State where
  pending := []
  link := ⟨.config, rate, Receiver.hunt, [], [], [], none, LinkCounts.zero⟩
  clock := ⟨0, 0⟩
  nodes := Table.empty
  routes := Table.empty
  reels := Table.empty
  rest := ⟨⟨[(1, 0), (2, 0), (3, 0), (4, 0), (5, 0), (6, 0), (7, 0), (8, 0), (9, 0), (10, 0), (11, 0), (12, 0), (13, 0),
    (14, 0), (15, 0)]⟩, none⟩
  bays := Table.empty
  demands := []
  orders := ⟨Table.empty, 0, 0, []⟩
  vehicles := ⟨[(1, .absentSlot), (2, .absentSlot), (3, .absentSlot), (4, .absentSlot), (5, .absentSlot), (6, .absentSlot),
    (7, .absentSlot), (8, .absentSlot), (9, .absentSlot), (10, .absentSlot), (11, .absentSlot), (12, .absentSlot)]⟩
  locks := Table.empty
  vlink := ⟨Receiver.hunt, 0, resetFrames, [], none⟩
  vconfig := ⟨3, 5, 20, 120⟩
  positions := ⟨[(1, .reset), (2, .reset), (3, .reset), (4, .reset), (5, .reset), (6, .reset), (7, .reset), (8, .reset)]⟩
  estop := Filter.reset
  sampler := ⟨0, none⟩
  webs := ⟨[(1, .blank), (2, .blank), (3, .blank), (4, .blank), (5, .blank), (6, .blank), (7, .blank), (8, .blank)]⟩
  lines := ⟨[(1, .reset), (2, .reset)]⟩
  slots := Table.empty
  notices := ⟨[], false, 0, defaultHandling⟩

/-- The part right after power-on: the HALT-ALL that pin reset places first is in transmission, since the transmitter stands free (R80;
log 8). The strap is an input the spec gives no value for: DESIGN CHOICE 115,200 baud (log 11, unsafe); PIN_RESET carries the
strap. -/
def State.reset : State :=
  { State.resetAt .baud115200 with
    vlink := ⟨Receiver.hunt, 0, [], [], some ⟨.halt 0, [0xA5#8, 0x00#8, 0x02#8, 0x00#8, 0xAA#8, 0xFE#8]⟩⟩ }

end Sys2Proof.Machine
end

