-- ==== Sys2Proof/Machine/Operands.lean ====
section
/-!
DEFINITION. The operands of requests and events: the ranges of 00_scope's identifier table, the codes of 12.2's tables as a
request carries them, and the clamps.
-/

namespace Sys2Proof.Machine

/-- The identifier ranges of 00_scope. -/
def positionOk (p : Nat) : Bool := 1 ≤ p && p ≤ 8
def lineOk (l : Nat) : Bool := 1 ≤ l && l ≤ 2
def vehicleOk (v : Nat) : Bool := 1 ≤ v && v ≤ 12
def zoneOk (z : Nat) : Bool := 1 ≤ z && z ≤ 48
def nodeOk (n : Nat) : Bool := 1 ≤ n && n ≤ 96
def bayOk (b : Nat) : Bool := 1 ≤ b && b ≤ 120
def slotOk (k : Nat) : Bool := 1 ≤ k && k ≤ 4
def gradeOk (g : Nat) : Bool := 1 ≤ g && g ≤ 15
def widthOk (w : Nat) : Bool := 1 ≤ w && w ≤ 4
def reelIdOk (r : Nat) : Bool := 1 ≤ r && r ≤ reelIdMax
def tagOk (t : Nat) : Bool := 1 ≤ t && t ≤ 65535

/-- The reel data fields are in the ranges of R2; mass 0 is absent. -/
def reelDataOk (d : ReelData) : Bool :=
  reelIdOk d.id && gradeOk d.grade && widthOk d.width && (70 ≤ d.diameter && d.diameter ≤ 1500) &&
    (30 ≤ d.caliper && d.caliper ≤ 200) && d.mass ≤ 65535

/-- An arm code: A = 1, B = 2 (12.2). -/
def armOf : Nat → Option Arm
  | 1 => some .A
  | 2 => some .B
  | _ => none

/-- A priority code (12.2). -/
def priorityOf : Nat → Option Priority
  | 0 => some .normal
  | 1 => some .urgent
  | _ => none

/-- An origin code (12.2). -/
def originOf : Nat → Option Origin
  | 1 => some .intake
  | 2 => some .returned
  | _ => none

/-- A node kind code (12.2). -/
def nodeKindOf : Nat → Option NodeKind
  | 1 => some .bayAccess
  | 2 => some .stand
  | 3 => some .intake
  | 4 => some .waste
  | 5 => some .parking
  | 6 => some .charger
  | _ => none

/-- The modes of a query (12.2). -/
inductive QueryMode where
  | exact
  | next
  deriving DecidableEq, Repr

/-- A query mode code (12.2). -/
def queryModeOf : Nat → Option QueryMode
  | 0 => some .exact
  | 1 => some .next
  | _ => none

/-- The actions of RESOLVE (12.2). -/
inductive ResolveAction where
  | retry
  | accept
  | cancel
  deriving DecidableEq, Repr

/-- A RESOLVE action code (12.2). -/
def resolveActionOf : Nat → Option ResolveAction
  | 1 => some .retry
  | 2 => some .accept
  | 3 => some .cancel
  | _ => none

/-- `x` brought into `lo..hi`. -/
def clampTo (lo hi x : Nat) : Nat := max lo (min x hi)

/-- The offset of an envelope brought into −8..+7 (R151). -/
def clampOffset (i : Int) : Int := max (-8) (min i 7)

/-- POSCFG's fields clamped to the ranges of R88, the return diameter against the Ds being set (R104). -/
def clampParams (q : Params) : Params where
  spliceDiameter := clampTo 100 400 q.spliceDiameter
  coreDiameter := clampTo 70 150 q.coreDiameter
  returnDiameter := clampTo (clampTo 100 400 q.spliceDiameter) 1500 q.returnDiameter
  accelLength := clampTo 50000 2000000 q.accelLength
  armLength := clampTo 5000 2000000 q.armLength
  fireLength := clampTo 500 50000 q.fireLength
  pasteToCut := clampTo 0 5000 q.pasteToCut
  confirmLength := clampTo 500 20000 q.confirmLength
  pastePulse := clampTo 20 500 q.pastePulse
  cutPulse := clampTo 20 500 q.cutPulse
  matchTolerance := clampTo 1 50 q.matchTolerance
  matchHold := clampTo 200 5000 q.matchHold
  leadTime := clampTo 60 3600 q.leadTime
  callOffLength := clampTo 100000 20000000 q.callOffLength
  urgentMargin := clampTo 30 3600 q.urgentMargin
  tensionSetpoint := clampTo 100 4000 q.tensionSetpoint

/-- The filter's view of a sample: the copy input's active level is the low level of the line, every other input's is the
level that asserts what it signals (R129). -/
def inputActive (i : FieldInput) (high : Bool) : Bool :=
  match i with
  | .copy _ => !high
  | _ => high

/-- The line of a feed position (R87). -/
def lineOfPosition (p : Nat) : Nat := if p ≤ 4 then 1 else 2

/-- The feed positions of a line (R87). -/
def positionsOfLine (l : Nat) : List Nat := if l = 1 then [1, 2, 3, 4] else [5, 6, 7, 8]

/-- Every feed position. -/
def allPositions : List Nat := [1, 2, 3, 4, 5, 6, 7, 8]

/-- Every vehicle number. -/
def allVehicles : List Nat := [1, 2, 3, 4, 5, 6, 7, 8, 9, 10, 11, 12]

end Sys2Proof.Machine
end

