-- ==== Sys2Proof/Machine/Ops.lean ====
section
/-!
DEFINITION. The named reads and updates of the state's tables, saturating counts, the web gauge's and the arms' views, and the
state after each of the two resets (R182's table).
-/

namespace Sys2Proof.Machine

/-- A 32-bit counter raised: it saturates (00_scope, Counters). -/
def satAdd (a b : Nat) : Nat := min (a + b) counterMax

/-! ### Tables -/

/-- Feed position `p`. -/
def State.pos (s : State) (p : Nat) : Position := (s.positions.find p).getD Position.reset

def State.setPos (s : State) (p : Nat) (x : Position) : State := { s with positions := s.positions.insert p x }

/-- The web of feed position `w`. -/
def State.web (s : State) (w : Nat) : Web := (s.webs.find w).getD Web.blank

def State.setWeb (s : State) (w : Nat) (x : Web) : State := { s with webs := s.webs.insert w x }

/-- Press line `l`. -/
def State.line (s : State) (l : Nat) : Line := (s.lines.find l).getD Line.reset

def State.setLine (s : State) (l : Nat) (x : Line) : State := { s with lines := s.lines.insert l x }

/-- Vehicle slot `v`. -/
def State.veh (s : State) (v : Nat) : Vehicle := (s.vehicles.find v).getD Vehicle.absentSlot

def State.setVeh (s : State) (v : Nat) (x : Vehicle) : State := { s with vehicles := s.vehicles.insert v x }

/-- The reel record of `r`, if the Inventory holds one (R1). -/
def State.reel (s : State) (r : Nat) : Option Reel := s.reels.find r

def State.setReel (s : State) (r : Nat) (x : Reel) : State := { s with reels := s.reels.insert r x }

def State.delReel (s : State) (r : Nat) : State := { s with reels := s.reels.erase r }

/-- Bay `b`, if it is defined (R20). -/
def State.bay (s : State) (b : Nat) : Option Bay := s.bays.find b

def State.setBay (s : State) (b : Nat) (x : Bay) : State := { s with bays := s.bays.insert b x }

/-- The order of tag `t`, if the list holds it (R38). -/
def State.order (s : State) (t : Nat) : Option Order := s.orders.table.find t

def State.setOrder (s : State) (t : Nat) (x : Order) : State :=
  { s with orders := { s.orders with table := s.orders.table.insert t x } }

def State.delOrder (s : State) (t : Nat) : State :=
  { s with orders := { s.orders with table := s.orders.table.erase t } }

def State.setBacklog (s : State) (b : List BacklogItem) : State := { s with orders := { s.orders with backlog := b } }

/-- The vehicle that holds zone `z`, if one does (R75). -/
def State.holder (s : State) (z : Nat) : Option Nat := s.locks.find z

/-- The rest period of grade `g`, in minutes (R12). -/
def State.restMinutes (s : State) (g : Nat) : Nat := (s.rest.minutes.find g).getD 0

/-- The zone of node `n`, if it is defined (R63). -/
def State.nodeZone (s : State) (n : Nat) : Option Nat := (s.nodes.find n).map (·.zone)

/-- The number routes are kept under: by from-node, then by to-node (R177). -/
def routeKey (src dst : Nat) : Nat := src * 256 + dst

/-- The route from `src` to `dst`, if there is one (R63). -/
def State.route (s : State) (src dst : Nat) : Option Route := s.routes.find (routeKey src dst)

/-! ### Changes of one entry in place -/

def State.onPos (s : State) (p : Nat) (f : Position → Position) : State := s.setPos p (f (s.pos p))
def State.onWeb (s : State) (w : Nat) (f : Web → Web) : State := s.setWeb w (f (s.web w))
def State.onLine (s : State) (l : Nat) (f : Line → Line) : State := s.setLine l (f (s.line l))
def State.onVeh (s : State) (v : Nat) (f : Vehicle → Vehicle) : State := s.setVeh v (f (s.veh v))

/-- The reel record changed, where there is one. -/
def State.onReel (s : State) (r : Nat) (f : Reel → Reel) : State :=
  match s.reel r with
  | some x => s.setReel r (f x)
  | none => s

/-- The bay changed, where it is defined. -/
def State.onBay (s : State) (b : Nat) (f : Bay → Bay) : State :=
  match s.bay b with
  | some x => s.setBay b (f x)
  | none => s

/-- The order changed, where the list holds it. -/
def State.onOrder (s : State) (t : Nat) (f : Order → Order) : State :=
  match s.order t with
  | some x => s.setOrder t (f x)
  | none => s

/-- `f` for each number of a list, in its order. -/
def forEach (ns : List Nat) (f : Nat → State → State) (s : State) : State := ns.foldl (fun s n => f n s) s

/-! ### Arms and the gauge's reported values -/

/-- The other arm. -/
def otherArm : Arm → Arm
  | .A => .B
  | .B => .A

/-- The reel on an arm (R89). -/
def Position.arm (x : Position) : Arm → Option Nat
  | .A => x.armA
  | .B => x.armB

def Position.setArm (x : Position) (a : Arm) (r : Option Nat) : Position :=
  match a with
  | .A => { x with armA := r }
  | .B => { x with armB := r }

/-- The disposal status of an arm (R102). -/
def Position.disposal (x : Position) : Arm → Option Disposal
  | .A => x.disposalA
  | .B => x.disposalB

def Position.setDisposal (x : Position) (a : Arm) (d : Option Disposal) : Position :=
  match a with
  | .A => { x with disposalA := d }
  | .B => { x with disposalB := d }

/-- The position is WEB (R89). -/
def Position.isWeb (x : Position) : Bool := x.running.isSome

/-- The standby arm: the arm that does not run; when none runs, arm A if it is empty and otherwise arm B (R47, R89). -/
def Position.standbyArm (x : Position) : Arm :=
  match x.running with
  | some a => otherArm a
  | none => if x.armA = none then .A else .B

/-- The accelerate output of an arm set to `v`. -/
def Position.setAccel (x : Position) (a : Arm) (v : Bool) : Position :=
  match a with
  | .A => { x with outputs := { x.outputs with accelA := v } }
  | .B => { x with outputs := { x.outputs with accelB := v } }

/-- Both accelerate outputs off (R114). -/
def Position.accelOff (x : Position) : Position := { x with outputs := { x.outputs with accelA := false, accelB := false } }

/-- The reported diameter D: (D_est16 + 8) div 16, and 0 in NO_WEB (R91, R94). -/
def Gauge.diameter (g : Gauge) : Nat :=
  match g.estimate with
  | some e => (e + 8) / 16
  | none => 0

/-- The state of the reel on an arm (R89). -/
def State.armState (s : State) (p : Nat) (a : Arm) : Option ReelState :=
  ((s.pos p).arm a).bind fun r => (s.reel r).map (·.state)

/-- The line's press running input is active (R131). -/
def State.pressRunning (s : State) (l : Nat) : Bool := (s.line l).press.level

/-- The counting gate of a line is open (R133). -/
def State.gateOpen (s : State) (l : Nat) : Bool := (s.line l).run.state = .active && s.pressRunning l

/-- The number of orders in the list (R38). -/
def State.orderCount (s : State) : Nat := s.orders.table.count

/-- The Order List holds 32 orders (R38). -/
def State.ordersFull (s : State) : Bool := decide (32 ≤ s.orderCount)

/-! ### The two resets -/

/-- A line after RESTART: filter count, steady level and selections are kept (R130, R139, R145). -/
def Line.restarted (x : Line) : Line :=
  { Line.reset with filterCount := x.filterCount, steady := x.steady, startSlot := x.startSlot, spliceSlot := x.spliceSlot }

/-- A position after RESTART: placement and run parameters are kept (R87). -/
def Position.restarted (x : Position) : Position :=
  { Position.reset with standNode := x.standNode, enabled := x.enabled, params := x.params }

/-- The part after RESTART: what R182's table lists as kept is kept, everything else takes its pin reset value. The conversion in
progress goes on and ends on its channel, as R135 states of every change of the dwell set, RESTART named among them. -/
def State.restarted (s : State) : State :=
  { State.reset with
    pending := s.pending
    link := s.link
    clock := s.clock
    nodes := s.nodes
    routes := s.routes
    rest := ⟨s.rest.minutes, none⟩
    bays := s.bays.mapEntries fun _ b => { b with stack := [], inbound := 0 }
    vlink := { s.vlink with rx := Receiver.hunt, queue := resetFrames, waiting := [] }
    vconfig := s.vconfig
    sampler := ⟨0, s.sampler.converting⟩
    positions := s.positions.mapEntries fun _ x => x.restarted
    lines := s.lines.mapEntries fun _ x => x.restarted
    slots := s.slots
    notices := { s.notices with queue := [], overflow := false, sequence := 0 } }

/-- The part after pin reset. The commands that wait outside it are not the part's, and a frame whose transmission has begun
is completed across the reset (R190; log 8, log 26); a conversion in progress is dropped (log 25). -/
def State.pinReset (rate : LinkRate) (s : State) : State :=
  let z := State.resetAt rate
  { z with
    pending := s.pending
    link := { z.link with tx := s.link.tx }
    vlink := { z.vlink with tx := s.vlink.tx } }

end Sys2Proof.Machine
end

