-- ==== Sys2Proof/Machine/Notices.lean ====
section
/-!
DEFINITION. Raising a notice (chapter 11): the source's handling, the Notice Queue's order and its overflow.
-/

namespace Sys2Proof.Machine

/-- The source number, which is also the rank (R183). -/
def Subjects.source : Subjects → Nat
  | .estop .. => 1
  | .spliceMissed .. => 2
  | .spliceFailed .. => 3
  | .vehicleLost .. => 4
  | .vehicleFault .. => 5
  | .urgent .. => 6
  | .callOff .. => 7
  | .noStock .. => 8
  | .butt .. => 9
  | .orderHeld .. => 10
  | .orderSuspended .. => 11
  | .spliceDone .. => 12
  | .orderDone .. => 13
  | .diameter .. => 14
  | .target .. => 15

/-- The handling of source `k` as it stands (R184). -/
def State.handling (s : State) (k : Nat) : Handling := (s.notices.handling.find k).getD ⟨.report, 0⟩

/-- The AUTO reaction is performed in AUTO and BOTH (R184). -/
def NoticeMode.reacts (m : NoticeMode) : Bool := m = .auto || m = .both

/-- A notice is made in REPORT and BOTH (R184). -/
def NoticeMode.reports (m : NoticeMode) : Bool := m = .report || m = .both

/-- The source's AUTO reaction is to be performed. -/
def State.reacts (s : State) (k : Nat) : Bool := (s.handling k).mode.reacts

/-- Queue order (R186): by level, then rank, then sequence. -/
def Notice.before (m n : Notice) : Bool :=
  if m.level ≠ n.level then m.level < n.level
  else if m.subjects.source ≠ n.subjects.source then m.subjects.source < n.subjects.source
  else m.sequence < n.sequence

/-- A notice inserted at its place (R186). -/
def insertNotice (n : Notice) : List Notice → List Notice
  | [] => [n]
  | m :: ms => if n.before m then n :: m :: ms else m :: insertNotice n ms

/-- The worst level of a queue: the highest level number it holds (R187). -/
def worstLevel (q : List Notice) : Nat := q.foldl (fun w n => max w n.level) 0

/-- The highest sequence among the notices of level `w` (R187). -/
def youngestOf (w : Nat) (q : List Notice) : Nat :=
  q.foldl (fun y n => if n.level = w then max y n.sequence else y) 0

/-- The queue without the notice of level `w` and sequence `y`. -/
def dropNotice (w y : Nat) : List Notice → List Notice
  | [] => []
  | n :: ns => if n.level = w ∧ n.sequence = y then ns else n :: dropNotice w y ns

/-- A notice offered to the queue: inserted while it holds fewer than 32, else the overflow of R187. -/
def Notices.offer (q : Notices) (n : Notice) : Notices :=
  if q.queue.length < 32 then { q with queue := insertNotice n q.queue }
  else if n.level < worstLevel q.queue then
    let w := worstLevel q.queue
    { q with queue := insertNotice n (dropNotice w (youngestOf w q.queue) q.queue), overflow := true }
  else { q with overflow := true }

/-- A source raised: its notice is made in REPORT and BOTH, with the level, the hall time and the next sequence (R184, R185). -/
def State.raise (s : State) (b : Subjects) : State :=
  let h := s.handling b.source
  if h.mode.reports then
    let n : Notice := ⟨h.level, s.clock.seconds, s.notices.sequence + 1, b⟩
    { s with notices := { s.notices with sequence := s.notices.sequence + 1 }.offer n }
  else s

end Sys2Proof.Machine
end

