-- ==== Sys2Proof/Machine/Store.lean ====
section
/-!
DEFINITION. The store's shared operations (chapters 1 and 2): the rest watch, room, the automatic bay choice, eligibility and
selection, reservations, the Demand Queue's entries, and reels entering and leaving bays.
-/

namespace Sys2Proof.Machine

/-! ### Conditioning rest -/

/-- Rest-until of a record made with this arrival time and grade (R12). -/
def State.restUntilFor (s : State) (arrival grade : Nat) : Nat := satAdd arrival (60 * s.restMinutes grade)

/-- The reel is rested: the hall clock is at or past its rest-until (R12). -/
def State.rested (s : State) (x : Reel) : Bool := decide (x.restUntil ≤ s.clock.seconds)

/-- Rest remaining: rest-until less the hall clock, 0 when rested (R17). -/
def State.restRemaining (s : State) (x : Reel) : Nat := x.restUntil - s.clock.seconds

/-- The earlier of two optional times. -/
def earlier (a : Option Nat) (b : Nat) : Option Nat :=
  match a with
  | some x => some (min x b)
  | none => some b

/-- The earliest rest-until, among STORED reels, that is later than the hall clock (R13). -/
def State.watchValue (s : State) : Option Nat :=
  s.reels.entries.foldl
    (fun w e => if e.2.state = .stored ∧ s.clock.seconds < e.2.restUntil then earlier w e.2.restUntil else w) none

/-- The rest watch recomputed (R13). -/
def State.rewatch (s : State) : State := { s with rest := { s.rest with watch := s.watchValue } }

/-! ### Bays -/

/-- The top reel of a bay: the last of its stack. -/
def Bay.top (b : Bay) : Option Nat := b.stack.getLast?

/-- The bay is empty, or its top reel is STORED with no order tag (R23). -/
def State.topFree (s : State) (b : Bay) : Bool :=
  match b.top with
  | none => true
  | some r =>
    match s.reel r with
    | some x => x.state = .stored && x.tag = none
    | none => false

/-- A bay has room (R23). -/
def State.hasRoom (s : State) (b : Bay) : Bool := decide (b.stack.length + b.inbound < b.height) && s.topFree b

/-- Bay `n` is defined and has room. -/
def State.roomAt (s : State) (n : Nat) : Bool :=
  match s.bay n with
  | some b => s.hasRoom b
  | none => false

/-- The top reel of the bay has this grade and width class (R25, step 1). -/
def State.topMatches (s : State) (g w : Nat) (b : Bay) : Bool :=
  match b.top with
  | some r =>
    match s.reel r with
    | some x => x.grade = g && x.width = w
    | none => false
  | none => false

/-- The lowest-numbered bay of the table that satisfies `p`. -/
def firstBay (p : Nat → Bay → Bool) : List (Nat × Bay) → Option Nat
  | [] => none
  | e :: es => if p e.1 e.2 then some e.1 else firstBay p es

/-- The automatic bay choice for a grade and width class, with at most one bay excluded (R25). -/
def State.autoBay (s : State) (g w : Nat) (excluded : Option Nat) : Option Nat :=
  let open_ (n : Nat) (b : Bay) : Bool := s.hasRoom b && decide (some n ≠ excluded)
  match firstBay (fun n b => open_ n b && s.topMatches g w b) s.bays.entries with
  | some n => some n
  | none =>
    match firstBay (fun n b => open_ n b && (b.stack = [] && b.inbound = 0)) s.bays.entries with
    | some n => some n
    | none => firstBay open_ s.bays.entries

/-- The bay's pending inbound count raised by one (R23). -/
def State.promise (s : State) (b : Nat) : State := s.onBay b fun x => { x with inbound := x.inbound + 1 }

/-- The bay's pending inbound count lowered by one (R24). -/
def State.unpromise (s : State) (b : Nat) : State := s.onBay b fun x => { x with inbound := x.inbound - 1 }

/-- The bay and level of a reel that stands in a bay. -/
def Reel.place (x : Reel) : Option (Nat × Nat) :=
  match x.location with
  | .inBay b l => some (b, l)
  | _ => none

/-- The reels of a list take rising levels from `l` on in bay `b` (R9). -/
def relevel (b : Nat) : Nat → List Nat → State → State
  | _, [], s => s
  | l, r :: rs, s => relevel b (l + 1) rs (s.onReel r fun x => { x with location := .inBay b l })

/-- The reels of a stack below reel `r`, and those above it. -/
def reelsBelow (r : Nat) (stack : List Nat) : List Nat := stack.takeWhile fun q => decide (q ≠ r)

def reelsAbove (r : Nat) (stack : List Nat) : List Nat :=
  (stack.dropWhile fun q => decide (q ≠ r)).filter fun q => decide (q ≠ r)

/-- Reel `r` leaves bay `b` at whatever level it stands: the reels above it move down one level, those below keep theirs
(R4, R9, R21). -/
def State.leaveBay (s : State) (b r : Nat) : State :=
  match s.bay b with
  | some x =>
    relevel b ((reelsBelow r x.stack).length + 1) (reelsAbove r x.stack)
      (s.setBay b { x with stack := x.stack.filter fun q => decide (q ≠ r) })
  | none => s

/-- Reel `r` pushed on top of bay `b`; its record becomes STORED at the new stack length, reservation and tag absent
(R5, R22). -/
def State.pushBay (s : State) (b r : Nat) : State :=
  match s.bay b with
  | some x =>
    let s := s.setBay b { x with stack := x.stack ++ [r] }
    s.onReel r fun y =>
      { y with state := .stored, location := .inBay b (x.stack.length + 1), reservation := none, tag := none }
  | none => s

/-! ### Eligibility, selection, reservation -/

/-- The reel on top of this bay is eligible for a demand of grade `g` and width class `w` (R26). -/
def State.eligibleTop (s : State) (g w : Nat) (b : Bay) : Option (Nat × Reel) :=
  match b.top with
  | none => none
  | some r =>
    match s.reel r with
    | none => none
    | some x =>
      if x.state = .stored && x.grade = g && x.width = w && x.tag = none && s.rested x && b.inbound = 0
      then some (r, x) else none

/-- Reel `r` passes every test of R26 for its own grade and width class. -/
def State.eligibleSelf (s : State) (r : Nat) : Bool :=
  match s.reel r with
  | none => false
  | some x =>
    match x.place with
    | none => false
    | some (b, _) =>
      match s.bay b with
      | none => false
      | some y =>
        match s.eligibleTop x.grade x.width y with
        | some e => e.1 = r
        | none => false

/-- The best of the eligible top reels: the earliest arrival, then the lower-numbered bay (R27). -/
def State.bestOf (s : State) (g w : Nat) : List (Nat × Bay) → Option (Nat × Nat) → Option (Nat × Nat)
  | [], best => best
  | e :: es, best =>
    match s.eligibleTop g w e.2 with
    | none => s.bestOf g w es best
    | some (r, x) =>
      match best with
      | some (q, t) => s.bestOf g w es (if x.arrival < t then some (r, x.arrival) else some (q, t))
      | none => s.bestOf g w es (some (r, x.arrival))

/-- The selection rule (R27). -/
def State.select (s : State) (g w : Nat) : Option Nat := (s.bestOf g w s.bays.entries none).map (·.1)

/-- A STORED reel becomes RESERVED for a position (R28). -/
def State.reserve (s : State) (r p : Nat) : State :=
  (s.onReel r fun x => { x with state := .reserved, reservation := some p }).rewatch

/-- A reservation is released: the reel is STORED again, its reservation and order tag absent (R30). -/
def State.release (s : State) (r : Nat) : State :=
  (s.onReel r fun x => { x with state := .stored, reservation := none, tag := none }).rewatch

/-- The first reel of a list of records that satisfies `f`. -/
def firstReel (f : Reel → Bool) : List (Nat × Reel) → Option Nat
  | [] => none
  | e :: es => if f e.2 then some e.1 else firstReel f es

/-- The reel RESERVED for the position with no order tag (R29). -/
def State.openReservation (s : State) (p : Nat) : Option Nat :=
  firstReel (fun x => x.state = .reserved && x.reservation = some p && x.tag = none) s.reels.entries

/-- The reel whose reservation names the position (R28). -/
def State.reservedReel (s : State) (p : Nat) : Option Nat := firstReel (fun x => x.reservation = some p) s.reels.entries

/-- How many reservations stand without an order tag (R181). -/
def State.openReservations (s : State) : Nat :=
  (s.reels.entries.filter fun e => e.2.state = .reserved && e.2.tag = none).length

/-! ### The Demand Queue and the call-off -/

/-- The position's entry, if its demand waits (R31). -/
def State.demandEntry (s : State) (p : Nat) : Option DemandEntry := s.demands.find? fun e => e.position = p

/-- The place of the position's entry, 1 for the oldest, 0 when it has none (R31). -/
def placeIn (p : Nat) : Nat → List DemandEntry → Nat
  | _, [] => 0
  | n, e :: es => if e.position = p then n else placeIn p (n + 1) es

def State.queuePlace (s : State) (p : Nat) : Nat := placeIn p 1 s.demands

/-- The position's entry leaves; the others keep their order (R31). -/
def State.leaveQueue (s : State) (p : Nat) : State := { s with demands := s.demands.filter fun e => decide (e.position ≠ p) }

/-- The position's call-off state and reason. -/
def State.setCallOff (s : State) (p : Nat) (c : CallOffState) (full : Bool) : State :=
  s.onPos p fun x => { x with callOff := { x.callOff with state := c, ordersFull := full } }

/-- The urgency-reported flag cleared (R98). -/
def State.clearUrgency (s : State) (p : Nat) : State :=
  s.onPos p fun x => { x with callOff := { x.callOff with urgencyReported := false } }

/-- An entry joins the queue at its end; a position that has one gets no second (R31, R32). -/
def State.addDemand (s : State) (p : Nat) (d : Demand) : State :=
  if (s.demandEntry p).isSome then s
  else { s with demands := s.demands ++ [DemandEntry.mk p d.grade d.width s.clock.seconds] }

/-- The demand joins the queue, the call-off becomes WAIT_STOCK and NOSTOCK is raised (R32). -/
def State.joinQueue (s : State) (p : Nat) (d : Demand) : State :=
  ((s.addDemand p d).setCallOff p .waitStock false).raise (.noStock p d.grade d.width)

/-- A new reel record (R2, R12). -/
def State.newReel (s : State) (d : ReelData) (origin : Origin) (arrival : Nat) (state : ReelState) (loc : Location)
    (tag : Option Nat) : Reel where
  grade := d.grade
  width := d.width
  diameter := d.diameter
  caliper := d.caliper
  mass := d.mass
  arrival := arrival
  restUntil := s.restUntilFor arrival d.grade
  origin := origin
  state := state
  location := loc
  reservation := none
  tag := tag
  lastBay := none

end Sys2Proof.Machine
end

