-- ==== Sys2Proof/Machine/Orders.lean ====
section
/-!
DEFINITION. The Order List (sections 3.1, 3.5, 3.8): tags, creation of each kind of order, priority, the creation backlog, and
the Demand Queue's arbiter pass (R34), which creates DELIVERs.
-/

namespace Sys2Proof.Machine

/-- The legs of an order: 1 for PARK, 2 for every other kind (R40). -/
def Order.legs (o : Order) : Nat := if o.kind = .park then 1 else 2

/-- An order is loaded when its progress is 2 or more and its legs number 2 (R39). -/
def Order.loaded (o : Order) : Bool := decide (2 ≤ o.progress) && decide (o.kind ≠ .park)

/-- The tag after `t`, counting on from 65535 to 1 (R38). -/
def tagAfter (t : Nat) : Nat := if t < 65535 then t + 1 else 1

/-- The first tag after `t` that no order carries, within `n` more tries (R38). -/
def freeTag (used : Table Order) : Nat → Nat → Nat
  | 0, t => tagAfter t
  | n + 1, t => if used.has (tagAfter t) then freeTag used n (tagAfter t) else tagAfter t

/-- The tag the next order takes (R38). -/
def State.nextTag (s : State) : Nat := freeTag s.orders.table s.orderCount s.orders.lastTag

/-- What a new order is made of. -/
structure NewOrder where
  kind : OrderKind
  priority : Priority
  reel : Option Nat
  source : Place
  destination : Place
  position : Option Nat
  vehicle : Option Nat
  deriving DecidableEq, Repr

/-- The record of a new order: WAITING, progress 1, created now (R40). -/
def State.newOrder (s : State) (n : NewOrder) : Order where
  kind := n.kind
  converted := false
  priority := n.priority
  reel := n.reel
  source := n.source
  destination := n.destination
  targetArm := none
  progress := 1
  vehicle := n.vehicle
  state := .waiting
  reason := none
  created := s.clock.seconds
  position := n.position
  heldSince := none
  cancelPending := false
  sequence := s.orders.nextSequence
  legZones := []
  legPassed := 0
  holdReported := false
  goSent := false

/-- The bay an order drops into, if its destination is one (R40). -/
def Place.bay? : Place → Option Nat
  | .bay b _ => some b
  | _ => none

/-- An optional step. -/
def State.whenSome {α : Type} (s : State) (o : Option α) (f : State → α → State) : State :=
  match o with
  | some x => f s x
  | none => s

/-- An order made, with its effects on the store in the same event: the reel takes the tag, a bay destination its promise
(R40). The assignment arbiter runs when the event closes. -/
def State.createOrder (s : State) (n : NewOrder) : State :=
  let t := s.nextTag
  let o := s.newOrder n
  let s := { s with orders := { s.orders with
    table := s.orders.table.insert t o, lastTag := t, nextSequence := s.orders.nextSequence + 1 } }
  let s := s.whenSome n.reel fun s r => s.onReel r fun x => { x with tag := some t }
  s.whenSome n.destination.bay? fun s b => s.promise b

/-- The tag of the first order of a list that satisfies `f`. -/
def firstOrder (f : Order → Bool) : List (Nat × Order) → Option Nat
  | [] => none
  | e :: es => if f e.2 then some e.1 else firstOrder f es

/-- The position's outstanding DELIVER (R89: a converted order names no position). -/
def State.deliverOf (s : State) (p : Nat) : Option Nat :=
  firstOrder (fun o => o.kind = .deliver && o.position = some p) s.orders.table.entries

/-- The item is the delivery item of position `p`. -/
def BacklogItem.isDeliveryOf (p : Nat) : BacklogItem → Bool
  | .delivery q _ _ => q = p
  | .disposal .. => false

/-- The item is the disposal item of this arm of position `p`. -/
def BacklogItem.isDisposalOf (p : Nat) (a : Arm) : BacklogItem → Bool
  | .delivery .. => false
  | .disposal q b _ _ => q = p && b = a

/-- The item is a disposal item of position `p`. -/
def BacklogItem.disposesAt (p : Nat) : BacklogItem → Bool
  | .delivery .. => false
  | .disposal q _ _ _ => q = p

/-- What the backlog holds at most one item for: the DELIVER of a position, or the disposal of one of its arms (R49). -/
def BacklogItem.slot : BacklogItem → Nat × Option Arm
  | .delivery p _ _ => (p, none)
  | .disposal p a _ _ => (p, some a)

/-- The item has URGENT priority. -/
def BacklogItem.urgent : BacklogItem → Bool
  | .delivery _ _ r => r = .urgent
  | .disposal _ _ _ r => r = .urgent

def BacklogItem.raised : BacklogItem → BacklogItem
  | .delivery p r _ => .delivery p r .urgent
  | .disposal p a k _ => .disposal p a k .urgent

/-- The position's DELIVER, an order or an item of the backlog, is URGENT (R55). -/
def State.deliverUrgent (s : State) (p : Nat) : Bool :=
  (match (s.deliverOf p).bind s.order with
    | some o => decide (o.priority = .urgent)
    | none => false) ||
  s.orders.backlog.any fun i => i.isDeliveryOf p && i.urgent

/-- The order disposes of a butt that still lies on an arm of position `p` (R55). -/
def Order.disposesAt (o : Order) (p : Nat) : Bool :=
  (o.kind = .ret || o.kind = .clear) && o.position = some p && o.progress = 1

/-- The orders and backlog items that dispose of a butt on the position's arms become URGENT (R55). -/
def State.raiseDisposals (s : State) (p : Nat) : State :=
  { s with orders := { s.orders with
    table := s.orders.table.mapEntries fun _ o => if o.disposesAt p then { o with priority := .urgent } else o
    backlog := s.orders.backlog.map fun i => if i.disposesAt p then i.raised else i } }

/-- The URGENT reaction: the position's DELIVER, or its backlog item, and the orders and items in its way become URGENT
(R55, R101). -/
def State.raiseUrgency (s : State) (p : Nat) : State :=
  let s := s.whenSome (s.deliverOf p) fun s t => s.onOrder t fun o => { o with priority := .urgent }
  let s := s.setBacklog (s.orders.backlog.map fun i => if i.isDeliveryOf p then i.raised else i)
  s.raiseDisposals p

/-- The later of two priorities. -/
def Priority.join : Priority → Priority → Priority
  | .normal, q => q
  | .urgent, _ => .urgent

/-- The priority R55 gives to a butt order of the position made now with `q`. -/
def State.buttPriority (s : State) (p : Nat) (q : Priority) : Priority := if s.deliverUrgent p then .urgent else q

/-- The place of a reel in its bay, as an order's source. -/
def State.bayPlace (s : State) (r : Nat) : Place :=
  match (s.reel r).bind Reel.place with
  | some (b, l) => .bay b l
  | none => .absent

/-- A DELIVER made for the position's reserved reel: it leaves the Demand Queue, its call-off is ORDERED (R35, R40, R99), and
a DELIVER made URGENT raises the butt orders in its way (R55). -/
def State.makeDeliver (s : State) (p r : Nat) (q : Priority) : State :=
  let s := s.createOrder ⟨.deliver, q, some r, s.bayPlace r, .arm p none, some p, none⟩
  let s := (s.leaveQueue p).setCallOff p .ordered false
  if q = .urgent then s.raiseDisposals p else s

/-- The lowest-numbered node of a kind (R40, R102). -/
def firstNode (k : NodeKind) : List (Nat × Node) → Option Nat
  | [] => none
  | e :: es => if e.2.kind = k then some e.1 else firstNode k es

def State.nodeOfKind (s : State) (k : NodeKind) : Option Nat := firstNode k s.nodes.entries

/-- A RETURN made for the butt on an arm (R40, R58, R102); its arm's disposal reads ORDERED. -/
def State.makeReturn (s : State) (p : Nat) (a : Arm) (r b : Nat) (q : Priority) : State :=
  let s := s.createOrder ⟨.ret, s.buttPriority p q, some r, .arm p (some a), .bay b 0, some p, none⟩
  s.onPos p fun x => x.setDisposal a (some .ordered)

/-- A CLEAR made for the butt on an arm (R40, R58, R102); its arm's disposal reads ORDERED. -/
def State.makeClear (s : State) (p : Nat) (a : Arm) (r n : Nat) (q : Priority) : State :=
  let s := s.createOrder ⟨.clear, s.buttPriority p q, some r, .arm p (some a), .node n, some p, none⟩
  s.onPos p fun x => x.setDisposal a (some .ordered)

/-- The order a disposal asks for, made with a free entry in the list: a RETURN by the automatic bay choice, which may find no
bay (NO_BAY), or a CLEAR to the lowest-numbered WASTE node (R49, R102). -/
def State.makeDisposal (s : State) (p : Nat) (a : Arm) (k : DisposalKind) (q : Priority) : State :=
  match (s.pos p).arm a with
  | none => s
  | some r =>
    match s.reel r, k with
    | none, _ => s
    | some x, .ret =>
      match s.autoBay x.grade x.width none with
      | some b => s.makeReturn p a r b q
      | none => s.onPos p fun y => y.setDisposal a (some .noBay)
    | some _, .clear =>
      match s.nodeOfKind .waste with
      | some n => s.makeClear p a r n q
      | none => s.onPos p fun y => y.setDisposal a (some .manual)

/-- One item of the backlog made into its order (R49). -/
def State.makeItem (s : State) : BacklogItem → State
  | .delivery p r q => s.makeDeliver p r q
  | .disposal p a k q => s.makeDisposal p a k q

/-- The backlog items, oldest first, made into orders while the list has a free entry, at most `n` of them; a RETURN whose
bay choice fails leaves without an order and the entry goes to the next item (R49). -/
def fillUpTo : Nat → State → State
  | 0, s => s
  | n + 1, s =>
    match s.orders.backlog with
    | [] => s
    | i :: is => if s.ordersFull then s else fillUpTo n ((s.setBacklog is).makeItem i)

/-- The freed entry offered to the creation backlog (R49). -/
def State.fillBacklog (s : State) : State := fillUpTo s.orders.backlog.length s

/-- The delivery item of the position leaves the backlog (R49). -/
def State.dropDelivery (s : State) (p : Nat) : State :=
  s.setBacklog (s.orders.backlog.filter fun i => !(i.isDeliveryOf p))

/-- The disposal item of the arm leaves the backlog (R49). -/
def State.dropDisposal (s : State) (p : Nat) (a : Arm) : State :=
  s.setBacklog (s.orders.backlog.filter fun i => !(i.isDisposalOf p a))

/-- An item joins the backlog at its end: one DELIVER for each position and one disposal for each arm (R49), so that a second one of a
kind is not added (log 39). -/
def State.joinBacklog (s : State) (i : BacklogItem) : State :=
  if s.orders.backlog.any (fun j => j.slot = i.slot) then s else s.setBacklog (s.orders.backlog ++ [i])

/-- The DELIVER of a position that has just reserved reel `r`, or its backlog item when the list is full
(R29, R34, R49, R99). -/
def State.deliverOrBacklog (s : State) (p r : Nat) : State :=
  if s.ordersFull then
    (s.joinBacklog (.delivery p r .normal)).setCallOff p .waitStock true
  else s.makeDeliver p r .normal

/-- One waiting demand of an arbiter pass (R34). -/
def State.serveDemand (s : State) (e : DemandEntry) : State :=
  match s.select e.grade e.width with
  | none => s
  | some r =>
    let s := (s.reserve r e.position).leaveQueue e.position
    if s.reacts 7 then s.deliverOrBacklog e.position r else s.setCallOff e.position .raised false

/-- The arbiter pass over the waiting demands, oldest first (R34). -/
def State.arbiterPass (s : State) : State := s.demands.foldl State.serveDemand s

/-- The call-off withdrawn: the queue entry leaves, a reservation without an order tag is released with its backlog item, and
the call-off returns to NONE (R35, R100). -/
def State.withdrawCallOff (s : State) (p : Nat) : State :=
  let s := s.leaveQueue p
  let s := s.whenSome (s.openReservation p) fun s r => (s.release r).dropDelivery p
  s.setCallOff p .none false

end Sys2Proof.Machine
end

