-- ==== Sys2Proof/Machine/Envelopes.lean ====
section
/-!
DEFINITION. Acceptance envelopes (chapter 8): boundaries, levels, thresholds, signature, and how a web's envelope opens, advances
and ends.
-/

namespace Sys2Proof.Machine

/-- The copies of a duration code (R142). -/
def durationOf : Nat → Nat
  | 0 => 10
  | 1 => 20
  | 2 => 30
  | 3 => 40
  | 4 => 50
  | 5 => 75
  | 6 => 100
  | 7 => 150
  | 8 => 200
  | 9 => 300
  | 10 => 400
  | 11 => 500
  | 12 => 750
  | 13 => 1000
  | 14 => 1500
  | 15 => 2000
  | _ => 0

/-- The boundaries that follow `b` in a list of codes (R142). -/
def boundariesFrom : Nat → List Nat → List Nat
  | _, [] => []
  | b, c :: cs => (b + durationOf c) :: boundariesFrom (b + durationOf c) cs

/-- b1 to b12 (R142). -/
def Envelope.boundaries (e : Envelope) : List Nat := boundariesFrom 0 e.codes

/-- The length b12 (R142). -/
def Envelope.length (e : Envelope) : Nat := (e.codes.map durationOf).sum

/-- A segment: its number from 1, the index it starts at, and its copies. -/
structure Segment where
  number : Nat
  start : Nat
  duration : Nat
  deriving DecidableEq, Repr

/-- The segment that covers index `n`, among the codes from segment `k` on, which starts at `b` (R142). -/
def segmentAt (n : Nat) : Nat → Nat → List Nat → Option Segment
  | _, _, [] => none
  | k, b, c :: cs => if n < b + durationOf c then some ⟨k, b, durationOf c⟩ else segmentAt n (k + 1) (b + durationOf c) cs

/-- The segment of a slot that covers index `n`. -/
def Envelope.segment (e : Envelope) (n : Nat) : Option Segment := segmentAt n 1 0 e.codes

/-- L_k (R141). -/
def Envelope.levelNumber (e : Envelope) (k : Nat) : Nat := e.levels.getD (k - 1) 0

/-- The level at index `n` of a segment, the quotient truncated toward zero (R143). -/
def Envelope.levelIn (e : Envelope) (g : Segment) (n : Nat) : Int :=
  if g.number = 1 then e.levelNumber 1
  else
    (e.levelNumber (g.number - 1) : Int) +
      Int.tdiv (((e.levelNumber g.number : Int) - e.levelNumber (g.number - 1)) * ((n : Int) - g.start)) g.duration

/-- The threshold of a level: the offset added, clamped to 0..31 (R143). -/
def Envelope.thresholdOf (e : Envelope) (level : Int) : Nat := (max 0 (min 31 (level + e.offset))).toNat

/-- The threshold of a slot at index `n` below its length; 0 elsewhere, which no web meets (R143; log 31). -/
def Envelope.thresholdAt (e : Envelope) (n : Nat) : Nat :=
  match e.segment n with
  | some g => e.thresholdOf (e.levelIn g n)
  | none => 0

/-- The weighted sum of content bytes from weight `i` on (R144). -/
def weighted : Nat → List Nat → Nat
  | _, [] => 0
  | i, b :: bs => i * b + weighted (i + 1) bs

/-- The signature of a FULL slot (R144). -/
def Envelope.signature (e : Envelope) : Nat := weighted 1 (e.codes ++ e.levels ++ [(e.offset + 8).toNat]) % 65521

/-- The content of slot `k`, when it is FULL (R141). -/
def State.slot (s : State) (k : Nat) : Option Envelope := s.slots.find k

/-- The signature as reported: 0 for an EMPTY slot (R141). -/
def State.signatureOf (s : State) (k : Nat) : Nat := ((s.slot k).map Envelope.signature).getD 0

/-! ### The envelope state of a web -/

/-- The running webs of a line, ascending. -/
def State.runningWebs (s : State) (l : Nat) : List Nat := (positionsOfLine l).filter fun w => (s.pos w).isWeb

/-- The threshold a web of line `l` is tested against (R143, R150). -/
def State.threshold (s : State) (l w : Nat) : Nat :=
  let x := s.web w
  match x.kind with
  | .start | .splice =>
    match x.slot.bind s.slot with
    | some e => e.thresholdAt x.index
    | none => 0
  | _ => (s.line l).steady

/-- The web's envelope replaced: an envelope of kind `k` from the selected slot, or STEADY for selection 0 (R147, R148). -/
def Web.opened (x : Web) (k : EnvelopeKind) (slot : Nat) (link : Option Nat) : Web :=
  if slot = 0 then { x with kind := .steady, index := 0, slot := none, link := none }
  else { x with kind := k, index := 0, slot := some slot, link := link }

/-- START opens on every running web of the line (R147). -/
def State.openStart (s : State) (l : Nat) : State :=
  forEach (s.runningWebs l) (fun w s => s.onWeb w fun x => x.opened .start (s.line l).startSlot none) s

/-- SPLICE opens on the web of a position, with the link its splice has taken (R148). -/
def State.openSplice (s : State) (w : Nat) (link : Option Nat) : State :=
  s.onWeb w fun x => x.opened .splice (s.line (lineOfPosition w)).spliceSlot link

/-- The web's index advanced by one copy, with the end of its envelope (R149). -/
def State.advanceWeb (s : State) (w : Nat) : State :=
  let x := s.web w
  match x.kind with
  | .start | .splice =>
    if (x.slot.bind s.slot).map Envelope.length = some (x.index + 1) then
      s.setWeb w { x with kind := .steady, index := 0, slot := none, link := none }
    else s.setWeb w { x with index := x.index + 1 }
  | _ => s

end Sys2Proof.Machine
end

