-- ==== Sys2Proof/Machine/Runs.lean ====
section
/-!
DEFINITION. The Run Account (chapter 9): a classified copy, the charge of a splice record, the target, splice records with the
aggregate record, and butt paper.
-/

namespace Sys2Proof.Machine

/-- The classification of a counted copy (R137); SPLICE names the record charged. -/
inductive CopyClass where
  | good
  | start
  | splice (record : Nat)
  | tension
  | divert
  deriving DecidableEq, Repr

/-- The record of this number takes one more charged copy (R157). -/
def chargeRecord : Nat → List SpliceRecord → List SpliceRecord
  | _, [] => []
  | 0, rs => rs
  | 1, r :: rs => { r with charged := satAdd r.charged 1 } :: rs
  | n + 2, r :: rs => r :: chargeRecord (n + 1) rs

/-- The class counter raised, and for SPLICE the record charged (R156, R157). -/
def Run.classed (x : Run) : CopyClass → Run
  | .good => { x with good := satAdd x.good 1 }
  | .start => { x with wasteStart := satAdd x.wasteStart 1 }
  | .splice r => { x with wasteSplice := satAdd x.wasteSplice 1, splices := chargeRecord r x.splices }
  | .tension => { x with wasteTension := satAdd x.wasteTension 1 }
  | .divert => { x with wasteDivert := satAdd x.wasteDivert 1 }

/-- A classification brings good up to the target (R158). -/
def Run.reaches (x : Run) (c : CopyClass) : Bool :=
  c = .good && decide (x.gross ≠ counterMax) && decide (x.target ≠ 0) && decide (x.good + 1 = x.target) && x.reached = none

/-- A counted copy taken by the account: no counter changes once gross stands at its limit (R156, R158). -/
def Run.take (x : Run) (c : CopyClass) (now : Nat) : Run :=
  if x.gross = counterMax then { x with frozen := true }
  else
    let y := { x.classed c with gross := x.gross + 1 }
    if x.reaches c then { y with reached := some ⟨now, x.gross + 1⟩ } else y

/-- The line's run changed. -/
def State.onRun (s : State) (l : Nat) (f : Run → Run) : State := s.onLine l fun x => { x with run := f x.run }

/-- A classified copy reaches the account of its line, and TARGET is raised when it is reached (R156, R158). -/
def State.account (s : State) (l : Nat) (c : CopyClass) : State :=
  let x := (s.line l).run
  let s := s.onRun l fun x => x.take c s.clock.seconds
  if x.reaches c then s.raise (.target l x.number x.target (x.good + 1) (x.gross + 1)) else s

/-- The splice placed in record 64 (R161). -/
def aggregate (z : SpliceRecord) : List SpliceRecord → List SpliceRecord
  | [] => []
  | [r] => [{ r with splices := satAdd r.splices 1, time := z.time, gross := z.gross, settledBy := z.settledBy }]
  | r :: rs => r :: aggregate z rs

/-- A splice taken by an ACTIVE run: its record, the making of record 64, or its place in record 64 (R160, R161). -/
def Run.withSplice (x : Run) (z : SpliceRecord) : Run :=
  if x.splices.length < 63 then { x with splices := x.splices ++ [z] }
  else if x.splices.length = 63 then
    { x with splices := x.splices ++ [{ z with position := 0, oldReel := 0, newReel := 0 }] }
  else { x with splices := aggregate z x.splices }

/-- The number of the record a splice taken now goes to (R160, R161). -/
def Run.nextRecord (x : Run) : Nat := min (x.splices.length + 1) 64

/-- A splice reaches the account of the position's line and the Copy Counter opens SPLICE on its web (R120, R138, R148, R160). -/
def State.spliceCounted (s : State) (p old new : Nat) (by_ : SettledBy) : State :=
  let l := lineOfPosition p
  let x := (s.line l).run
  if x.state = .active then
    (s.onRun l fun x => x.withSplice ⟨p, old, new, s.clock.seconds, x.gross, 0, by_, 1⟩).openSplice p (some x.nextRecord)
  else s.openSplice p none

/-- Butt paper tallied into the line's run while it is ACTIVE (R103, R159). -/
def State.tallyPaper (s : State) (l paper : Nat) : State :=
  if (s.line l).run.state = .active then s.onRun l fun x => { x with buttPaper := satAdd x.buttPaper paper } else s

/-- The record of a run opened (R162). -/
def Run.opened (number target now : Nat) : Run :=
  { Run.reset with number := number, state := .active, target := target, startTime := some now }

/-- The record of a run closed (R163). -/
def Run.closed (x : Run) (now : Nat) : Run := { x with state := .ended, endTime := some now }

end Sys2Proof.Machine
end

