-- ==== Sys2Proof/Machine/Gauge.lean ====
section
/-!
DEFINITION. The web gauge (section 5.3), the call-off and urgency tests (section 5.4) and the making of a butt (section 5.5).
-/

namespace Sys2Proof.Machine

/-! ### Diameter and remaining length -/

/-- The length of paper between diameters `d` and `base` at caliper `t` (R96, R103). -/
def paperLength (d base t : Nat) : Nat := if d ≤ base then 0 else (d * d - base * base) * 7854 / (10 * t)

/-- The estimate clamped to 16 x Dc to 24000 (R92, R94). -/
def Position.clampEstimate (x : Position) (e : Nat) : Nat := clampTo (16 * x.params.coreDiameter) 24000 e

/-- An estimate taken with its clamp and flag C (R92, R94). -/
def Position.setEstimate (x : Position) (e : Nat) : Position :=
  { x with gauge := { x.gauge with
      estimate := some (x.clampEstimate e), flagC := decide (x.clampEstimate e ≠ e) } }

/-- L_rem computed from the reported diameter (R96). -/
def Position.recompute (x : Position) : Position :=
  { x with gauge := { x.gauge with
      remaining := paperLength x.gauge.diameter x.params.spliceDiameter x.gauge.caliper } }

/-- A measurement start for a reel of this record diameter and caliper (R92); the missed mark is cleared (R122). -/
def Position.measureStart (x : Position) (diameter caliper : Nat) : Position :=
  let x := { x with
    gauge := { x.gauge with
      rejections := 0, flagH := false, flagS := false, flagZ := false, markPending := true, deltaL := 0, caliper := caliper }
    splice := { x.splice with missed := false } }
  (x.setEstimate (16 * diameter)).recompute

/-- The measurement of a delta-L count, in sixteenths of a millimetre (R94). -/
def measured (deltaL : Nat) : Nat := (deltaL * 160000 + 15708) / 31416

/-- What a diameter sample does with the estimate (R94). -/
inductive SampleCase where
  | reject
  | confirm
  | update (estimate : Nat)
  deriving DecidableEq, Repr

/-- The first case of R94 that applies. -/
def judgeSample (estimate meas : Nat) : SampleCase :=
  if estimate + 32 < meas then .reject
  else if estimate < meas then .confirm
  else if estimate < (estimate - meas) * 8 then .reject
  else .update (estimate - (estimate - meas) / 4)

/-- An accepted sample's marks: rejection count 0, flag H clear (R94). -/
def Position.accepted (x : Position) : Position := { x with gauge := { x.gauge with rejections := 0, flagH := false } }

/-- A reseed (R95). -/
def Position.reseeded (x : Position) (meas : Nat) : Position :=
  let x := { x with gauge := { x.gauge with rejections := 0, flagH := false, flagS := true } }
  (x.setEstimate meas).recompute

/-- A diameter sample taken by the gauge (R94, R95). -/
def Position.sample (x : Position) (estimate meas : Nat) : Position :=
  match judgeSample estimate meas with
  | .reject =>
    if x.gauge.rejections + 1 < 4 then
      { x with gauge := { x.gauge with flagH := true, rejections := x.gauge.rejections + 1 } }
    else x.reseeded meas
  | .confirm => x.accepted
  | .update e => (x.accepted.setEstimate e).recompute

/-- The sample reseeds the estimate (R95). -/
def Position.reseeds (x : Position) (estimate meas : Nat) : Bool :=
  judgeSample estimate meas = .reject && decide (4 ≤ x.gauge.rejections + 1)

/-- The running reel of a position, 0 when none runs. -/
def Position.runningReel (x : Position) : Nat := ((x.running.bind x.arm)).getD 0

/-- The reel on the standby arm of a position, 0 when it is empty. -/
def Position.standbyReel (x : Position) : Nat := (x.arm x.standbyArm).getD 0

/-- An accepted revolution mark's own changes (R93, R94, R95). -/
def State.markTaken (s : State) (p : Nat) : State :=
  let x := s.pos p
  match x.isWeb, x.gauge.estimate with
  | true, some e =>
    if x.gauge.markPending then
      s.setPos p { x with gauge := { x.gauge with markPending := false, deltaL := 0 } }
    else
      let meas := measured x.gauge.deltaL
      let y := x.sample e meas
      let s := s.setPos p { y with gauge := { y.gauge with deltaL := 0 } }
      if x.reseeds e meas then s.raise (.diameter p x.runningReel x.gauge.diameter y.gauge.diameter) else s
  | _, _ => s

/-- The gauge's NO_WEB readings, the speeds still measured (R91). -/
def Gauge.noWeb (g : Gauge) : Gauge :=
  { Gauge.reset with speed := g.speed, standbySpeed := g.standbySpeed, windowCounts := g.windowCounts }

/-- T_s and flag Z at a speed window of a WEB position (R97). -/
def Gauge.timed (g : Gauge) : Gauge :=
  if g.speed < 100 then { g with timeToSplice := 65535, flagZ := true }
  else { g with timeToSplice := min 65535 (g.remaining / g.speed), flagZ := false }

/-- The two speeds at the close of a window, and T_s in WEB (R91, R97). -/
def Position.window (x : Position) (standbyCounts : Nat) : Position :=
  let g := { x.gauge with speed := 10 * x.gauge.windowCounts, standbySpeed := 10 * standbyCounts, windowCounts := 0 }
  { x with gauge := if x.isWeb then g.timed else g }

/-! ### Call-off and urgency -/

/-- The standby arm is empty, or holds a butt whose disposal is ORDERED or BACKLOG (R98). -/
def State.standbyClear (s : State) (p : Nat) : Bool :=
  let x := s.pos p
  let a := x.standbyArm
  x.arm a = none ||
    (s.armState p a = some .butt && (x.disposal a = some .ordered || x.disposal a = some .backlog))

/-- The conditions of a call-off but the demand, which is returned (R98). -/
def State.callOffDue (s : State) (p : Nat) : Bool :=
  let x := s.pos p
  x.isWeb && s.standbyClear p && (s.deliverOf p).isNone && x.callOff.state = .none &&
    (decide (x.gauge.timeToSplice ≤ x.params.leadTime) || decide (x.gauge.remaining ≤ x.params.callOffLength))

/-- The CALLOFF reaction: selection, then a DELIVER, a backlog item or a place in the Demand Queue (R99). -/
def State.answerCallOff (s : State) (p : Nat) (d : Demand) : State :=
  match s.select d.grade d.width with
  | some r => (s.reserve r p).deliverOrBacklog p r
  | none => s.joinQueue p d

/-- A call-off raised and passed to the CALLOFF source (R98, R99). -/
def State.raiseCallOff (s : State) (p : Nat) (d : Demand) : State :=
  let s := s.clearUrgency p
  let s := if s.reacts 7 then s.answerCallOff p d else s.setCallOff p .raised false
  let x := s.pos p
  s.raise (.callOff p d.grade d.width x.gauge.remaining x.gauge.timeToSplice x.callOff.state x.callOff.ordersFull
    ((s.deliverOf p).getD 0))

/-- The call-off test of a window (R98). -/
def State.testCallOff (s : State) (p : Nat) : State :=
  match (s.pos p).demand with
  | some d => if s.callOffDue p then s.raiseCallOff p d else s
  | none => s

/-- The conditions of urgency (R101). -/
def State.urgencyDue (s : State) (p : Nat) : Bool :=
  let x := s.pos p
  x.isWeb && decide (x.gauge.timeToSplice ≤ x.params.urgentMargin) && !x.callOff.urgencyReported &&
    ((s.deliverOf p).isSome || s.orders.backlog.any fun i => i.isDeliveryOf p)

/-- The urgency test of a window (R101). DESIGN CHOICE: it is made by R101's conditions alone in every sequence state, FAILED among them,
where R121 says that the tests find no cause to act (log 44, unsafe). -/
def State.testUrgency (s : State) (p : Nat) : State :=
  if s.urgencyDue p then
    let s := s.onPos p fun x => { x with callOff := { x.callOff with urgencyReported := true } }
    let s := if s.reacts 6 then s.raiseUrgency p else s
    s.raise (.urgent p (s.pos p).gauge.timeToSplice ((s.deliverOf p).getD 0))
  else s

/-! ### Butts -/

/-- The butt paper of a butt of diameter `d`: 0 at or above the return diameter (R103). -/
def Position.buttPaper (x : Position) (d caliper : Nat) : Nat :=
  if d < x.params.returnDiameter then paperLength d x.params.coreDiameter caliper else 0

/-- The BUTT reaction: an order, a backlog item, or NO_BAY (R102). -/
def State.answerButt (s : State) (p : Nat) (a : Arm) (d : Nat) : State :=
  let k : DisposalKind := if (s.pos p).params.returnDiameter ≤ d then .ret else .clear
  if s.ordersFull then
    (s.joinBacklog (.disposal p a k (s.buttPriority p .normal))).onPos p fun x => x.setDisposal a (some .backlog)
  else s.makeDisposal p a k .normal

/-- The order tag a BUTT notice names: the reel's for ORDERED, else 0 (R102, R185). -/
def State.buttTag (s : State) (r : Nat) (status : Disposal) : Nat :=
  if status = .ordered then ((s.reel r).bind (·.tag)).getD 0 else 0

/-- The reel on an arm becomes BUTT at the reported diameter `d`: its record, its paper, the BUTT source (R7, R102, R103). -/
def State.makeButt (s : State) (p : Nat) (a : Arm) (d : Nat) : State :=
  let x := s.pos p
  match x.arm a with
  | none => s
  | some r =>
    let paper := x.buttPaper d (((s.reel r).map (·.caliper)).getD 0)
    let s := s.onReel r fun y => { y with state := .butt, diameter := d, origin := .returned }
    let s := s.tallyPaper (lineOfPosition p) paper
    let s := if s.reacts 9 then s.answerButt p a d else s.onPos p fun y => y.setDisposal a (some .manual)
    let status := ((s.pos p).disposal a).getD .manual
    s.raise (.butt p a r d paper status (s.buttTag r status))

end Sys2Proof.Machine
end

