-- ==== Sys2Proof/Machine/Legs.lean ====
section
/-!
DEFINITION. The outbound queue of the vehicle link (R80), zone locks and leg requests (R42, R47, R76), the grant pass (R77), the
assignment arbiter (R44, R45), and the close of an event, which runs the passes that the event calls for.
-/

namespace Sys2Proof.Machine

/-! ### The outbound queue and the waiting line (R80) -/

/-- The vehicle a frame is for; 0 is all. -/
def VehicleFrame.vehicle : VehicleFrame → Nat
  | .go v .. => v
  | .halt v => v
  | .resume v => v
  | .abandon v .. => v

def VehicleFrame.isGo : VehicleFrame → Bool
  | .go .. => true
  | _ => false

def VehicleFrame.isHalt : VehicleFrame → Bool
  | .halt _ => true
  | _ => false

def VehicleFrame.isResume : VehicleFrame → Bool
  | .resume _ => true
  | _ => false

/-- The kind of a frame (12.3) and its vehicle: of each a vehicle has at most one queued or waiting (R80). -/
def VehicleFrame.slot : VehicleFrame → Nat × Nat
  | .go v .. => (1, v)
  | .halt v => (2, v)
  | .resume v => (3, v)
  | .abandon v .. => (4, v)

/-- The oldest waiting frames join the queue while it has fewer than 16 (R80). -/
def refillFrom : List VehicleFrame → List VehicleFrame → List VehicleFrame × List VehicleFrame
  | q, [] => (q, [])
  | q, f :: fs => if q.length < 16 then refillFrom (q ++ [f]) fs else (q, f :: fs)

/-- The queue and waiting line set to these, the waiting frames moved up (R80). -/
def State.setFrames (s : State) (q w : List VehicleFrame) : State :=
  { s with vlink := { s.vlink with queue := (refillFrom q w).1, waiting := (refillFrom q w).2 } }

/-- A GO, RESUME or ABANDON joins at the tail, or joins the waiting line when the queue is full (R80). A vehicle that has a frame of that
kind there already gets no second one, so that it has at most one of each. DESIGN CHOICE (log 39, unsafe). -/
def State.enqueue (s : State) (f : VehicleFrame) : State :=
  if (s.vlink.queue ++ s.vlink.waiting).any (fun g => g.slot = f.slot) then s
  else s.setFrames s.vlink.queue (s.vlink.waiting ++ [f])

/-- Frames taken out of the queue or the waiting line, wherever they stand (R80). -/
def State.withdraw (s : State) (p : VehicleFrame → Bool) : State :=
  s.setFrames (s.vlink.queue.filter fun f => !(p f)) (s.vlink.waiting.filter fun f => !(p f))

/-- Every GO, RESUME and ABANDON for a vehicle withdrawn (R66, R68, R84). -/
def State.withdrawFor (s : State) (v : Nat) : State := s.withdraw fun f => f.vehicle = v && !f.isHalt

/-- The GO of a vehicle withdrawn. -/
def State.withdrawGo (s : State) (v : Nat) : State := s.withdraw fun f => f.vehicle = v && f.isGo

/-- A GO for the vehicle is queued or waiting (R82). -/
def State.goQueued (s : State) (v : Nat) : Bool :=
  (s.vlink.queue ++ s.vlink.waiting).any fun f => f.vehicle = v && f.isGo

/-- How many frames are queued or waiting for the vehicle (R85). DESIGN CHOICE: a HALT-ALL, which carries no vehicle's own number,
is counted for none (log 40, unsafe). -/
def State.framesFor (s : State) (v : Nat) : Nat :=
  ((s.vlink.queue ++ s.vlink.waiting).filter fun f => f.vehicle = v).length

/-! ### Zone locks (R75) -/

/-- Every zone free or held by the vehicle. -/
def State.zonesOpen (s : State) (v : Nat) (zs : List Nat) : Bool :=
  zs.all fun z => match s.holder z with
    | none => true
    | some h => h = v

/-- Zones given to a vehicle. -/
def State.giveZones (s : State) (v : Nat) (zs : List Nat) : State :=
  { s with locks := zs.foldl (fun l z => l.insert z v) s.locks }

/-- The vehicle gives up every zone it holds but `keep`. -/
def State.keepZone (s : State) (v : Nat) (keep : Option Nat) : State :=
  { s with locks := ⟨s.locks.entries.filter fun e => decide (e.2 ≠ v) || decide (some e.1 = keep)⟩ }

/-- The zone a vehicle stands in: the zone of its node, or its current zone between nodes (R75). -/
def State.standingZone (s : State) (v : Nat) : Option Nat :=
  match s.nodeZone (s.veh v).node with
  | some z => some z
  | none => (s.veh v).zone

/-- The zones a vehicle holds, ascending (R85). -/
def State.zonesOf (s : State) (v : Nat) : List Nat :=
  (s.locks.entries.filter fun e => decide (e.2 = v)).map (·.1)

/-! ### Leg requests (R42) -/

/-- The node of a place: a bay's node, a position's stand node, a node. -/
def State.placeNode (s : State) : Place → Option Nat
  | .bay b _ => (s.bay b).map (·.node)
  | .arm p _ => some (s.pos p).standNode
  | .node n => some n
  | .absent => none

/-- The target node of an order's current leg (R40). -/
def State.targetNode (s : State) (o : Order) : Option Nat :=
  if o.kind ≠ .park ∧ o.progress = 1 then s.placeNode o.source else s.placeNode o.destination

/-- The action of an order's current leg (R40). -/
def Order.action (o : Order) : GoAction :=
  if o.kind = .park then .none else if o.progress = 1 then .pick else .drop

/-- The zones a leg asks for: the route's zones and the target node's zone, each once (R63). -/
def State.askedZones (s : State) (zs : List Nat) (target : Nat) : List Nat :=
  match s.nodeZone target with
  | some z => if z ∈ zs then zs else zs ++ [z]
  | none => zs

/-- The leading zones of a list that equal the current zone count as passed (R72). -/
def leadingPassed (current : Option Nat) : List Nat → Nat
  | [] => 0
  | z :: zs => if some z = current then leadingPassed current zs + 1 else 0

/-- ORDER_SUSPENDED raised for an order (R50). -/
def State.raiseSuspended (s : State) (t : Nat) (o : Order) (r : Reason) (v : Nat) : State :=
  s.raise (.orderSuspended t r v (o.reel.getD 0))

/-- Step 3 of a leg request: the order becomes OFFERED with its GO in the queue, its zones given to the vehicle (R42, R76). -/
def State.offerLeg (s : State) (t : Nat) (o : Order) (v target : Nat) (zs : List Nat) : State :=
  let s := s.giveZones v (s.askedZones zs target)
  let s := s.setOrder t { o with
    state := .offered, reason := none, heldSince := none, legZones := zs,
    legPassed := leadingPassed (s.veh v).zone zs, goSent := false }
  s.enqueue (.go v t o.progress target o.action zs)

/-- Steps 2 and 3: the zones asked of the Zone Lock Table together (R42, R76). -/
def State.askZones (s : State) (t : Nat) (o : Order) (v target : Nat) (zs : List Nat) : State :=
  if s.zonesOpen v (s.askedZones zs target) then s.offerLeg t o v target zs
  else s.setOrder t { o with
    state := .heldZones, reason := none, heldSince := some s.clock.seconds, holdReported := false, legZones := zs,
    legPassed := 0, goSent := false }

/-- Step 1: the route (R42). -/
def State.routeLeg (s : State) (t : Nat) (o : Order) (v : Nat) : State :=
  match s.targetNode o with
  | none => s
  | some target =>
    if (s.veh v).node = target then s.askZones t o v target []
    else
      match s.route (s.veh v).node target with
      | some r => s.askZones t o v target r.zones
      | none =>
        (s.setOrder t { o with
          state := .suspended, reason := some .noRoute, heldSince := none, legZones := [],
          goSent := false }).raiseSuspended t o .noRoute v

/-- The vehicle may be given a leg: it is not FAULTED, LOST, STOPPED or ABSENT (R42). -/
def VehicleState.canDrive : VehicleState → Bool
  | .idle | .offered | .driving => true
  | _ => false

/-- A leg request for the order's current leg on its bound vehicle, with the arm check of a DELIVER's carry leg (R42, R47). -/
def State.requestLeg (s : State) (t : Nat) : State :=
  match s.order t with
  | none => s
  | some o =>
    match o.vehicle with
    | none => s
    | some v =>
      if (s.veh v).state.canDrive then
        match o.destination, decide (2 ≤ o.progress) with
        | .arm p _, true =>
          let a := (s.pos p).standbyArm
          if (s.pos p).arm a = none then s.routeLeg t { o with targetArm := some a } v
          else s.setOrder t { o with state := .heldArm, reason := none, heldSince := none, legZones := [], goSent := false }
        | _, _ => s.routeLeg t o v
      else s

/-- The HELD(ARM) DELIVER of a position has its carry leg requested once the standby arm is empty (R46, R47, R109). -/
def State.wakeHeldArm (s : State) (p : Nat) : State :=
  match firstOrder (fun o => o.kind = .deliver && o.position = some p && o.state = .heldArm) s.orders.table.entries with
  | some t => if (s.pos p).arm (s.pos p).standbyArm = none then s.requestLeg t else s
  | none => s

/-! ### Passes over orders -/

/-- Orders are taken by priority, URGENT before NORMAL, then by creation sequence (R44, R77). -/
def Order.before (a b : Order) : Bool :=
  if a.priority = b.priority then decide (a.sequence < b.sequence) else decide (a.priority = .urgent)

def insertOrder (e : Nat × Order) : List (Nat × Order) → List (Nat × Order)
  | [] => [e]
  | f :: fs => if e.2.before f.2 then e :: f :: fs else f :: insertOrder e fs

/-- The tags of the orders that satisfy `p`, in the order a pass takes them. -/
def State.passOrder (s : State) (p : Order → Bool) : List Nat :=
  ((s.orders.table.entries.filter fun e => p e.2).foldl (fun l e => insertOrder e l) []).map (·.1)

/-- One waiting leg at its turn in a grant pass (R77). -/
def State.grantOne (s : State) (t : Nat) : State :=
  match s.order t with
  | some o =>
    match o.state, o.vehicle, s.targetNode o with
    | .heldZones, some v, some target =>
      if s.zonesOpen v (s.askedZones o.legZones target) then s.offerLeg t o v target o.legZones else s
    | _, _, _ => s
  | none => s

/-- The grant pass over the waiting legs (R77). -/
def State.grantPass (s : State) : State := (s.passOrder fun o => o.state = .heldZones).foldl State.grantOne s

/-- A WAITING PARK names the vehicle (R44). -/
def State.parkNames (s : State) (v : Nat) : Bool :=
  s.orders.table.entries.any fun e => e.2.kind = .park && e.2.state = .waiting && e.2.vehicle = some v

/-- The vehicle meets every condition of R44 but the route. -/
def State.freeVehicle (s : State) (v : Nat) : Bool :=
  let x := s.veh v
  x.state = .idle && x.order = none && !s.parkNames v && x.load = none && decide (s.vconfig.lowBattery ≤ x.battery)

/-- The route length from the vehicle to a node: 0 at the node, none without a route (R44). -/
def State.distance (s : State) (v target : Nat) : Option Nat :=
  if (s.veh v).node = target then some 0 else (s.route (s.veh v).node target).map (·.length)

/-- The eligible vehicle with the shortest route length, the lower number between equals (R44). -/
def State.nearest (s : State) (target : Nat) : List Nat → Option (Nat × Nat) → Option (Nat × Nat)
  | [], best => best
  | v :: vs, best =>
    if s.freeVehicle v then
      match s.distance v target, best with
      | some d, some (u, e) => s.nearest target vs (if d < e then some (v, d) else some (u, e))
      | some d, none => s.nearest target vs (some (v, d))
      | none, _ => s.nearest target vs best
    else s.nearest target vs best

/-- The order bound to the vehicle, and its leg requested (R44). -/
def State.bind (s : State) (t : Nat) (o : Order) (v : Nat) : State :=
  let s := s.setOrder t { o with vehicle := some v }
  (s.onVeh v fun x => { x with order := some t }).requestLeg t

/-- One WAITING order at its turn in an assignment pass (R44, R45). -/
def State.assignOne (s : State) (t : Nat) : State :=
  match s.order t with
  | none => s
  | some o =>
    if o.state ≠ .waiting then s
    else
      match s.targetNode o with
      | none => s
      | some target =>
        match o.kind, o.vehicle with
        | .park, some v =>
          if (s.veh v).state = .idle ∧ (s.veh v).order = none ∧ (s.distance v target).isSome then s.bind t o v else s
        | .park, none => s
        | _, _ =>
          match s.nearest target allVehicles none with
          | some (v, _) => s.bind t o v
          | none => s

/-- A pass of the assignment arbiter (R44). -/
def State.assignPass (s : State) : State := (s.passOrder fun o => o.state = .waiting).foldl State.assignOne s

/-! ### The close of an event -/

/-- An order of `s` is WAITING that was not WAITING in `pre` (R44). -/
def newWaiting (pre s : State) : Bool :=
  s.orders.table.entries.any fun e => e.2.state = .waiting && (match pre.order e.1 with
    | some o => !(o.state = .waiting && o.sequence = e.2.sequence)
    | none => true)

/-- The vehicle is IDLE with no current order. -/
def State.idleFree (s : State) (v : Nat) : Bool := (s.veh v).state = .idle && (s.veh v).order = none

/-- An event calls for an assignment pass: an order has become WAITING, or a vehicle IDLE with no current order (R44). -/
def assignmentDue (pre s : State) : Bool := newWaiting pre s || allVehicles.any fun v => s.idleFree v && !pre.idleFree v

/-- The passes that end an event, once its own changes are made: the grant pass (R77), the Demand Queue's arbiter pass (R33),
and the assignment arbiter where R44 calls for it or `force` says so. DESIGN CHOICE on their order (log 10, unsafe). A grant or
arbiter pass that nothing calls for finds nothing to do. -/
def State.close (s : State) (pre : State) (force : Bool) : State :=
  let s := s.grantPass.arbiterPass
  if force || assignmentDue pre s then s.assignPass else s

end Sys2Proof.Machine
end

