-- ==== Sys2Proof/Machine/Splice.lean ====
section
/-!
DEFINITION. The splice sequence (chapter 6): its transitions, firing, confirm, the swap, failure, the late splice, press stop and
emergency stop. Each event's own changes come first; `State.settle` then takes the transitions they have made true (R112).
-/

namespace Sys2Proof.Machine

/-! ### Transitions that depend on a length or an input level (R112) -/

/-- READY to ACCEL (R113). -/
def State.tryAccel (s : State) (p : Nat) : State :=
  let x := s.pos p
  if x.sequence = .ready ∧ x.gauge.remaining ≤ x.params.accelLength ∧ s.pressRunning (lineOfPosition p) = true ∧
      s.estop.level = false then
    s.setPos p { x.setAccel x.standbyArm true with sequence := .accel, splice := { x.splice with matchMs := none } }
  else s

/-- MATCHED to ARMED (R117). -/
def State.tryArm (s : State) (p : Nat) : State :=
  let x := s.pos p
  if x.sequence = .matched ∧ x.gauge.remaining ≤ x.params.armLength then s.setPos p { x with sequence := .armed } else s

/-- The cut starts (R118). -/
def Position.startCut (x : Position) : Position :=
  { x with outputs := { x.outputs with cut := true }, splice := { x.splice with cutMs := some 0, cutStarted := true } }

/-- The cut starts once counts since paste have reached the paste-to-cut length (R118). -/
def Position.cutDue (x : Position) : Position :=
  if x.sequence = .firing ∧ x.splice.cutStarted = false ∧ x.params.pasteToCut ≤ x.splice.sincePaste then x.startCut else x

/-- Entry to FIRING (R118). -/
def Position.enterFiring (x : Position) : Position :=
  Position.cutDue { x with
    sequence := .firing
    outputs := { x.outputs with paste := true }
    splice := { x.splice with
      pasteMs := some 0, cutMs := none, cutStarted := false, sincePaste := 0, firingMs := 0, latch := false } }

/-- ARMED to FIRING (R117). -/
def State.tryFire (s : State) (p : Nat) : State :=
  let x := s.pos p
  if x.sequence = .armed ∧ x.gauge.remaining ≤ x.params.fireLength then s.setPos p x.enterFiring else s

/-- The transitions an event has made true, in their order (R112). -/
def State.settle (s : State) (p : Nat) : State := ((s.tryAccel p).tryArm p).tryFire p

/-! ### Late splice (R122) -/

/-- The states in which a countdown that runs out is a late splice (R122). -/
def Sequence.beforeFiring : Sequence → Bool
  | .noStandby | .standby | .ready | .accel | .matched | .armed => true
  | _ => false

/-- SPLICE_MISSED when L_rem, `before` ahead of the event, has become 0 (R122; log 20). -/
def State.judgeLate (s : State) (p before : Nat) : State :=
  let x := s.pos p
  if x.isWeb ∧ before ≠ 0 ∧ x.gauge.remaining = 0 ∧ x.sequence.beforeFiring = true ∧ x.splice.missed = false then
    (s.setPos p { x with
      outputs := { x.outputs with webEnd := true }, splice := { x.splice with missed := true } }).raise
      (.spliceMissed p x.runningReel x.sequence x.standbyReel)
  else s

/-! ### Measurement start -/

/-- A measurement start for the reel that starts to run on a position (R92). -/
def State.startGauge (s : State) (p r : Nat) : State :=
  match s.reel r with
  | some y => s.onPos p fun x => x.measureStart y.diameter y.caliper
  | none => s

/-! ### The swap (R120) -/

/-- The timers stopped and the confirm latch cleared (R120, R121). -/
def SpliceSequence.quiet (x : SpliceSequence) : SpliceSequence :=
  { x with matchMs := none, pasteMs := none, cutMs := none, latch := false }

/-- The effects of a completed splice, in the order of R120, settled by a confirm edge or by SPLICEFIX (R120, R128). -/
def State.swap (s : State) (p : Nat) (by_ : SettledBy) : State :=
  let x := s.pos p
  match x.running with
  | none => s
  | some a =>
    match x.arm a, x.arm (otherArm a) with
    | some old, some new =>
      let d := x.gauge.diameter
      let s := s.makeButt p a d
      let s := s.onReel new fun y => { y with state := .running }
      let s := s.onPos p fun y =>
        { y.accelOff with
          running := some (otherArm a)
          outputs := { y.accelOff.outputs with webEnd := false } }
      let s := s.startGauge p new
      let s := s.onPos p fun y =>
        { y with sequence := .noStandby, splice := { y.splice.quiet with count := satAdd y.splice.count 1 } }
      let s := s.spliceCounted p old new by_
      let s := s.raise (.spliceDone p old d new (((s.reel new).map (·.diameter)).getD 0) by_)
      s.judgeLate p 1
    | _, _ => s

/-! ### Confirm and failure -/

/-- Entry to CONFIRM, with the swap when the latch is set (R119). -/
def State.enterConfirm (s : State) (p : Nat) : State :=
  let x := s.pos p
  let s := s.setPos p { x with
    sequence := .confirm, splice := { x.splice with sinceConfirm := 0, confirmMs := 0 } }
  if x.splice.latch then s.swap p .confirm else s

/-- Entry to FAILED (R121). -/
def State.enterFailed (s : State) (p : Nat) (c : FailureCause) : State :=
  let x := s.pos p
  let y := x.accelOff
  let s := s.setPos p { y with
    sequence := .failed
    outputs := { y.outputs with paste := false, cut := false, webEnd := true }
    splice := { x.splice.quiet with cause := some c } }
  s.raise (.spliceFailed p c x.runningReel x.standbyReel x.gauge.remaining)

/-! ### The events of a position -/

/-- Counts since paste, counts since confirm entry and the cut start at a web count (R118, R119). -/
def Position.spliceCount (x : Position) : Position :=
  match x.sequence with
  | .firing => Position.cutDue { x with splice := { x.splice with sincePaste := min 65535 (x.splice.sincePaste + 1) } }
  | .confirm => { x with splice := { x.splice with sinceConfirm := min 65535 (x.splice.sinceConfirm + 1) } }
  | _ => x

/-- The gauge's part of a web count (R91, R93). -/
def Position.gaugeCount (x : Position) : Position :=
  let g := { x.gauge with windowCounts := x.gauge.windowCounts + 1 }
  { x with gauge := if x.isWeb then { g with remaining := g.remaining - 1, deltaL := min 65535 (g.deltaL + 1) } else g }

/-- The confirm window is closed by its counts (R119). -/
def Position.windowRunOut (x : Position) : Bool :=
  x.sequence = .confirm && decide (x.params.confirmLength ≤ x.splice.sinceConfirm)

/-- A web count (R93, R112, R118, R119, R122). -/
def State.countWeb (s : State) (p : Nat) : State :=
  let x := s.pos p
  let s := s.setPos p x.gaugeCount.spliceCount
  let s := if (s.pos p).windowRunOut then s.enterFailed p .noConfirm else s
  (s.judgeLate p x.gauge.remaining).settle p

/-- An accepted revolution mark (R93 to R95, R112, R122). -/
def State.markEvent (s : State) (p : Nat) : State :=
  ((s.markTaken p).judgeLate p (s.pos p).gauge.remaining).settle p

/-- The match test of a window (R115). -/
def Position.matches (x : Position) : Bool :=
  let v := x.gauge.speed
  let vs := x.gauge.standbySpeed
  decide (100 ≤ v) && decide ((max vs v - min vs v) * 1000 ≤ x.params.matchTolerance * v)

/-- The sequence at the close of a window (R115, R116). -/
def Position.matchTest (x : Position) : Position :=
  match x.sequence with
  | .accel =>
    if x.matches then { x with splice := { x.splice with matchMs := some (x.splice.matchMs.getD 0) } }
    else { x with splice := { x.splice with matchMs := none } }
  | .matched | .armed =>
    if x.matches then x else { x with sequence := .accel, splice := { x.splice with matchMs := none } }
  | _ => x

/-- The close of a speed window, in the order of R91. -/
def State.closeWindow (s : State) (p standbyCounts : Nat) : State :=
  (((s.onPos p fun x => x.window standbyCounts).testCallOff p).testUrgency p).onPos p Position.matchTest

/-- The match timer reaches the match hold (R115). -/
def State.holdMatched (s : State) (p : Nat) : State :=
  let x := s.pos p
  if x.sequence = .accel ∧ x.splice.matchMs.isSome then
    (s.setPos p { x with sequence := .matched, splice := { x.splice with matchMs := none } }).settle p
  else s

/-- The paste timer reaches the paste pulse (R118). -/
def State.endPaste (s : State) (p : Nat) : State :=
  let x := s.pos p
  if x.sequence = .firing ∧ x.splice.pasteMs.isSome then
    let s := s.setPos p { x with
      outputs := { x.outputs with paste := false }, splice := { x.splice with pasteMs := none } }
    if x.splice.cutStarted ∧ x.splice.cutMs = none then s.enterConfirm p else s
  else s

/-- The cut timer reaches the cut pulse (R118). -/
def State.endCut (s : State) (p : Nat) : State :=
  let x := s.pos p
  if x.sequence = .firing ∧ x.splice.cutMs.isSome then
    let s := s.setPos p { x with
      outputs := { x.outputs with cut := false }, splice := { x.splice with cutMs := none } }
    if x.splice.pasteMs = none then s.enterConfirm p else s
  else s

/-- Firing time reaches 10,000 ms with the cut not started (R118). -/
def State.failFiring (s : State) (p : Nat) : State :=
  let x := s.pos p
  if x.sequence = .firing ∧ x.splice.cutStarted = false then s.enterFailed p .noCut else s

/-- Confirm time reaches 10,000 ms (R119). -/
def State.failConfirm (s : State) (p : Nat) : State :=
  if (s.pos p).sequence = .confirm then s.enterFailed p .noConfirm else s

/-- A confirm edge (R119). -/
def State.confirmed (s : State) (p : Nat) : State :=
  let x := s.pos p
  match x.sequence with
  | .firing => s.setPos p { x with splice := { x.splice with latch := true } }
  | .confirm => s.swap p .confirm
  | _ => s

/-- A press stop or emergency stop taken by one position (R123, R124). -/
def Position.stopped (x : Position) : Position :=
  match x.sequence with
  | .accel | .matched | .armed =>
    { x.accelOff with sequence := .ready, splice := { x.splice with matchMs := none } }
  | _ => x

/-- The resting state a WEB position takes from its standby arm (R90). -/
def State.restingState (s : State) (p : Nat) : Sequence :=
  match s.armState p (s.pos p).standbyArm with
  | some .staged => .standby
  | some .prepared => .ready
  | _ => .noStandby

end Sys2Proof.Machine
end

