-- ==== Sys2Proof/Machine/Transport.lean ====
section
/-!
DEFINITION. What ends, stops or redirects an order (sections 3.4, 3.6, 3.7): HALT into the outbound queue with the displacement
of a GO, removal, conversion, completed and failed legs, and the loss of a vehicle.
-/

namespace Sys2Proof.Machine

/-! ### The order without a leg -/

/-- The order is without a leg: back to WAITING, its vehicle absent but for a PARK's named one (R43, R45, R51). -/
def Order.backToWaiting (o : Order) : Order :=
  { o with
    state := .waiting
    reason := none
    vehicle := if o.kind = .park then o.vehicle else none
    heldSince := none
    legZones := []
    legPassed := 0
    holdReported := false
    goSent := false }

/-- The vehicle gives up every zone but the one it stands in, unless it is FAULTED or LOST (R53, R75). -/
def State.dropGrant (s : State) (v : Nat) : State :=
  if (s.veh v).state = .faulted ∨ (s.veh v).state = .lost then s else s.keepZone v (s.standingZone v)

/-- The vehicle's current order tag cleared. -/
def State.unbind (s : State) (v : Nat) : State := s.onVeh v fun x => { x with order := none }

/-! ### Removal (R53) -/

/-- The tag a GO carries. -/
def VehicleFrame.goTag : VehicleFrame → Nat
  | .go _ t .. => t
  | _ => 0

/-- The GO of an order withdrawn. -/
def State.withdrawOrderGo (s : State) (t : Nat) : State := s.withdraw fun f => f.isGo && f.goTag = t

/-- The reel of a removed order: its tag absent; a RESERVED reel is released, a butt's disposal reads MANUAL (R53, R102). -/
def State.freeReel (s : State) (r : Nat) : State :=
  match s.reel r with
  | none => s
  | some x =>
    if x.state = .reserved then s.release r
    else
      let s := s.setReel r { x with tag := none }
      match x.state, x.location with
      | .butt, .onArm p a => s.onPos p fun y => y.setDisposal a (some .manual)
      | _, _ => s

/-- A DELIVER's position call-off returns to NONE (R53, R54, R100). -/
def State.callOffEnds (s : State) (o : Order) : State :=
  if o.kind = .deliver then s.whenSome o.position fun s p => s.setCallOff p .none false else s

/-- A vehicle STOPPED with prior state OFFERED whose GO was withdrawn unsent becomes IDLE (R53, R54). -/
def State.standDown (s : State) (v : Nat) (o : Order) : State :=
  if (s.veh v).state = .stopped ∧ (s.veh v).prior = some .offered ∧ o.goSent = false then
    s.onVeh v fun x => { x with state := .idle, prior := none }
  else s

/-- The bound vehicle of a removed order freed (R53). -/
def State.freeVehicleOf (s : State) (t : Nat) (o : Order) : State :=
  match o.vehicle with
  | some v => if (s.veh v).order = some t then ((s.unbind v).dropGrant v).standDown v o else s
  | none => s

/-- An order leaves the list with what R53 lists, before the freed entry goes to the backlog. -/
def State.dropOrder (s : State) (t : Nat) (o : Order) : State :=
  let s := (s.withdrawOrderGo t).delOrder t
  let s := s.whenSome o.reel State.freeReel
  let s := s.whenSome o.destination.bay? State.unpromise
  (s.callOffEnds o).freeVehicleOf t o

/-- Removal of an unloaded order (R53). -/
def State.removeOrder (s : State) (t : Nat) : State :=
  match s.order t with
  | some o => (s.dropOrder t o).fillBacklog
  | none => s

/-! ### Conversion (R54) -/

/-- The bay of a conversion, the order's own promise counted as withdrawn: the fallback bay, then the automatic choice. -/
def State.conversionBay (s : State) (o : Order) : Option Nat :=
  let s := s.whenSome o.destination.bay? State.unpromise
  match o.reel.bind s.reel with
  | none => none
  | some x =>
    match x.lastBay with
    | some b => if s.roomAt b then some b else s.autoBay x.grade x.width none
    | none => s.autoBay x.grade x.width none

/-- The reservation of a converted order's reel is absent, and a WASTE_BOUND reel is ON_VEHICLE (R3, R6, R54). -/
def Reel.converted (x : Reel) : Reel :=
  { x with
    reservation := none
    location := match x.location with
      | .wasteBound v => .onVehicle v
      | l => l }

/-- The vehicle of an order that stops or changes its leg: its queued GO withdrawn, its grant's zones given up (R54; log 16). -/
def State.recallLeg (s : State) (t : Nat) (o : Order) : State :=
  let s := s.withdrawOrderGo t
  match o.vehicle with
  | some v => (s.dropGrant v).standDown v o
  | none => s

/-- The reason a converted order keeps while its vehicle cannot drive: NO_SPACE has been answered, so READY is awaited: DEDUCED (log 17,
unsafe). DESIGN CHOICE: an order SUSPENDED for BLOCKED_DROP or NO_ROUTE keeps that reason and waits for RESOLVE, as R70 says, where R42
has the event that lets the vehicle drive request the leg (log 51, unsafe). -/
def reasonAfterConversion : Option Reason → Option Reason
  | some .noSpace => some .vehicle
  | r => r

/-- The order converted to a carry into bay `b`, and its carry leg requested (R54). -/
def State.convertTo (s : State) (t : Nat) (o : Order) (b : Nat) : State :=
  let s := s.whenSome o.destination.bay? State.unpromise
  let s := s.promise b
  let s := s.setOrder t { o with
    destination := .bay b 0, converted := true, targetArm := none, position := none, cancelPending := false,
    reason := reasonAfterConversion o.reason, heldSince := none, legZones := [], legPassed := 0, goSent := false }
  let s := s.whenSome o.reel fun s r => s.onReel r Reel.converted
  ((s.callOffEnds o).recallLeg t o).requestLeg t

/-- The order keeps its destination and its promise and is SUSPENDED(NO_SPACE) (R54). -/
def State.noSpace (s : State) (t : Nat) (o : Order) : State :=
  let s := s.setOrder t { o with
    state := .suspended, reason := some .noSpace, cancelPending := false, heldSince := none, legZones := [],
    legPassed := 0, goSent := false }
  (s.recallLeg t o).raiseSuspended t o .noSpace (o.vehicle.getD 0)

/-- Conversion of a loaded order (R54). -/
def State.convert (s : State) (t : Nat) : State :=
  match s.order t with
  | none => s
  | some o =>
    match s.conversionBay o with
    | some b => s.convertTo t o b
    | none => s.noSpace t o

/-! ### Cancellation (R52) -/

/-- A leg of the order is in flight: ACTIVE, or OFFERED with its GO already sent, its last byte gone (R52, R80). -/
def Order.inFlight (o : Order) : Bool := o.state = .active || (o.state = .offered && o.goSent)

/-- CANCEL is refused: CANCELLING, converted, or SUSPENDED(NO_SPACE) (R52). -/
def Order.cancelRefused (o : Order) : Bool :=
  o.state = .cancelling || o.converted || (o.state = .suspended && o.reason = some .noSpace)

/-- ABANDON sent for the leg in flight, and the order CANCELLING (R52). -/
def State.abandonLeg (s : State) (t : Nat) (o : Order) : State :=
  let s := s.setOrder t { o with state := .cancelling, cancelPending := o.loaded }
  s.whenSome o.vehicle fun s v => s.enqueue (.abandon v t o.progress)

/-- The four cases of R52. -/
def State.cancelOrder (s : State) (t : Nat) (o : Order) : State :=
  if o.inFlight then s.abandonLeg t o
  else if o.loaded then s.convert t
  else s.removeOrder t

/-! ### HALT frames (R80) -/

/-- The order whose GO a HALT has displaced (R43); a CANCELLING one goes on as with no leg in flight (log 9). -/
def State.displaced (s : State) (t : Nat) : State :=
  match s.order t with
  | none => s
  | some o =>
    match o.vehicle with
    | none => s
    | some v =>
      let s := s.keepZone v (s.standingZone v)
      if o.state = .cancelling then (if o.loaded then s.convert t else s.removeOrder t)
      else if o.loaded then s.requestLeg t
      else (s.setOrder t o.backToWaiting).unbind v

/-- The last frame of a list that satisfies `p`, and the list without it. -/
def takeLast (p : VehicleFrame → Bool) : List VehicleFrame → Option (VehicleFrame × List VehicleFrame)
  | [] => none
  | f :: fs =>
    match takeLast p fs with
    | some (g, rest) => some (g, f :: rest)
    | none => if p f then some (f, fs) else none

/-- A HALT at the head, behind any HALT already there (R80). -/
def insertHalt (h : VehicleFrame) : List VehicleFrame → List VehicleFrame
  | [] => [h]
  | f :: fs => if f.isHalt then f :: insertHalt h fs else h :: f :: fs

/-- A HALT put into the queue `q`: into a full one the youngest GO is displaced, or else the youngest frame that is no HALT goes
back to the head of the waiting line (R80). -/
def State.putHalt (s : State) (h : VehicleFrame) (q : List VehicleFrame) : State :=
  if q.length < 16 then s.setFrames (insertHalt h q) s.vlink.waiting
  else
    match takeLast VehicleFrame.isGo q with
    | some (g, rest) => (s.setFrames (insertHalt h rest) s.vlink.waiting).displaced g.goTag
    | none =>
      match takeLast (fun f => !f.isHalt) q with
      | some (g, rest) => s.setFrames (insertHalt h rest) (g :: s.vlink.waiting)
      | none => s.setFrames (insertHalt h q) s.vlink.waiting

/-- A HALT for a vehicle queued, unless one for it or a HALT-ALL is queued already (R80). -/
def State.queueHalt (s : State) (v : Nat) : State :=
  if s.vlink.queue.any fun f => f = .halt v || f = .halt 0 then s else s.putHalt (.halt v) s.vlink.queue

/-- HALT-ALL: every queued HALT is removed and it takes the head (R80). DESIGN CHOICE: it takes one of the places the HALTs leave before the
waiting frames move up into the others (log 50, unsafe). -/
def State.queueHaltAll (s : State) : State := s.putHalt (.halt 0) (s.vlink.queue.filter fun f => !f.isHalt)

/-! ### Completed legs (R46, R48) -/

/-- The pick done: the reel leaves its place and is IN_TRANSIT on the vehicle (R4). The reel picked leaves its bay's stack, so that
every STORED reel stays in exactly one (R1): it is the last entry (R21), but where a drop promised before the order was made has since
buried it. There, DESIGN CHOICE, the reels above it move down as R9 has it for the other reels that leave below the top (log 49,
unsafe). -/
def State.takeReel (s : State) (o : Order) (r v : Nat) : State :=
  match o.source with
  | .bay b _ =>
    (s.leaveBay b r).onReel r fun x => { x with state := .inTransit, location := .onVehicle v, lastBay := some b }
  | .arm p (some a) =>
    (s.onPos p fun y => (y.setArm a none).setDisposal a none).onReel r fun x =>
      { x with state := .inTransit, location := if o.kind = .clear then .wasteBound v else .onVehicle v }
  | _ => s.onReel r fun x => { x with state := .inTransit, location := .onVehicle v }

/-- The fetch completed on vehicle `v`: the pick, the load, progress 2, the carry leg, and then the held DELIVER of the arm left
empty (R46). -/
def State.completeFetch (s : State) (t v : Nat) : State :=
  match s.order t with
  | none => s
  | some o =>
    match o.reel with
    | none => s
    | some r =>
      let s := (s.takeReel o r v).rewatch
      let s := s.onVeh v fun x => { x with load := some r, verified := true }
      let s := s.setOrder t { o with progress := 2, reason := none }
      let s := s.requestLeg t
      match o.source with
      | .arm p _ => s.wakeHeldArm p
      | _ => s

/-- A reel set down on an arm becomes STAGED; a WEB position in NO_STANDBY becomes STANDBY (R5, R48, R90). -/
def State.stageReel (s : State) (p : Nat) (a : Arm) (r : Nat) : State :=
  let s := s.onReel r fun x => { x with state := .staged, location := .onArm p a, reservation := none, tag := none }
  s.onPos p fun y =>
    let y := y.setArm a (some r)
    if y.isWeb ∧ y.sequence = .noStandby ∧ y.running ≠ some a then { y with sequence := .standby } else y

/-- The drop of a reel at the order's destination (R5, R48). -/
def State.dropReel (s : State) (o : Order) (r : Nat) : State :=
  match o.destination with
  | .bay b _ => ((s.pushBay b r).unpromise b).rewatch
  | .arm p _ =>
    match o.targetArm with
    | some a => (s.stageReel p a r).setCallOff p .none false
    | none => s
  | _ => s.delReel r

/-- The last leg done: the drop, the order's end, its vehicle free at the target node, ORDER_DONE, and the freed entry offered
to the backlog (R48). -/
def State.completeOrder (s : State) (t : Nat) (o : Order) (v : Nat) : State :=
  let s := s.whenSome o.reel fun s r => (s.dropReel o r).onVeh v fun x => { x with load := none, verified := false }
  let s := (s.delOrder t).unbind v
  (s.raise (.orderDone t o.kind (o.reel.getD 0) v)).fillBacklog

/-! ### Failed legs (R50) -/

/-- The order suspended with a reason, ORDER_SUSPENDED raised (R50). -/
def State.suspend (s : State) (t : Nat) (o : Order) (r : Reason) (v : Nat) : State :=
  (s.setOrder t { o with
    state := .suspended, reason := some r, heldSince := none, legZones := [], legPassed := 0,
    goSent := false }).raiseSuspended t o r v

/-- The vehicle's load set; id 0 is no reel (log 19). -/
def State.setLoad (s : State) (v r : Nat) (verified : Bool) : State :=
  s.onVeh v fun x => { x with load := if r = 0 then none else some r, verified := verified && decide (r ≠ 0) }

/-- A reel lies on the target arm of a carry leg (R47, R50). -/
def State.armOccupied (s : State) (o : Order) : Bool :=
  match o.destination, o.targetArm with
  | .arm p _, some a => ((s.pos p).arm a).isSome
  | _, _ => false

/-- A DONE that completes nothing on an order that is not CANCELLING (R50). -/
def State.legFailed (s : State) (t : Nat) (o : Order) (v : Nat) (result : DoneResult) (read : Nat) : State :=
  if o.kind = .park then s.suspend t o .blockedDrop v
  else if o.progress = 1 then
    match result with
    | .ok => (s.setLoad v read false).suspend t o .wrongReel v
    | _ => (s.setLoad v 0 false).suspend t o .emptyPick v
  else s.suspend t o .blockedDrop v

/-- A leg the vehicle gave up on its own (R50). -/
def State.legAbandoned (s : State) (t : Nat) (o : Order) (v : Nat) : State :=
  if o.loaded then s.requestLeg t else (s.setOrder t o.backToWaiting).unbind v

/-- The load R50 gives for a failed fetch: the id read, or none for EMPTY and BLOCKED; a PARK's stays as before. -/
def State.loadAfter (s : State) (o : Order) (v : Nat) (result : DoneResult) (read : Nat) : State :=
  if o.kind = .park then s
  else
    match result with
    | .ok => s.setLoad v read false
    | .empty | .blocked => s.setLoad v 0 false
    | .abandoned => s

/-- A DONE for a CANCELLING order (R53, R54). -/
def State.doneCancelling (s : State) (t : Nat) (o : Order) (v : Nat) (result : DoneResult) (read : Nat) : State :=
  if o.kind = .park then
    match result with
    | .ok => s.completeOrder t o v
    | _ => s.removeOrder t
  else if o.progress = 1 then
    if result = .ok ∧ o.reel = some read then
      match o.reel with
      | some r =>
        let s := (s.takeReel o r v).rewatch
        let s := s.onVeh v fun x => { x with load := some r, verified := true }
        let s := (s.setOrder t { o with progress := 2 }).convert t
        match o.source with
        | .arm p _ => s.wakeHeldArm p
        | _ => s
      | none => s
    else (s.loadAfter o v result read).removeOrder t
  else if result = .ok ∧ s.armOccupied o = false then s.completeOrder t o v
  else s.convert t

/-- A DONE for an order that is not CANCELLING (R46, R48, R50). -/
def State.doneActive (s : State) (t : Nat) (o : Order) (v : Nat) (result : DoneResult) (read : Nat) : State :=
  match result with
  | .abandoned => s.legAbandoned t o v
  | .ok =>
    if o.kind = .park then s.completeOrder t o v
    else if o.progress = 1 then
      if o.reel = some read then s.completeFetch t v else s.legFailed t o v result read
    else if s.armOccupied o then s.legFailed t o v result read
    else s.completeOrder t o v
  | _ => s.legFailed t o v result read

/-- The result of a DONE handed to the Order List (R73). -/
def State.orderDone (s : State) (t v : Nat) (result : DoneResult) (read : Nat) : State :=
  match s.order t with
  | none => s
  | some o =>
    if o.state = .cancelling then s.doneCancelling t o v result read else s.doneActive t o v result read

/-! ### Loss of the vehicle (R51) -/

/-- The bound order of a vehicle that is FAULTED or LOST loses its leg (R51). DESIGN CHOICE: the ORDER_SUSPENDED of an unloaded order names
the vehicle it has just lost, though its vehicle field is absent by then (log 55, unsafe). -/
def State.loseLeg (s : State) (v : Nat) : State :=
  match (s.veh v).order with
  | none => s
  | some t =>
    match s.order t with
    | none => s
    | some o =>
      if !o.loaded then
        if o.state = .cancelling then s.removeOrder t
        else ((s.setOrder t o.backToWaiting).unbind v).raiseSuspended t o .vehicle v
      else if o.state = .suspended then s
      else
        let s := s.suspend t o .vehicle v
        if o.cancelPending then s.convert t else s

/-- The bound order of a retired vehicle removed: as R53 when unloaded, with its reel's record when loaded (R51, R84). -/
def State.retireOrder (s : State) (t : Nat) : State :=
  match s.order t with
  | none => s
  | some o =>
    if o.loaded then
      let s := (s.withdrawOrderGo t).delOrder t
      let s := s.whenSome o.reel State.delReel
      let s := s.whenSome o.destination.bay? State.unpromise
      let s := s.callOffEnds o
      (s.whenSome o.vehicle State.unbind).fillBacklog
    else s.removeOrder t

end Sys2Proof.Machine
end

