-- ==== Sys2Proof/Machine/Vehicles.lean ====
section
/-!
DEFINITION. Vehicle events (chapter 4): faults, silence and offers, the frames a vehicle sends, zone waits, HALT and RESUME of
one vehicle. Each is the event's own changes; `State.close` ends it where it is called.
-/

namespace Sys2Proof.Machine

/-- VEHICLE_FAULT raised for a vehicle as it stands (R66). -/
def State.raiseFault (s : State) (v : Nat) (c : FaultCode) (holder recorded reported : Nat) : State :=
  let x := s.veh v
  s.raise (.vehicleFault v c x.node (x.load.getD 0) (x.order.getD 0) holder recorded reported)

/-- The vehicle is neither FAULTED nor LOST (R66). -/
def VehicleState.sound (x : VehicleState) : Bool := decide (x ≠ .faulted) && decide (x ≠ .lost)

/-- Entry to FAULTED, or a new code for a FAULTED vehicle (R66). With code LOAD the notice names the recorded reel and, since a FAULT
frame reports none, 0 as the reported one (R185; log 41). The HALT, where the cause queues one, comes last: DESIGN CHOICE (log 28,
unsafe). -/
def State.faultVehicle (s : State) (v : Nat) (c : FaultCode) (halt : Bool) : State :=
  let was := (s.veh v).state
  let s := s.onVeh v fun x =>
    { x with state := .faulted, prior := none, faultCode := some c, offerMs := none, leg := none }
  let s := (s.withdrawFor v).raiseFault v c 0 (if c = .load then ((s.veh v).load.getD 0) else 0) 0
  let s := if was.sound then s.loseLeg v else s
  if halt then s.queueHalt v else s

/-- Silence for the heartbeat limit: the vehicle becomes LOST, and its silence timer stops (R68). The HALT is queued last, after its
bound order is dealt with: DESIGN CHOICE (log 28, unsafe). -/
def State.loseVehicle (s : State) (v : Nat) : State :=
  let was := (s.veh v).state
  let s := s.onVeh v fun x => { x with state := .lost, offerMs := none, leg := none }
  let s := s.withdrawFor v
  let s := s.raise (.vehicleLost v .silent (s.veh v).node ((s.veh v).load.getD 0))
  let s := if was = .faulted then s else s.loseLeg v
  s.queueHalt v

/-- A silence timer counts for the vehicle: it is neither ABSENT nor LOST (R64, R68). -/
def VehicleState.listening (x : VehicleState) : Bool := decide (x ≠ .absent) && decide (x ≠ .lost)

/-- The silence timer reaches the heartbeat limit (R68). -/
def State.silenceEvent (s : State) (v : Nat) : State := if (s.veh v).state.listening then s.loseVehicle v else s

/-- The offer timer reaches the offer timeout while the vehicle is OFFERED (R69). -/
def State.offerEvent (s : State) (v : Nat) : State :=
  if (s.veh v).state = .offered then s.faultVehicle v .offer true else s

/-! ### Zone waits (R78) -/

/-- The zones a waiting leg asks for. -/
def State.waitZones (s : State) (o : Order) : List Nat :=
  match s.targetNode o with
  | some n => s.askedZones o.legZones n
  | none => o.legZones

/-- The lowest-numbered of a leg's zones that another vehicle holds, with its holder; 0 and 0 when there is none
(R62, R78). -/
def State.zoneInWay (s : State) (o : Order) : Nat × Nat :=
  (s.waitZones o).foldl
    (fun best z =>
      match s.holder z with
      | some h => if some h ≠ o.vehicle ∧ (best.1 = 0 ∨ z < best.1) then (z, h) else best
      | none => best) (0, 0)

/-- The seconds an order has been HELD(ZONES); 0 while the clock stands before its held since (R179). -/
def State.secondsHeld (s : State) (o : Order) : Nat :=
  match o.heldSince with
  | some t => s.clock.seconds - t
  | none => 0

/-- A hold past the zone wait limit is reported once (R78). -/
def State.judgeHold (s : State) (t : Nat) : State :=
  match s.order t with
  | none => s
  | some o =>
    if o.state = .heldZones ∧ o.holdReported = false ∧ s.vconfig.zoneWait < s.secondsHeld o then
      let w := s.zoneInWay o
      (s.setOrder t { o with holdReported := true }).raise (.orderHeld t (o.vehicle.getD 0) (s.secondsHeld o) w.1 w.2)
    else s

/-- Every hold judged, by tag (R78, R179). -/
def State.judgeHolds (s : State) : State := forEach s.orders.table.keys (fun t s => s.judgeHold t) s

/-! ### JOIN (R65, R67) -/

/-- A load that names an IN_TRANSIT reel whose order is SUSPENDED(VEHICLE) with this vehicle bound to it (R65). -/
def State.loadMatches (s : State) (v r : Nat) : Bool :=
  match s.reel r with
  | none => false
  | some x =>
    x.state = .inTransit && (match x.tag.bind s.order with
      | some o => o.state = .suspended && o.reason = some .vehicle && o.vehicle = some v
      | none => false)

/-- The reported load checked and recorded (R65). -/
def State.takeLoad (s : State) (v r : Nat) : State := s.setLoad v r (s.loadMatches v r)

/-- A JOIN from an ABSENT slot (R65). DESIGN CHOICE: where it is refused the CONFLICT notice is raised first and the HALT queued after it,
so that an ORDER_SUSPENDED of a GO that the HALT displaces has the later sequence (R186; log 28, unsafe). DESIGN CHOICE: that notice names
the node reported and, as the slot holds none, load 0 and order tag 0, not the load the JOIN reported (R185; log 46, unsafe). -/
def State.joinAbsent (s : State) (v node load battery : Nat) : State :=
  match s.nodeZone node with
  | some z =>
    match s.holder z with
    | none =>
      let s := s.setVeh v { Vehicle.absentSlot with state := .idle, node := node, zone := some z, battery := min battery 100 }
      (s.giveZones v [z]).takeLoad v load
    | some h => (s.raise (.vehicleFault v .conflict node 0 0 h 0 0)).queueHalt v
  | none => (s.raise (.vehicleFault v .conflict node 0 0 0 0 0)).queueHalt v

/-- The node of a rejoin: taken when its zone is the current zone, held by the vehicle, or free; else VEHICLE_FAULT with
CONFLICT (R67). DESIGN CHOICE: that notice names the node recorded, which is kept, where R65's CONFLICT names the node reported (log 46,
unsafe). -/
def State.rejoinNode (s : State) (v node : Nat) : State :=
  match s.nodeZone node with
  | some z =>
    match s.holder z with
    | some h =>
      if h = v then s.onVeh v fun x => { x with node := node, zone := some z } else s.raiseFault v .conflict h 0 0
    | none => (s.giveZones v [z]).onVeh v fun x => { x with node := node, zone := some z }
  | none => s.raiseFault v .conflict 0 0 0

/-- The load of a rejoin (R67). DESIGN CHOICE: another load than the verified one raises a VEHICLE_FAULT with LOAD that names both reels,
besides the one with LINK that the rejoin has raised already (log 53, unsafe). -/
def State.rejoinLoad (s : State) (v load : Nat) : State :=
  let x := s.veh v
  match x.load, x.verified with
  | some r, true =>
    if load = r then s
    else (s.onVeh v fun y => { y with faultCode := some .load }).raiseFault v .load 0 r load
  | _, _ => s.takeLoad v load

/-- A JOIN from a vehicle not ABSENT: a rejoin (R67). -/
def State.rejoin (s : State) (v node load battery : Nat) : State :=
  let s := s.faultVehicle v .link true
  let s := s.onVeh v fun x => { x with battery := min battery 100 }
  (s.rejoinNode v node).rejoinLoad v load

/-! ### Frames on a leg (R71 to R74) -/

/-- The vehicle's current leg has this tag and index (R71, R73). -/
def Vehicle.onLeg (x : Vehicle) (tag index : Nat) : Bool :=
  match x.leg with
  | some l => l.tag = tag && l.index = index
  | none => false

/-- The order of an accepted GO becomes ACTIVE, or stays CANCELLING (R43, R71). -/
def State.activate (s : State) (t : Nat) : State :=
  s.onOrder t fun o => if o.state = .offered then { o with state := .active } else o

/-- A TAKE (R71). -/
def State.takeFrame (s : State) (v tag index : Nat) : State :=
  let x := s.veh v
  if x.onLeg tag index then
    match x.state, x.prior with
    | .offered, _ => (s.onVeh v fun y => { y with state := .driving, offerMs := none }).activate tag
    | .stopped, some .offered => (s.onVeh v fun y => { y with prior := some .driving }).activate tag
    | _, _ => s
  else s

/-- The next zone of a leg: the first of its list not yet passed, then the target node's zone if it is not the current one
(R72). -/
def State.nextZone (s : State) (x : Vehicle) : Option Nat :=
  match x.leg with
  | none => none
  | some l =>
    match l.zones.drop l.passed with
    | z :: _ => some z
    | [] =>
      match s.nodeZone l.target with
      | some z => if some z = x.zone then none else some z
      | none => none

/-- The vehicle may report a PASS: DRIVING, or STOPPED with prior state DRIVING (R72). -/
def Vehicle.moves (x : Vehicle) : Bool := x.state = .driving || (x.state = .stopped && x.prior = some .driving)

/-- A PASS (R72). -/
def State.passFrame (s : State) (v zone : Nat) : State :=
  let x := s.veh v
  if x.moves && decide (s.nextZone x = some zone) then
    let s := { s with locks := ⟨s.locks.entries.filter fun e => !(decide (e.2 = v) && decide (some e.1 = x.zone))⟩ }
    s.onVeh v fun y =>
      { y with zone := some zone, node := 0, leg := y.leg.map fun l => { l with passed := l.passed + 1 } }
  else s.faultVehicle v .route true

/-- A DONE may be taken from the vehicle: OFFERED, DRIVING or STOPPED (R73). -/
def VehicleState.onDuty : VehicleState → Bool
  | .offered | .driving | .stopped => true
  | _ => false

/-- The reported node is defined and its zone is one the vehicle holds, and a result OK is at the leg's target node (R73). -/
def State.doneAt (s : State) (v target : Nat) (result : DoneResult) (node : Nat) : Bool :=
  (match s.nodeZone node with
    | some z => decide (s.holder z = some v)
    | none => false) && (decide (result ≠ .ok) || decide (node = target))

/-- The vehicle's part of a DONE (R73). -/
def State.standAt (s : State) (v node : Nat) : State :=
  let z := s.nodeZone node
  let s := s.onVeh v fun x =>
    { x with state := .idle, prior := none, offerMs := none, leg := none, node := node, zone := z }
  s.keepZone v z

/-- A DONE (R73). -/
def State.doneFrame (s : State) (v tag index : Nat) (result : DoneResult) (node read : Nat) : State :=
  let x := s.veh v
  if x.state.onDuty && x.onLeg tag index then
    match x.leg with
    | none => s
    | some l =>
      if s.doneAt v l.target result node then (s.standAt v node).orderDone tag v result read
      else s.faultVehicle v .route true
  else s

/-- The node of an ALIVE, by the vehicle's state (R74). -/
def State.aliveNode (s : State) (v node : Nat) : State :=
  let x := s.veh v
  if node = 0 then
    match x.state with
    | .driving | .stopped | .faulted => s.onVeh v fun y => { y with node := 0 }
    | _ => s
  else if (s.nodeZone node).isSome ∧ s.nodeZone node = x.zone then s.onVeh v fun y => { y with node := node }
  else s.faultVehicle v .route true

/-- An ALIVE (R74). -/
def State.aliveFrame (s : State) (v battery node : Nat) : State :=
  (s.onVeh v fun y => { y with battery := min battery 100 }).aliveNode v node

/-- The battery has risen from below the low threshold to it or above (R44, R74). -/
def batteryRose (pre s : State) (v : Nat) : Bool :=
  decide ((pre.veh v).battery < s.vconfig.lowBattery) && decide (s.vconfig.lowBattery ≤ (s.veh v).battery)

/-- The code of a FAULT frame. -/
def faultCodeOf : ReportedFault → FaultCode
  | .drive => .drive
  | .battery => .battery
  | .obstacle => .obstacle
  | .load => .load

/-- A READY (R70). -/
def State.readyFrame (s : State) (v : Nat) : State :=
  let x := s.veh v
  if x.state = .faulted ∧ x.node ≠ 0 then
    let z := s.standingZone v
    let s := (s.keepZone v z).onVeh v fun y => { y with state := .idle, faultCode := none, zone := z }
    match x.order with
    | none => s
    | some t =>
      match s.order t with
      | some o =>
        if o.state = .suspended ∧ o.reason = some .vehicle then s.requestLeg t else s
      | none => s
  else s

/-! ### The port's view of an inbound frame (R81) -/

/-- A frame has come from the vehicle: its silence timer restarts (R68), and the time since its last frame with it (R85). -/
def Vehicle.heard (x : Vehicle) : Vehicle := { x with silenceMs := 0, sinceFrameMs := 0 }

/-- A frame of a joined vehicle: its silence timer restarts; from a LOST vehicle every frame but a JOIN only makes it FAULTED
with LINK (R68, R81). -/
def State.heard (s : State) (v : Nat) (f : State → State) : State :=
  let s := s.onVeh v Vehicle.heard
  if (s.veh v).state = .lost then s.faultVehicle v .link true else f s

/-- A frame of a kind other than JOIN, taken by the sender's slot (R81, R173), and the close of its event. -/
def State.vehicleFrame (s : State) (v : Nat) (f : State → State) : State :=
  if vehicleOk v then
    if (s.veh v).state = .absent then (s.queueHalt v).close s false
    else
      let t := s.heard v f
      t.close s (batteryRose s t v)
  else s

/-- A JOIN, by phase and slot (R65, R67, R81, R173), and the close of its event. -/
def State.joinFrame (s : State) (v node load battery : Nat) : State :=
  if vehicleOk v then
    if s.link.phase = .config then (s.queueHalt v).close s false
    else if (s.veh v).state = .absent then (s.joinAbsent v node load battery).close s false
    else
      let t := (s.onVeh v Vehicle.heard).rejoin v node load battery
      t.close s (batteryRose s t v)
  else s

/-! ### HALT and RESUME of one vehicle (R82, R83) -/

/-- The HALT request's effect on a vehicle that is under way, or IDLE with a GO queued or waiting (R82). DESIGN CHOICE: an IDLE vehicle
whose GO is in transmission, which R82 has no row for, is taken as one with no GO: its state is unchanged, for HALT 0 too, and the end of
that GO still makes it OFFERED (log 52, unsafe). -/
def State.stopVehicle (s : State) (v : Nat) : State :=
  match (s.veh v).state with
  | .offered => s.onVeh v fun x => { x with state := .stopped, prior := some .offered, offerMs := none }
  | .driving => s.onVeh v fun x => { x with state := .stopped, prior := some .driving, offerMs := none }
  | .idle =>
    if s.goQueued v then
      (s.withdrawGo v).onVeh v fun x => { x with state := .stopped, prior := some .offered, offerMs := none }
    else s
  | _ => s

/-- The emergency stop's effect on a vehicle (R79). -/
def State.estopVehicle (s : State) (v : Nat) : State :=
  match (s.veh v).state with
  | .offered => s.onVeh v fun x => { x with state := .stopped, prior := some .offered, offerMs := none }
  | .driving => s.onVeh v fun x => { x with state := .stopped, prior := some .driving, offerMs := none }
  | _ => s

/-- The GO for an order's current leg, with the zones already granted (R83). -/
def State.sendGoAgain (s : State) (v t : Nat) : State :=
  match s.order t with
  | none => s
  | some o =>
    match s.targetNode o with
    | none => s
    | some target =>
      (s.setOrder t { o with goSent := false }).enqueue (.go v t o.progress target o.action o.legZones)

/-- A STOPPED vehicle resumed by its prior state (R83). -/
def State.resumeVehicle (s : State) (v : Nat) : State :=
  let x := s.veh v
  match x.state, x.prior with
  | .stopped, some .driving =>
    (s.onVeh v fun y => { y with state := .driving, prior := none }).enqueue (.resume v)
  | .stopped, some .offered =>
    let s := s.onVeh v fun y => { y with state := .idle, prior := none }
    s.whenSome x.order fun s t => s.sendGoAgain v t
  | _, _ => s

/-! ### A GO sent (R43, R80) -/

/-- The order waits for the GO of its present offer to be sent: it is OFFERED, or CANCELLING on a leg resumed, and that GO has not
been sent (R43, R83). -/
def Order.awaitsGo (o : Order) : Bool := (o.state = .offered || o.state = .cancelling) && !o.goSent

/-- A GO whose last byte has left: its vehicle, IDLE and bound to the order that awaits it, becomes OFFERED with that leg and its offer
timer starts (R43, R69). A GO whose order has been removed, converted or offered anew while it was in transmission changes nothing:
DEDUCED (log 9, unsafe). -/
def State.goSent (s : State) (v t index target : Nat) (zones : List Nat) : State :=
  let x := s.veh v
  match s.order t with
  | none => s
  | some o =>
    if x.state = .idle ∧ x.order = some t ∧ o.awaitsGo = true ∧ s.goQueued v = false then
      (s.setOrder t { o with goSent := true }).onVeh v fun y =>
        { y with state := .offered, leg := some ⟨t, index, target, zones, o.legPassed⟩, offerMs := some 0 }
    else s

/-- The effect of a frame whose transmission has ended (R80). -/
def State.frameSent (s : State) : VehicleFrame → State
  | .go v t index target _ zones => s.goSent v t index target zones
  | _ => s

/-- The first frame that may be sent, GO frames passed over while the emergency stop is asserted, and the queue without it
(R79, R80). -/
def takeSendable (estop : Bool) : List VehicleFrame → Option (VehicleFrame × List VehicleFrame)
  | [] => none
  | f :: fs =>
    if estop && f.isGo then
      match takeSendable estop fs with
      | some (g, rest) => some (g, f :: rest)
      | none => none
    else some (f, fs)

end Sys2Proof.Machine
end

