-- ==== Sys2Proof/Machine/Counting.lean ====
section
/-!
DEFINITION. Input filters (section 7.1), copy events and their classification (7.2, 7.4), the Tension Sampler (7.3), and the blocks
that take each accepted change of a field input (R131).
-/

namespace Sys2Proof.Machine

/-! ### Copies -/

/-- The tested value of a running web (R136). -/
def Web.tested (x : Web) : Nat := if x.fresh then x.maximum else x.deviation.getD 0

/-- The webs of a line that exceed their thresholds, ascending (R137). -/
def State.exceeding (s : State) (l : Nat) : List Nat :=
  (s.runningWebs l).filter fun w => decide (s.threshold l w < (s.web w).tested)

/-- The splice link of the lowest-numbered of these webs in SPLICE with a link (R137). -/
def State.linkAmong (s : State) (ws : List Nat) : Option Nat :=
  ws.findSome? fun w => if (s.web w).kind = .splice then (s.web w).link else none

/-- The class of a counted copy (R137). -/
def State.classify (s : State) (l : Nat) : CopyClass :=
  if (s.line l).divert.level then .divert
  else
    let ws := s.exceeding l
    if ws = [] then .good
    else if ws.any fun w => (s.web w).kind = .start then .start
    else
      match s.linkAmong ws with
      | some r => .splice r
      | none => .tension

/-- A counted copy is tested on a held value, or on none (R136). -/
def State.testedOnHeld (s : State) (l : Nat) : Bool :=
  !(s.line l).divert.level && (s.runningWebs l).any fun w => !(s.web w).fresh

/-- Step 1 of a copy event (R132). -/
def State.gateCopy (s : State) (l : Nat) : State :=
  if s.gateOpen l then
    let c := s.classify l
    let s := if s.testedOnHeld l then s.onLine l fun x => { x with heldCopies := satAdd x.heldCopies 1 } else s
    s.account l c
  else s.onLine l fun x => { x with outside := satAdd x.outside 1 }

/-- Step 2 of a copy event (R132). -/
def State.clearMaxima (s : State) (l : Nat) : State :=
  forEach (s.runningWebs l) (fun w s => s.onWeb w fun x => { x with maximum := 0, fresh := false }) s

/-- Step 3 of a copy event (R132). -/
def State.advanceWebs (s : State) (l : Nat) : State :=
  if s.pressRunning l then forEach (s.runningWebs l) (fun w s => s.advanceWeb w) s else s

/-- A copy event (R132). -/
def State.countCopy (s : State) (l : Nat) : State := ((s.gateCopy l).clearMaxima l).advanceWebs l

/-! ### The Tension Sampler -/

/-- The positions in FIRING or CONFIRM (R135). -/
def State.dwellSet (s : State) : List Nat :=
  allPositions.filter fun p => (s.pos p).sequence = .firing || (s.pos p).sequence = .confirm

/-- The running webs of both lines. -/
def State.allWebs (s : State) : List Nat := allPositions.filter fun p => (s.pos p).isWeb

/-- The modes of the sampler (R135). -/
inductive SamplerMode where
  | scan
  | dwell
  | idle
  deriving DecidableEq, Repr

/-- The mode of the sampler (R135). -/
def State.samplerMode (s : State) : SamplerMode :=
  if s.dwellSet ≠ [] then .dwell else if s.allWebs ≠ [] then .scan else .idle

/-- The first of an ascending list above `n`, else the first of the list (R135). -/
def nextAbove (n : Nat) (ps : List Nat) : Option Nat :=
  match ps.find? fun p => decide (n < p) with
  | some p => some p
  | none => ps.head?

/-- The channel of the interval that starts now (R135). -/
def State.channel (s : State) : Option Nat :=
  match s.samplerMode with
  | .dwell => nextAbove s.sampler.last s.dwellSet
  | .scan => nextAbove s.sampler.last s.allWebs
  | .idle => none

/-- The channel of the interval that starts now is chosen by the mode, and its conversion is under way; in IDLE none is made (R135). -/
def State.chooseChannel (s : State) : State := { s with sampler := { s.sampler with converting := s.channel } }

/-- A conversion interval starts without a conversion ending before it (95_what_each_step_holds.md, CONVERSION_INTERVAL_START). A
conversion already in progress stands, since it ends on its own channel (R135): DEDUCED (log 25, unsafe). -/
def State.startInterval (s : State) : State :=
  match s.sampler.converting with
  | none => s.chooseChannel
  | some _ => s

/-- The deviation of a sample against a setpoint, in deviation units (R134). -/
def deviationOf (sample sp : Nat) : Nat := min 255 (((max sample sp - min sample sp) * 200 + sp - 1) / sp)

/-- The tension record after a delivered sample (R134). -/
def Web.sampled (x : Web) (sample dev : Nat) : Web :=
  { x with sample := some sample, deviation := some dev, maximum := max x.maximum dev, fresh := true, ageMs := 0 }

/-- The sample of web `w` is delivered while its position is WEB, and discarded otherwise (R134). -/
def State.deliverSample (s : State) (w sample : Nat) : State :=
  if (s.pos w).isWeb then
    s.onWeb w fun x => x.sampled sample (deviationOf sample (s.pos w).params.tensionSetpoint)
  else s

/-- A conversion ends: its sample is delivered or discarded, its web becomes the last position converted, and then the next channel is
chosen, the next interval starting in this event (R134, R135; 95_what_each_step_holds.md, TENSION_SAMPLE_DELIVERED: "then the next
channel is chosen"). -/
def State.endConversion (s : State) (sample : Nat) : State :=
  match s.sampler.converting with
  | none => s
  | some w => ({ s.deliverSample w sample with sampler := ⟨w, none⟩ } : State).chooseChannel

/-! ### Press running and the emergency stop -/

/-- Press running to active: START opens, and READY positions may accelerate (R113, R131, R147). -/
def State.pressStarts (s : State) (l : Nat) : State := forEach (positionsOfLine l) (fun p s => s.settle p) (s.openStart l)

/-- Press running to inactive (R123). -/
def State.pressStops (s : State) (l : Nat) : State :=
  forEach (positionsOfLine l) (fun p s => s.onPos p Position.stopped) s

/-- The emergency stop asserted (R79, R124). DESIGN CHOICE: the effects are made in the order in which R79 lists them, the HALT-ALL before
the RESUMEs are withdrawn, so that into a full queue it displaces a GO whatever RESUMEs stand there, and a notice of that GO's order comes
before the ESTOP (log 54, unsafe). -/
def State.estopStarts (s : State) : State :=
  let s := s.queueHaltAll
  let s := forEach allVehicles (fun v s => s.estopVehicle v) s
  let s := s.withdraw VehicleFrame.isResume
  let s := forEach allPositions (fun p s => s.onPos p Position.stopped) s
  s.raise (.estop true)

/-- The emergency stop released (R79, R124). -/
def State.estopEnds (s : State) : State := forEach allPositions (fun p s => s.settle p) (s.raise (.estop false))

/-! ### Filters -/

/-- A filter at one sample with count `n`, and whether the sample makes an accepted change (R129). -/
def Filter.step (f : Filter) (n : Nat) (active : Bool) : Filter × Bool :=
  if active = f.level then ({ f with run := 0 }, false)
  else if n ≤ f.run + 1 then (⟨active, 0⟩, true)
  else ({ f with run := f.run + 1 }, false)

/-- The input belongs to a line or a position the part has. -/
def inputExists : FieldInput → Bool
  | .copy l | .divert l | .pressRunning l => lineOk l
  | .revolutionMark p | .spliceConfirm p => positionOk p
  | .emergencyStop => true

/-- The filter of an input (R130). -/
def State.filter (s : State) : FieldInput → Filter
  | .copy l => (s.line l).copy
  | .divert l => (s.line l).divert
  | .pressRunning l => (s.line l).press
  | .revolutionMark p => (s.pos p).mark
  | .spliceConfirm p => (s.pos p).confirm
  | .emergencyStop => s.estop

/-- The filter of an input set. -/
def State.setFilter (s : State) (i : FieldInput) (f : Filter) : State :=
  match i with
  | .copy l => s.onLine l fun x => { x with copy := f }
  | .divert l => s.onLine l fun x => { x with divert := f }
  | .pressRunning l => s.onLine l fun x => { x with press := f }
  | .revolutionMark p => s.onPos p fun x => { x with mark := f }
  | .spliceConfirm p => s.onPos p fun x => { x with confirm := f }
  | .emergencyStop => { s with estop := f }

/-- The count N of an input's filter (R130). -/
def State.filterCount (s : State) : FieldInput → Nat
  | .copy l | .divert l | .pressRunning l => (s.line l).filterCount
  | _ => 4

/-- What an accepted change does in the block that owns the input (R131). -/
def State.blockTakes (s : State) (i : FieldInput) (active : Bool) : State :=
  match i, active with
  | .copy l, true => s.countCopy l
  | .pressRunning l, true => s.pressStarts l
  | .pressRunning l, false => s.pressStops l
  | .revolutionMark p, true => s.markEvent p
  | .spliceConfirm p, true => (s.confirmed p).close s false
  | .emergencyStop, true => s.estopStarts.close s false
  | .emergencyStop, false => s.estopEnds.close s false
  | _, _ => s

/-- An accepted change of an input to `active`: the filter's own change, then the block's event (R129, R131; log 6). -/
def State.accepted (s : State) (i : FieldInput) (active : Bool) : State :=
  if inputExists i then (s.setFilter i ⟨active, 0⟩).blockTakes i active else s

/-- An accepted change of a level input, which happens only when the level differs from the accepted one (R129; log 6). -/
def State.acceptedLevel (s : State) (i : FieldInput) (active : Bool) : State :=
  if (s.filter i).level = active then s else s.accepted i active

/-- One sample of an input (R129, R130). -/
def State.sampleInput (s : State) (i : FieldInput) (high : Bool) : State :=
  if inputExists i then
    let active := inputActive i high
    let r := (s.filter i).step (s.filterCount i) active
    if r.2 then s.accepted i active else s.setFilter i r.1
  else s

end Sys2Proof.Machine
end

