-- ==== Sys2Proof/Machine/Layout.lean ====
section
/-!
DEFINITION. The codes of section 12.2 and the layouts of sections 12.4 to 12.7: the reel record, the order record, the parameter
block, POSINFO, the run record, splice entries, and the subjects of notices.
-/

namespace Sys2Proof.Machine

/-! ### Codes (12.2) -/

def armCode : Option Arm → Nat
  | none => 0
  | some .A => 1
  | some .B => 2

def ReelState.code : ReelState → Nat
  | .incoming => 1
  | .stored => 2
  | .reserved => 3
  | .inTransit => 4
  | .staged => 5
  | .prepared => 6
  | .running => 7
  | .butt => 8

def Location.kindCode : Location → Nat
  | .atIntake _ => 1
  | .inBay _ _ => 2
  | .onVehicle _ => 3
  | .wasteBound _ => 4
  | .onArm _ _ => 5

/-- The two location fields of the reel record (12.4). -/
def Location.fields : Location → Nat × Nat
  | .atIntake n => (n, 0)
  | .inBay b l => (b, l)
  | .onVehicle v => (v, 0)
  | .wasteBound v => (v, 0)
  | .onArm p a => (p, armCode (some a))

def Origin.code : Origin → Nat
  | .intake => 1
  | .returned => 2

def OrderKind.code : OrderKind → Nat
  | .intake => 1
  | .deliver => 2
  | .ret => 3
  | .clear => 4
  | .relocate => 5
  | .park => 6

def Priority.code : Priority → Nat
  | .normal => 0
  | .urgent => 1

def OrderState.code : OrderState → Nat
  | .waiting => 1
  | .offered => 2
  | .active => 3
  | .heldZones => 4
  | .heldArm => 5
  | .suspended => 6
  | .cancelling => 7

def Reason.code : Reason → Nat
  | .vehicle => 1
  | .wrongReel => 2
  | .emptyPick => 3
  | .blockedDrop => 4
  | .noRoute => 5
  | .noSpace => 6

def VehicleState.code : VehicleState → Nat
  | .absent => 0
  | .idle => 1
  | .offered => 2
  | .driving => 3
  | .stopped => 4
  | .faulted => 5
  | .lost => 6

/-- The prior state of a STOPPED vehicle by its vehicle state's code. DESIGN CHOICE: an absent one, which 12.2 gives no code, is 0 (log 14,
unsafe). -/
def priorCode : Option PriorState → Nat
  | none => 0
  | some .offered => 2
  | some .driving => 3

def FaultCode.code : FaultCode → Nat
  | .drive => 1
  | .battery => 2
  | .obstacle => 3
  | .load => 4
  | .route => 5
  | .link => 6
  | .offer => 7
  | .conflict => 8

def LostReason.code : LostReason → Nat
  | .silent => 1
  | .retired => 2

def Sequence.code : Sequence → Nat
  | .noWeb => 1
  | .noStandby => 2
  | .standby => 3
  | .ready => 4
  | .accel => 5
  | .matched => 6
  | .armed => 7
  | .firing => 8
  | .confirm => 9
  | .failed => 10

def CallOffState.code : CallOffState → Nat
  | .none => 0
  | .raised => 1
  | .waitStock => 2
  | .ordered => 3

def Disposal.code : Disposal → Nat
  | .ordered => 1
  | .backlog => 2
  | .noBay => 3
  | .manual => 4

def FailureCause.code : FailureCause → Nat
  | .noCut => 1
  | .noConfirm => 2

def EnvelopeKind.code : EnvelopeKind → Nat
  | .none => 0
  | .steady => 1
  | .start => 2
  | .splice => 3

def SamplerMode.code : SamplerMode → Nat
  | .idle => 0
  | .scan => 1
  | .dwell => 2

def RunState.code : RunState → Nat
  | .none => 0
  | .active => 1
  | .ended => 2

def SettledBy.code : SettledBy → Nat
  | .confirm => 1
  | .fix => 2

def NoticeMode.code : NoticeMode → Nat
  | .report => 0
  | .auto => 1
  | .both => 2
  | .off => 3

def Phase.code : Phase → Nat
  | .config => 0
  | .run => 1

def GoAction.code : GoAction → Nat
  | .none => 0
  | .pick => 1
  | .drop => 2

/-- A code, or 0 when the value is absent (12.2). -/
def optCode {α : Type} (f : α → Nat) : Option α → Nat
  | some x => f x
  | none => 0

/-- The number `n` in `k` bytes, high byte first. -/
def wideBytes : Nat → Nat → Bytes
  | 0, _ => []
  | k + 1, n => wideBytes k (n / 256) ++ be1 n

/-- A number in a field of `k` bytes, held at the most they carry (log 12). -/
def heldBytes (k n : Nat) : Bytes := wideBytes k (min n (256 ^ k - 1))

/-- A number in a field whose width 12.2 does not state: one to four bytes (log 12). -/
def openField1 (f : Config.OpenField) (n : Nat) : Bytes := heldBytes ((Config.extraWidth f).val + 1) n

/-- The same for a number that takes two bytes: two to five (log 12). -/
def openField2 (f : Config.OpenField) (n : Nat) : Bytes := heldBytes ((Config.extraWidth f).val + 2) n

/-- A list sent as a count byte and its items (12.2). -/
def listBytes (items : List Bytes) : Bytes := be1 items.length ++ items.flatten

/-! ### Reel record (12.4) -/

/-- The reel data block of a record, 11 bytes. -/
def Reel.dataBytes (x : Reel) (id : Nat) : Bytes :=
  be4 id ++ be1 x.grade ++ be1 x.width ++ be2 x.diameter ++ be1 x.caliper ++ be2 x.mass

/-- The reel record, 35 bytes, with the rest values and the count the state `s` gives. -/
def State.reelRecord (s : State) (id : Nat) (x : Reel) : Bytes :=
  x.dataBytes id ++ be4 x.arrival ++ be4 x.restUntil ++ be1 x.origin.code ++ be1 x.state.code ++ be1 x.location.kindCode ++
    be1 x.location.fields.1 ++ be1 x.location.fields.2 ++ opt1 x.reservation ++ opt2 x.tag ++ opt1 x.lastBay ++
    flagByte (s.rested x) ++ be4 (s.restRemaining x) ++ be2 s.reels.count

/-! ### Order record (12.5) -/

/-- A source or destination, 3 bytes. -/
def Place.bytes : Place → Bytes
  | .absent => be1 0 ++ be1 0 ++ be1 0
  | .bay b l => be1 1 ++ be1 b ++ be1 l
  | .arm p a => be1 2 ++ be1 p ++ be1 (armCode a)
  | .node n => be1 3 ++ be1 n ++ be1 0

/-- The order record, 41 bytes; GO sent stands for an OFFERED order, seconds held and the zone in the way for HELD(ZONES) (R62; log 15). -/
def State.orderRecord (s : State) (t : Nat) (o : Order) : Bytes :=
  let held := o.state = .heldZones
  let way := if held then s.zoneInWay o else (0, 0)
  be2 t ++ be1 o.kind.code ++ flagByte o.converted ++ be1 o.priority.code ++ opt4 o.reel ++ o.source.bytes ++
    o.destination.bytes ++ be1 (armCode o.targetArm) ++ be1 o.legs ++ be1 o.progress ++ opt1 o.vehicle ++ be1 o.state.code ++
    be1 (optCode Reason.code o.reason) ++ be4 o.created ++ opt1 o.position ++ flagByte o.heldSince.isSome ++
    opt4 o.heldSince ++ flagByte o.cancelPending ++ flagByte (decide (o.state = .offered) && o.goSent) ++ be4 (if held then s.secondsHeld o else 0) ++
    be1 way.1 ++ be1 way.2 ++ be1 s.orderCount ++ be1 s.orders.backlog.length

/-! ### Positions (12.5) -/

/-- The parameter block, 36 bytes. -/
def paramBytes (q : Params) : Bytes :=
  be2 q.spliceDiameter ++ be1 q.coreDiameter ++ be2 q.returnDiameter ++ be4 q.accelLength ++ be4 q.armLength ++
    be2 q.fireLength ++ be2 q.pasteToCut ++ be2 q.confirmLength ++ be2 q.pastePulse ++ be2 q.cutPulse ++
    be1 q.matchTolerance ++ be2 q.matchHold ++ be2 q.leadTime ++ be4 q.callOffLength ++ be2 q.urgentMargin ++
    be2 q.tensionSetpoint

/-- One arm of POSINFO, 8 bytes. -/
def State.armBytes (s : State) (p : Nat) (a : Arm) : Bytes :=
  let x := s.pos p
  let r := (x.arm a).bind s.reel
  opt4 (x.arm a) ++ be1 (optCode (fun y : Reel => y.state.code) r) ++ opt2 (r.bind (·.tag)) ++
    be1 (optCode Disposal.code (x.disposal a))

/-- A byte of flags, bit 0 first. -/
def bits : List Bool → Nat
  | [] => 0
  | b :: bs => (if b then 1 else 0) + 2 * bits bs

/-- An estimate as reported; the value of an absent one is free (log 14). -/
def estimateBytes : Option Nat → Bytes
  | some e => be2 e
  | none => be2 Config.absentEstimate.toNat

/-- The gauge part of POSINFO with its flags byte, 22 bytes. -/
def Position.gaugeBytes (x : Position) : Bytes :=
  let g := x.gauge
  be4 g.speed ++ be4 g.standbySpeed ++ be2 g.diameter ++ estimateBytes g.estimate ++ be4 g.remaining ++ be2 g.timeToSplice ++
    be1 g.rejections ++ be2 g.deltaL ++
    be1 (bits [g.flagH, g.flagC, g.flagS, g.flagZ, g.markPending, x.callOff.urgencyReported, x.splice.latch,
      x.splice.missed])

/-- The call-off part of POSINFO, 13 bytes. DESIGN CHOICE: a position with no entry in the Demand Queue is sent with queue place 0 and
call-off time 0, for which 12.2 and 12.5 give no code (log 14, unsafe). -/
def State.callOffBytes (s : State) (p : Nat) : Bytes :=
  let x := s.pos p
  be1 x.callOff.state.code ++ flagByte x.callOff.ordersFull ++ opt4 (s.reservedReel p) ++ opt2 (s.deliverOf p) ++
    be1 (s.queuePlace p) ++ opt4 ((s.demandEntry p).map (·.time))

/-- The sequence record part of POSINFO, 19 bytes. DESIGN CHOICE: firing and confirm time past 65,534 ms read 65,534 (log 48, unsafe). -/
def SpliceSequence.bytes (q : SpliceSequence) : Bytes :=
  timerBytes q.matchMs ++ timerBytes q.pasteMs ++ timerBytes q.cutMs ++ be2 (min q.firingMs 65534) ++
    be2 (min q.confirmMs 65534) ++ be2 q.sincePaste ++ be2 q.sinceConfirm ++ be1 (optCode FailureCause.code q.cause) ++
    be4 q.count

/-- The outputs byte of POSINFO. -/
def Outputs.byte (o : Outputs) : Nat := bits [o.accelA, o.accelB, o.paste, o.cut, o.webEnd]

/-- The POSINFO data, 115 bytes. -/
def State.positionBytes (s : State) (p : Nat) : Bytes :=
  let x := s.pos p
  be1 (lineOfPosition p) ++ be1 x.standNode ++ flagByte x.enabled ++ paramBytes x.params ++
    be1 (optCode (·.grade) x.demand) ++ be1 (optCode (·.width) x.demand) ++ flagByte x.isWeb ++ be1 (armCode x.running) ++
    be1 x.sequence.code ++ s.armBytes p .A ++ s.armBytes p .B ++ x.gaugeBytes ++ s.callOffBytes p ++ x.splice.bytes ++
    be1 x.outputs.byte

/-! ### Runs (12.6) -/

/-- The run record up to offset 59. -/
def Run.bytes (x : Run) : Bytes :=
  be4 x.number ++ be1 x.state.code ++ be1 (bits [x.startTime.isSome, x.endTime.isSome, x.reached.isSome, x.frozen]) ++
    be4 x.target ++ opt4 (x.reached.map (·.time)) ++ opt4 (x.reached.map (·.gross)) ++ be4 x.gross ++ be4 x.good ++
    be4 x.wasteStart ++ be4 x.wasteSplice ++ be4 x.wasteTension ++ be4 x.wasteDivert ++ be4 (x.gross - x.good) ++
    be4 x.buttPaper ++ opt4 x.startTime ++ opt4 x.endTime ++ be1 x.splices.length

/-- A splice entry, 27 bytes. -/
def SpliceRecord.bytes (z : SpliceRecord) (number : Nat) : Bytes :=
  be1 number ++ be1 z.position ++ be4 z.oldReel ++ be4 z.newReel ++ be4 z.time ++ be4 z.gross ++ be4 z.charged ++
    be1 z.settledBy.code ++ be4 z.splices

/-- Splice records numbered from `n` on. -/
def spliceEntries : Nat → List SpliceRecord → List Bytes
  | _, [] => []
  | n, z :: zs => z.bytes n :: spliceEntries (n + 1) zs

/-! ### Envelopes (12.6) -/

/-- The envelope block, 25 bytes. -/
def Envelope.bytes (e : Envelope) : Bytes :=
  (e.codes.map be1).flatten ++ (e.levels.map be1).flatten ++ signedByte e.offset

/-! ### Notices (12.7) -/

/-- The subjects of a notice, in the order of R185's table and the widths of 12.2. -/
def Subjects.bytes : Subjects → Bytes
  | .estop a => flagByte a
  | .spliceMissed p r q sb => be1 p ++ be4 r ++ be1 q.code ++ be4 sb
  | .spliceFailed p c r sb l => be1 p ++ be1 c.code ++ be4 r ++ be4 sb ++ be4 l
  | .vehicleLost v r n l => be1 v ++ be1 r.code ++ be1 n ++ be4 l
  | .vehicleFault v c n l t h rec rep => be1 v ++ be1 c.code ++ be1 n ++ be4 l ++ be2 t ++ be1 h ++ be4 rec ++ be4 rep
  | .urgent p ts t => be1 p ++ be2 ts ++ be2 t
  | .callOff p g w l ts c full t => be1 p ++ be1 g ++ be1 w ++ be4 l ++ be2 ts ++ be1 c.code ++ flagByte full ++ be2 t
  | .noStock p g w => be1 p ++ be1 g ++ be1 w
  | .butt p a r d paper st t => be1 p ++ be1 (armCode (some a)) ++ be4 r ++ be2 d ++ be4 paper ++ be1 st.code ++ be2 t
  | .orderHeld t v sec z h => be2 t ++ be1 v ++ be4 sec ++ be1 z ++ be1 h
  | .orderSuspended t r v reel => be2 t ++ be1 r.code ++ be1 v ++ be4 reel
  | .spliceDone p o od n nd b => be1 p ++ be4 o ++ be2 od ++ be4 n ++ be2 nd ++ be1 b.code
  | .orderDone t k r v => be2 t ++ be1 k.code ++ be4 r ++ be1 v
  | .diameter p r b a => be1 p ++ be4 r ++ be2 b ++ be2 a
  | .target l run t g gr => be1 l ++ be4 run ++ be4 t ++ be4 g ++ be4 gr

/-- The payload of a notice frame, with the overflow flag as it stands when transmission begins (R189, R193). -/
def Notice.bytes (n : Notice) (overflow : Bool) : Bytes :=
  be1 n.subjects.source ++ be1 n.level ++ be4 n.time ++ flagByte overflow ++ be1 n.subjects.bytes.length ++ n.subjects.bytes

end Sys2Proof.Machine
end

