-- ==== Sys2Proof/Machine/Frames.lean ====
section
/-!
DEFINITION. Frames of both serial ports: the receiver (R166 to R168), the lengths and fields of section 12.3's tables (R192), and the
frames the part sends (12.1, R193).
-/

namespace Sys2Proof.Machine

/-! ### Receiving -/

/-- What a receiver finds in the bytes it takes (R166 to R168); `addr` is the tag, or the vehicle field. -/
inductive RxEvent where
  | whole (kind addr : Nat) (payload : Bytes)
  | badCheck
  | oversize
  deriving DecidableEq, Repr

/-- The five states of a receiver (R166). -/
inductive RxMode where
  | hunt
  | length
  | header
  | payload
  | check
  deriving DecidableEq, Repr

/-- The state a receiver is in, read off the bytes it holds; `addr` is the bytes of the tag or vehicle field (R166). -/
def Receiver.mode (r : Receiver) (addr : Nat) : RxMode :=
  match r.held with
  | [] => .hunt
  | [_] => .length
  | _ :: len :: rest =>
    if rest.length < 1 + addr then .header else if rest.length < 1 + addr + len.toNat then .payload else .check

/-- The frame after a length byte: its kind, its tag or vehicle field, its payload, judged by its check (R167). -/
def judgeFrame (addr : Nat) (len : Byte) (body : Bytes) : RxEvent :=
  let n := 1 + addr + len.toNat
  if crcBytes (len :: body.take n) = (body.drop n).take 2 then
    .whole (readNat (body.take 1)) (readNat ((body.drop 1).take addr)) ((body.take n).drop (1 + addr))
  else .badCheck

/-- The bytes of a receiver taken one by one from HUNT: what they give, and what stays held. A bad frame's bytes are taken again
from its length byte on (R166, R168). The number bounds the steps; the length of the bytes is enough. -/
def scan (addr : Nat) : Nat → Bytes → List RxEvent × Bytes
  | 0, bs => ([], bs)
  | _, [] => ([], [])
  | n + 1, b :: bs =>
    if b = syncByte then
      match bs with
      | [] => ([], [b])
      | len :: body =>
        if 240 < len.toNat then
          let r := scan addr n bs
          (.oversize :: r.1, r.2)
        else if body.length < 3 + addr + len.toNat then ([], b :: bs)
        else
          match judgeFrame addr len body with
          | .badCheck =>
            let r := scan addr n bs
            (.badCheck :: r.1, r.2)
          | e =>
            let r := scan addr n (body.drop (3 + addr + len.toNat))
            (e :: r.1, r.2)
    else scan addr n bs

/-- The receiver after more bytes, with what they gave; the gap is measured from the last of them (R166). -/
def Receiver.take (r : Receiver) (addr : Nat) (bytes : Bytes) : List RxEvent × Receiver :=
  let all := r.held ++ bytes
  let x := scan addr all.length all
  (x.1, ⟨x.2, 0⟩)

/-! ### Requests (12.3) -/

/-- A payload cut into fields of these widths, when its length is exactly theirs (R192). -/
def fields : List Nat → Bytes → Option (List Nat)
  | [], [] => some []
  | [], _ :: _ => none
  | w :: ws, p => if p.length < w then none else (fields ws (p.drop w)).map fun ns => readNat (p.take w) :: ns

/-- The widths of the reel data block (12.4). -/
def reelWidths : List Nat := [4, 1, 1, 2, 1, 2]

/-- The widths of the parameter block (12.5). -/
def paramWidths : List Nat := [2, 1, 2, 4, 4, 2, 2, 2, 2, 2, 1, 2, 2, 4, 2, 2]

/-- The request kinds of 12.3's table. -/
def requestKinds : List Nat :=
  [0x01, 0x02, 0x03, 0x04, 0x08, 0x09, 0x0A, 0x0B, 0x0C, 0x10, 0x11, 0x12, 0x13, 0x14, 0x15] ++
    [0x18, 0x19, 0x1A, 0x1B, 0x1C, 0x1D, 0x1E, 0x1F, 0x20, 0x21, 0x22, 0x23, 0x24] ++
    [0x28, 0x29, 0x2A, 0x2B, 0x2C, 0x2D, 0x2E, 0x2F, 0x30, 0x31, 0x38, 0x39, 0x3A, 0x3B, 0x3C, 0x40, 0x41, 0x42, 0x43, 0x48]

/-- The field widths of a request kind of fixed length (12.3). -/
def widthsOf : Nat → Option (List Nat)
  | 0x01 | 0x02 | 0x04 | 0x0C => some []
  | 0x03 | 0x13 => some [4]
  | 0x08 | 0x09 | 0x0B | 0x1B | 0x1C | 0x29 | 0x38 | 0x48 => some [1, 1, 1]
  | 0x10 => some (reelWidths ++ [1, 1])
  | 0x11 => some (reelWidths ++ [1, 4, 1, 1])
  | 0x12 => some [4, 1]
  | 0x14 | 0x3C => some [1, 2]
  | 0x15 | 0x2A | 0x2D | 0x2F | 0x31 | 0x43 => some [1, 1]
  | 0x18 => some [1, 4, 1]
  | 0x19 => some [4, 1, 1]
  | 0x1A => some [1, 1, 1, 1]
  | 0x1D => some [2]
  | 0x1E | 0x1F => some [2, 1]
  | 0x20 | 0x21 | 0x22 | 0x23 | 0x2C | 0x2E | 0x30 | 0x39 | 0x41 | 0x42 => some [1]
  | 0x24 => some [1, 1, 1, 2]
  | 0x28 => some (1 :: paramWidths)
  | 0x2B => some ([1, 1] ++ reelWidths ++ [1])
  | 0x3B => some [1, 1, 2, 1, 2]
  | 0x40 => some [1, 4, 4]
  | _ => none

/-- The link and store requests made of their fields (12.3). -/
def hallRequest : Nat → List Nat → Option Request
  | 0x01, [] => some .ident
  | 0x02, [] => some .status
  | 0x03, [v] => some (.setclock v)
  | 0x04, [] => some .restart
  | 0x08, [n, z, k] => some (.defnode n z k)
  | 0x09, [b, n, h] => some (.defbay b n h)
  | 0x0B, [p, n, e] => some (.defpos p n e)
  | 0x0C, [] => some .commit
  | 0x10, [r, g, w, d, c, m, n, b] => some (.intake ⟨r, g, w, d, c, m⟩ n b)
  | 0x11, [r, g, w, d, c, m, o, a, b, l] => some (.restock ⟨r, g, w, d, c, m⟩ o a b l)
  | 0x12, [r, m] => some (.reelinfo r m)
  | 0x13, [r] => some (.remove r)
  | 0x14, [g, m] => some (.resttime g m)
  | 0x15, [b, m] => some (.bayinfo b m)
  | _, _ => none

/-- The transport requests made of their fields (12.3). -/
def transportRequest : Nat → List Nat → Option Request
  | 0x18, [p, r, q] => some (.deliver p r q)
  | 0x19, [r, b, q] => some (.relocate r b q)
  | 0x1A, [p, a, b, q] => some (.ret p a b q)
  | 0x1B, [p, a, q] => some (.clear p a q)
  | 0x1C, [v, n, q] => some (.park v n q)
  | 0x1D, [t] => some (.cancel t)
  | 0x1E, [t, a] => some (.resolve t a)
  | 0x1F, [t, m] => some (.orderinfo t m)
  | 0x20, [v] => some (.halt v)
  | 0x21, [v] => some (.resume v)
  | 0x22, [v] => some (.retire v)
  | 0x23, [v] => some (.vehinfo v)
  | 0x24, [o, h, b, z] => some (.vehcfg o h b z)
  | _, _ => none

/-- The position requests made of their fields (12.3). -/
def positionRequest : Nat → List Nat → Option Request
  | 0x28, [p, a, b, c, d, e, f, g, h, i, j, k, l, m, n, o, q] =>
    some (.poscfg p ⟨a, b, c, d, e, f, g, h, i, j, k, l, m, n, o, q⟩)
  | 0x29, [p, g, w] => some (.demand p g w)
  | 0x2A, [p, a] => some (.thread p a)
  | 0x2B, [p, a, r, g, w, d, c, m, _] => some (.loadreel p a ⟨r, g, w, d, c, m⟩)
  | 0x2C, [p] => some (.unload p)
  | 0x2D, [p, a] => some (.buttoff p a)
  | 0x2E, [p] => some (.posinfo p)
  | 0x2F, [p, a] => some (.prepared p a)
  | 0x30, [p] => some (.splicenow p)
  | 0x31, [p, a] => some (.splicefix p a)
  | _, _ => none

/-- The line, envelope, run and notice requests made of their fields (12.3). -/
def lineRequest : Nat → List Nat → Option Request
  | 0x38, [l, st, f] => some (.linecfg l st f)
  | 0x39, [l] => some (.lineinfo l)
  | 0x3B, [l, a, sa, b, sb] => some (.envsel l a sa b sb)
  | 0x3C, [k, n] => some (.envinfo k n)
  | 0x40, [l, n, t] => some (.runstart l n t)
  | 0x41, [l] => some (.runend l)
  | 0x42, [l] => some (.runinfo l)
  | 0x43, [l, n] => some (.splicelist l n)
  | 0x48, [k, m, v] => some (.noticecfg k m v)
  | _, _ => none

/-- A request of fixed length made of its fields. -/
def requestOf (kind : Nat) (ns : List Nat) : Option Request :=
  ((hallRequest kind ns).orElse fun _ => transportRequest kind ns).orElse fun _ =>
    (positionRequest kind ns).orElse fun _ => lineRequest kind ns

/-- DEFROUTE: 5 plus the zone count byte, the count 0..8 (R192). -/
def readRoute (p : Bytes) : Option Request :=
  match fields [1, 1, 2, 1] (p.take 5) with
  | some [src, dst, len, n] =>
    if n ≤ 8 ∧ p.length = 5 + n then some (.defroute src dst len ((p.drop 5).map (·.toNat))) else none
  | _ => none

/-- ENVSET: 2 with action CLEAR or 27 with action WRITE (R192). -/
def readEnvset (p : Bytes) : Option Request :=
  match fields [1, 1] (p.take 2) with
  | some [slot, action] =>
    if action = 2 ∧ p.length = 2 then some (.envset slot 2 [] [] 0)
    else if action = 1 ∧ p.length = 27 then
      some (.envset slot 1 (((p.drop 2).take 12).map (·.toNat)) (((p.drop 14).take 12).map (·.toNat))
        (readSigned (p.getD 26 0#8)))
    else none
  | _ => none

/-- The request a payload of this kind carries; none when its length does not fit the kind (R192). -/
def readRequest (kind : Nat) (p : Bytes) : Option Request :=
  match kind with
  | 0x0A => readRoute p
  | 0x3A => readEnvset p
  | _ => ((widthsOf kind).bind fun ws => fields ws p).bind (requestOf kind)

/-- The kind of a request (12.3). -/
def kindOf : Request → Nat
  | .ident => 0x01
  | .status => 0x02
  | .setclock .. => 0x03
  | .restart => 0x04
  | .defnode .. => 0x08
  | .defbay .. => 0x09
  | .defroute .. => 0x0A
  | .defpos .. => 0x0B
  | .commit => 0x0C
  | .intake .. => 0x10
  | .restock .. => 0x11
  | .reelinfo .. => 0x12
  | .remove .. => 0x13
  | .resttime .. => 0x14
  | .bayinfo .. => 0x15
  | .deliver .. => 0x18
  | .relocate .. => 0x19
  | .ret .. => 0x1A
  | .clear .. => 0x1B
  | .park .. => 0x1C
  | .cancel .. => 0x1D
  | .resolve .. => 0x1E
  | .orderinfo .. => 0x1F
  | .halt .. => 0x20
  | .resume .. => 0x21
  | .retire .. => 0x22
  | .vehinfo .. => 0x23
  | .vehcfg .. => 0x24
  | .poscfg .. => 0x28
  | .demand .. => 0x29
  | .thread .. => 0x2A
  | .loadreel .. => 0x2B
  | .unload .. => 0x2C
  | .buttoff .. => 0x2D
  | .posinfo .. => 0x2E
  | .prepared .. => 0x2F
  | .splicenow .. => 0x30
  | .splicefix .. => 0x31
  | .linecfg .. => 0x38
  | .lineinfo .. => 0x39
  | .envset .. => 0x3A
  | .envsel .. => 0x3B
  | .envinfo .. => 0x3C
  | .runstart .. => 0x40
  | .runend .. => 0x41
  | .runinfo .. => 0x42
  | .splicelist .. => 0x43
  | .noticecfg .. => 0x48

/-- The reel data block as it travels (12.4). -/
def reelDataBytes (d : ReelData) : Bytes :=
  be4 d.id ++ be1 d.grade ++ be1 d.width ++ be2 d.diameter ++ be1 d.caliper ++ be2 d.mass

/-- The payload in which the line computer sends a request: the fields of 12.3's row in its order, the spare byte of LOADREEL
0. -/
def requestPayload : Request → Bytes
  | .ident | .status | .restart | .commit => []
  | .setclock v => be4 v
  | .defnode n z k => be1 n ++ be1 z ++ be1 k
  | .defbay b n h => be1 b ++ be1 n ++ be1 h
  | .defroute a b len zs => be1 a ++ be1 b ++ be2 len ++ be1 zs.length ++ (zs.map be1).flatten
  | .defpos p n e => be1 p ++ be1 n ++ be1 e
  | .intake d n b => reelDataBytes d ++ be1 n ++ be1 b
  | .restock d o a b l => reelDataBytes d ++ be1 o ++ be4 a ++ be1 b ++ be1 l
  | .reelinfo r m => be4 r ++ be1 m
  | .remove r => be4 r
  | .resttime g m => be1 g ++ be2 m
  | .bayinfo b m => be1 b ++ be1 m
  | .deliver p r q => be1 p ++ be4 r ++ be1 q
  | .relocate r b q => be4 r ++ be1 b ++ be1 q
  | .ret p a b q => be1 p ++ be1 a ++ be1 b ++ be1 q
  | .clear p a q => be1 p ++ be1 a ++ be1 q
  | .park v n q => be1 v ++ be1 n ++ be1 q
  | .cancel t => be2 t
  | .resolve t a => be2 t ++ be1 a
  | .orderinfo t m => be2 t ++ be1 m
  | .halt v | .resume v | .retire v | .vehinfo v => be1 v
  | .vehcfg o h b z => be1 o ++ be1 h ++ be1 b ++ be2 z
  | .poscfg p q => be1 p ++ paramBytes q
  | .demand p g w => be1 p ++ be1 g ++ be1 w
  | .thread p a | .buttoff p a | .prepared p a | .splicefix p a => be1 p ++ be1 a
  | .loadreel p a d => be1 p ++ be1 a ++ reelDataBytes d ++ be1 0
  | .unload p | .posinfo p | .splicenow p => be1 p
  | .linecfg l st f => be1 l ++ be1 st ++ be1 f
  | .lineinfo l | .runend l | .runinfo l => be1 l
  | .envset k a cs ls o =>
    be1 k ++ be1 a ++ (if a = 1 then (cs.map be1).flatten ++ (ls.map be1).flatten ++ signedByte o else [])
  | .envsel l a sa b sb => be1 l ++ be1 a ++ be2 sa ++ be1 b ++ be2 sb
  | .envinfo k n => be1 k ++ be2 n
  | .runstart l n t => be1 l ++ be4 n ++ be4 t
  | .splicelist l n => be1 l ++ be1 n
  | .noticecfg k m v => be1 k ++ be1 m ++ be1 v

/-! ### Inbound vehicle frames (12.3) -/

/-- A frame of the vehicle link as the part takes it (section 4.5). -/
inductive VehicleInput where
  | join (node load battery : Nat)
  | take (tag leg : Nat)
  | pass (zone : Nat)
  | done (tag leg : Nat) (result : DoneResult) (node reel : Nat)
  | alive (battery node : Nat)
  | fault (code : ReportedFault)
  | ready
  deriving DecidableEq, Repr

/-- A DONE result code (12.2). -/
def doneResultOf : Nat → Option DoneResult
  | 0 => some .ok
  | 1 => some .empty
  | 2 => some .blocked
  | 3 => some .abandoned
  | _ => none

/-- The code of a FAULT frame (R192). -/
def reportedFaultOf : Nat → Option ReportedFault
  | 1 => some .drive
  | 2 => some .battery
  | 3 => some .obstacle
  | 4 => some .load
  | _ => none

/-- The frame a payload carries; none when the kind is not one of the seven, or its length or codes do not fit (R81, R192). -/
def readVehicle (kind : Nat) (p : Bytes) : Option VehicleInput :=
  match kind with
  | 0x11 =>
    match fields [1, 4, 1] p with
    | some [n, r, b] => some (.join n r b)
    | _ => none
  | 0x12 =>
    match fields [2, 1] p with
    | some [t, i] => some (.take t i)
    | _ => none
  | 0x13 =>
    match fields [1] p with
    | some [z] => some (.pass z)
    | _ => none
  | 0x14 =>
    match fields [2, 1, 1, 1, 4] p with
    | some [t, i, c, n, r] => (doneResultOf c).map fun d => .done t i d n r
    | _ => none
  | 0x15 =>
    match fields [1, 1] p with
    | some [b, n] => some (.alive b n)
    | _ => none
  | 0x16 =>
    match fields [1] p with
    | some [c] => (reportedFaultOf c).map .fault
    | _ => none
  | 0x17 =>
    match p with
    | [] => some .ready
    | _ => none
  | _ => none

/-! ### Sending (12.1, 12.7) -/

/-- A frame of the line link (12.1). -/
def lineFrame (kind tag : Nat) (payload : Bytes) : Bytes :=
  let body := be1 payload.length ++ be1 kind ++ be2 tag ++ payload
  syncByte :: (body ++ crcBytes body)

/-- A frame of the vehicle link (12.1). -/
def vehicleLinkFrame (kind v : Nat) (payload : Bytes) : Bytes :=
  let body := be1 payload.length ++ be1 kind ++ be1 v ++ payload
  syncByte :: (body ++ crcBytes body)

/-- An outbound vehicle frame (12.3). -/
def VehicleFrame.bytes : VehicleFrame → Bytes
  | .go v t i n a zs =>
    vehicleLinkFrame 0x01 v (be2 t ++ be1 i ++ be1 n ++ be1 a.code ++ listBytes (zs.map be1))
  | .halt v => vehicleLinkFrame 0x02 v []
  | .resume v => vehicleLinkFrame 0x03 v []
  | .abandon v t i => vehicleLinkFrame 0x04 v (be2 t ++ be1 i)

/-- A reply or port answer (R171, R193). -/
def Reply.bytes (r : Reply) : Bytes := lineFrame r.kind r.tag r.payload

/-- A notice: kind 127, tag 0 (R189, R193). -/
def Notice.frame (n : Notice) (overflow : Bool) : Bytes := lineFrame 127 0 (n.bytes overflow)

end Sys2Proof.Machine
end

