-- ==== Sys2Proof/Machine/Link.lean ====
section
/-!
DEFINITION. The Line Link Port (chapter 10): judging received frames (R169), the port reply queue (R172), status codes and the
answer of a request (R171, R193), the transmitter (R172, R189); and the Vehicle Link Port's reception (R81) and transmitter (R80).
-/

namespace Sys2Proof.Machine

/-! ### Answers -/

/-- The status codes (R171). -/
inductive Status where
  | ok
  | phase
  | range
  | unknown
  | state
  | full
  | conflict
  | signature
  | busy
  | badkind
  | badlen
  deriving DecidableEq, Repr

def Status.code : Status → Nat
  | .ok => 0
  | .phase => 1
  | .range => 2
  | .unknown => 3
  | .state => 4
  | .full => 5
  | .conflict => 6
  | .signature => 7
  | .busy => 8
  | .badkind => 9
  | .badlen => 10

/-- What a taken request answers: its status and the data after it (R193). -/
structure Answer where
  status : Status
  data : Bytes
  deriving DecidableEq, Repr

/-- A request refused: nothing changed, the status alone (R171). -/
def State.refuse (s : State) (c : Status) : State × Answer := (s, ⟨c, []⟩)

/-- A request that did what its entry states. -/
def State.grant (s : State) (data : Bytes) : State × Answer := (s, ⟨.ok, data⟩)

/-- A reply joins the reply queue (R171). -/
def State.pushReply (s : State) (r : Reply) : State :=
  { s with link := { s.link with replies := s.link.replies ++ [r] } }

/-! ### Transmitters

`State.transmit` ends every event that can put a frame into a queue: each free transmitter takes its next frame at once. -/

/-- The line link transmitter takes its next frame: port replies, then replies, then the first notice (R172, R189). -/
def State.startLineFrame (s : State) : State :=
  match s.link.portReplies, s.link.replies, s.notices.queue with
  | r :: rs, _, _ => { s with link := { s.link with tx := some r.bytes, portReplies := rs } }
  | [], r :: rs, _ => { s with link := { s.link with tx := some r.bytes, replies := rs } }
  | [], [], n :: ns =>
    { s with
      link := { s.link with tx := some (n.frame s.notices.overflow) }
      notices := { s.notices with queue := ns } }
  | [], [], [] => { s with link := { s.link with tx := none } }

/-- The vehicle link transmitter starts its next frame (R79, R80). -/
def State.startVehicleFrame (s : State) : State :=
  match takeSendable s.estop.level s.vlink.queue with
  | some (f, rest) =>
    ({ s with vlink := { s.vlink with tx := some ⟨f, f.bytes⟩ } } : State).setFrames rest s.vlink.waiting
  | none => { s with vlink := { s.vlink with tx := none } }

/-- Each free transmitter takes its next frame (R80, R172), once the event's own changes are made (log 8). -/
def State.transmit (s : State) : State :=
  let s := if s.link.tx.isSome then s else s.startLineFrame
  if s.vlink.tx.isSome then s else s.startVehicleFrame

/-- The end of the frame in transmission, if there is one (R43, R80). -/
def State.endVehicleFrame (s : State) : State :=
  match s.vlink.tx with
  | some x => ({ s with vlink := { s.vlink with tx := none } } : State).frameSent x.frame
  | none => s

/-! ### Reception on the line link -/

/-- The link counts changed. -/
def State.onCounts (s : State) (f : LinkCounts → LinkCounts) : State :=
  { s with link := { s.link with counts := f s.link.counts } }

/-- A port reply, or its loss when the port reply queue is full (R172). -/
def State.portReply (s : State) (r : Reply) : State :=
  if s.link.portReplies.length < 4 then { s with link := { s.link with portReplies := s.link.portReplies ++ [r] } }
  else s.onCounts fun c => { c with lostReply := satAdd c.lostReply 1 }

/-- A whole frame judged by kind, length and room (R169). -/
def State.judgeRequest (s : State) (kind tag : Nat) (payload : Bytes) : State :=
  if kind ∈ requestKinds then
    match readRequest kind payload with
    | none =>
      (s.onCounts fun c => { c with badLen := satAdd c.badLen 1 }).portReply ⟨kind + 128, tag, be1 Status.badlen.code⟩
    | some r =>
      if s.link.requests.length < 4 then
        let s := s.onCounts fun c => { c with accepted := satAdd c.accepted 1 }
        { s with link := { s.link with requests := s.link.requests ++ [⟨tag, r⟩] } }
      else (s.onCounts fun c => { c with busy := satAdd c.busy 1 }).portReply ⟨kind + 128, tag, be1 Status.busy.code⟩
  else
    (s.onCounts fun c => { c with badKind := satAdd c.badKind 1 }).portReply
      ⟨128, tag, be1 Status.badkind.code ++ be1 kind⟩

/-- What the line link receiver finds, acted on (R166, R168, R169). -/
def State.lineEvent (s : State) : RxEvent → State
  | .whole kind tag payload => s.judgeRequest kind tag payload
  | .badCheck => (s.onCounts fun c => { c with badCheck := satAdd c.badCheck 1 }).portReply ⟨128, 0, []⟩
  | .oversize => s.onCounts fun c => { c with oversize := satAdd c.oversize 1 }

/-- Bytes taken by the line link receiver (R166 to R169); each frame found is an event of its own, after which a free transmitter
takes its next frame (R172; log 8). -/
def State.lineBytes (s : State) (bytes : Bytes) : State :=
  let r := s.link.rx.take 2 bytes
  r.1.foldl (fun s e => (s.lineEvent e).transmit) { s with link := { s.link with rx := r.2 } }

/-! ### Reception on the vehicle link -/

/-- A discarded frame counted (R81; log 37). -/
def State.discardFrame (s : State) : State := { s with vlink := { s.vlink with discarded := satAdd s.vlink.discarded 1 } }

/-- A frame of vehicle `v` acted on by its kind (R81). -/
def State.vehicleInput (s : State) (v : Nat) : VehicleInput → State
  | .join n r b => s.joinFrame v n r b
  | .take t i => s.vehicleFrame v fun s => s.takeFrame v t i
  | .pass z => s.vehicleFrame v fun s => s.passFrame v z
  | .done t i d n r => s.vehicleFrame v fun s => s.doneFrame v t i d n r
  | .alive b n => s.vehicleFrame v fun s => s.aliveFrame v b n
  | .fault c => s.vehicleFrame v fun s => s.faultVehicle v (faultCodeOf c) false
  | .ready => s.vehicleFrame v fun s => s.readyFrame v

/-- What the vehicle link receiver finds, acted on (R81, R166, R192). -/
def State.vehicleEvent (s : State) : RxEvent → State
  | .whole kind v payload =>
    match readVehicle kind payload with
    | some f => if vehicleOk v then s.vehicleInput v f else s.discardFrame
    | none => s.discardFrame
  | _ => s.discardFrame

/-- Bytes taken by the vehicle link receiver (R81, R166 to R168), each frame found an event of its own. -/
def State.vehicleBytes (s : State) (bytes : Bytes) : State :=
  let r := s.vlink.rx.take 1 bytes
  r.1.foldl (fun s e => (s.vehicleEvent e).transmit) { s with vlink := { s.vlink with rx := r.2 } }

/-! ### Oversize lengths and gaps -/

/-- A length byte above 240 ends the frame at once (R166): taken in LENGTH, or after a sync byte of its own in HUNT (log 7). -/
def Receiver.oversized (r : Receiver) (length : Byte) : Bool := decide (240 < length.toNat) && decide (r.held.length ≤ 1)

/-- An oversize length byte on a port (R166). -/
def State.oversizeOn (s : State) (p : Port) (length : Byte) : State :=
  match p with
  | .line =>
    if s.link.rx.oversized length then
      { s with link := { s.link with
          rx := Receiver.hunt, counts := { s.link.counts with oversize := satAdd s.link.counts.oversize 1 } } }
    else s
  | .vehicle =>
    if s.vlink.rx.oversized length then ({ s with vlink := { s.vlink with rx := Receiver.hunt } } : State).discardFrame else s

/-- A gap of more than 50 ms inside a frame (R166). -/
def State.gapOn (s : State) (p : Port) : State :=
  match p with
  | .line =>
    if s.link.rx.held = [] then s
    else
      { s with link := { s.link with
          rx := Receiver.hunt, counts := { s.link.counts with gap := satAdd s.link.counts.gap 1 } } }
  | .vehicle =>
    if s.vlink.rx.held = [] then s
    else ({ s with vlink := { s.vlink with rx := Receiver.hunt } } : State).discardFrame

end Sys2Proof.Machine
end

