-- ==== Sys2Proof/Machine/RequestsLines.lean ====
section
/-!
DEFINITION. The requests of chapters 7, 8, 9 and 11: LINECFG, LINEINFO, ENVSET, ENVSEL, ENVINFO, RUNSTART, RUNEND, RUNINFO,
SPLICELIST and NOTICECFG.
-/

namespace Sys2Proof.Machine

/-! ### LINECFG and LINEINFO (R139, R140) -/

/-- LINECFG (R139). -/
def State.reqLinecfg (s : State) (l steady filter : Nat) : State × Answer :=
  if lineOk l then
    let st := min steady 31
    let n := clampTo 2 8 filter
    (s.onLine l fun x => { x with steady := st, filterCount := n }).grant (be1 st ++ be1 n)
  else s.refuse .range

/-- A tension sample as reported; the value of an absent one is free (log 14). -/
def sampleBytes : Option Nat → Bytes
  | some n => be2 n
  | none => be2 Config.absentSample.toNat

/-- A tension deviation as reported; the value of an absent one is free (log 14). -/
def deviationBytes : Option Nat → Bytes
  | some n => be1 n
  | none => be1 Config.absentDeviation.toNat

/-- A sample age as reported; without a sample it is free (log 14). -/
def Web.ageBytes (x : Web) : Bytes := if x.sample.isSome then be2 (min x.ageMs 65535) else be2 Config.absentSampleAge.toNat

/-- One position of LINEINFO: a position that is not WEB is reported with its record blank and its link absent (R140). DESIGN CHOICE: an
absent splice link, which 12.2 gives no code, is sent as 0 (log 14, unsafe). -/
def State.webBytes (s : State) (w : Nat) : Bytes :=
  let run := (s.pos w).isWeb
  let x := if run then s.web w else Web.blank
  flagByte run ++ sampleBytes x.sample ++ deviationBytes x.deviation ++ be1 x.maximum ++ flagByte x.fresh ++ x.ageBytes ++
    opt1 x.link ++ be1 x.kind.code ++ be2 x.index ++ opt1 x.slot

/-- LINEINFO (R140). -/
def State.reqLineinfo (s : State) (l : Nat) : State × Answer :=
  if lineOk l then
    let x := s.line l
    s.grant (be1 x.filterCount ++ be1 x.steady ++ flagByte x.copy.level ++ flagByte x.divert.level ++ flagByte x.press.level ++
      flagByte (s.gateOpen l) ++ be1 x.run.state.code ++ be4 x.outside ++ be4 x.heldCopies ++ be1 s.samplerMode.code ++
      listBytes (s.dwellSet.map be1) ++ be1 s.sampler.last ++ ((positionsOfLine l).map s.webBytes).flatten)
  else s.refuse .range

/-! ### ENVSET (R151) -/

/-- The line selects slot `k`, for START or for SPLICE (R145). -/
def Line.selects (x : Line) (k : Nat) : Bool := x.startSlot = k || x.spliceSlot = k

/-- Check 3 of R151: a line whose run is ACTIVE selects the slot. -/
def State.slotSelected (s : State) (k : Nat) : Bool :=
  [1, 2].any fun l => decide ((s.line l).run.state = .active) && (s.line l).selects k

/-- Check 4 of R151: a web's envelope has the slot as its opening slot. -/
def State.slotOpened (s : State) (k : Nat) : Bool := allPositions.any fun w => decide ((s.web w).slot = some k)

/-- The action and content of an ENVSET: WRITE with an envelope in range, or CLEAR; none where a code or a level is out of range
(R151, checks 1 and 2). -/
def envsetContent (action : Nat) (codes levels : List Nat) (offset : Int) : Option (Option Envelope) :=
  if action = 2 then some none
  else if action = 1 ∧ codes.length = 12 ∧ levels.length = 12 ∧ codes.all (· ≤ 15) = true ∧ levels.all (· ≤ 31) = true then
    some (some ⟨codes, levels, clampOffset offset⟩)
  else none

/-- The slot written or cleared. -/
def State.setSlot (s : State) (k : Nat) : Option Envelope → State
  | some e => { s with slots := s.slots.insert k e }
  | none => { s with slots := s.slots.erase k }

/-- A line's selections that name the slot set to 0 (R151). -/
def Line.deselect (x : Line) (k : Nat) : Line :=
  { x with
    startSlot := if x.startSlot = k then 0 else x.startSlot
    spliceSlot := if x.spliceSlot = k then 0 else x.spliceSlot }

/-- The selections that name a slot, as bits in the order of ENVINFO's selection byte (12.6). -/
def State.selectionBits (s : State) (k : Nat) : Nat :=
  bits [decide ((s.line 1).startSlot = k), decide ((s.line 1).spliceSlot = k), decide ((s.line 2).startSlot = k),
    decide ((s.line 2).spliceSlot = k)]

/-- The selections that name a slot, each as line and kind, line 1 before line 2 and START before SPLICE (R151, 12.2). -/
def State.selectionsOf (s : State) (k : Nat) : List Bytes :=
  [1, 2].flatMap fun l =>
    (if (s.line l).startSlot = k then [be1 l ++ be1 EnvelopeKind.start.code] else []) ++
      (if (s.line l).spliceSlot = k then [be1 l ++ be1 EnvelopeKind.splice.code] else [])

/-- A slot's state, offset, signature and length in the ENVSET reply; an EMPTY slot's offset and length are free (log 14). -/
def slotBytes : Option Envelope → Bytes
  | some e => be1 1 ++ signedByte e.offset ++ be2 e.signature ++ be2 e.length
  | none => be1 0 ++ [Config.emptySlotOffset] ++ be2 0 ++ be2 Config.emptySlotLength.toNat

/-- The slot written or cleared, the selections that name it dropped when its content has changed (R145, R151). -/
def State.writeSlot (s : State) (k : Nat) (e : Option Envelope) : State :=
  if s.slot k = e then s
  else ((s.setSlot k e).onLine 1 fun x => x.deselect k).onLine 2 fun x => x.deselect k

/-- ENVSET, with its checks in order (R151). The reply ends with the selections set to 0, a list of line and kind (12.2; log 42 on their
order). -/
def State.reqEnvset (s : State) (k action : Nat) (codes levels : List Nat) (offset : Int) : State × Answer :=
  match slotOk k, envsetContent action codes levels offset with
  | true, some e =>
    if s.slotSelected k || s.slotOpened k then s.refuse .state
    else
      (s.writeSlot k e).grant (slotBytes e ++
        listBytes (if s.slot k = e then [] else s.selectionsOf k))
  | _, _ => s.refuse .range

/-! ### ENVSEL and ENVINFO (R152, R153) -/

/-- The check of one selection: none, or a FULL slot with the signature given (R152). -/
def State.selectionFault (s : State) (k signature : Nat) : Option Status :=
  if k = 0 then none
  else
    match s.slot k with
    | none => some .state
    | some e => if e.signature = signature then none else some .signature

/-- ENVSEL, with its checks in order (R152). DESIGN CHOICE: the reply sends each selection with its signature behind it, START's before
SPLICE's (log 15, unsafe). -/
def State.reqEnvsel (s : State) (l a sa b sb : Nat) : State × Answer :=
  if !(lineOk l && decide (a ≤ 4) && decide (b ≤ 4)) then s.refuse .range
  else
    match s.selectionFault a sa, s.selectionFault b sb with
    | some c, _ => s.refuse c
    | none, some c => s.refuse c
    | none, none =>
      (s.onLine l fun x => { x with startSlot := a, spliceSlot := b }).grant
        (be1 a ++ be2 (s.signatureOf a) ++ be1 b ++ be2 (s.signatureOf b))

/-- The probe of ENVINFO: segment, level and threshold at an index, 0 where the web is STEADY (R153, 12.6). -/
def Envelope.probeBytes (e : Envelope) (n : Nat) : Bytes :=
  match e.segment n with
  | some g => be1 g.number ++ signedByte (e.levelIn g n) ++ be1 (e.thresholdOf (e.levelIn g n))
  | none => be1 0 ++ be1 0 ++ be1 0

/-- The check by which ENVSET would now be refused: 0, 3 or 4 (R153). -/
def State.refusingCheck (s : State) (k : Nat) : Nat := if s.slotSelected k then 3 else if s.slotOpened k then 4 else 0

/-- The webs opened from a slot, with kind and index (R153). DESIGN CHOICE: they are listed by ascending web number (log 42, unsafe). -/
def State.websOpened (s : State) (k : Nat) : List Bytes :=
  (allPositions.filter fun w => decide ((s.web w).slot = some k)).map fun w =>
    be1 w ++ be1 (s.web w).kind.code ++ be2 (s.web w).index

/-- ENVINFO (R153). -/
def State.reqEnvinfo (s : State) (k n : Nat) : State × Answer :=
  if slotOk k then
    match s.slot k with
    | none => s.grant (be1 0 ++ be2 0)
    | some e =>
      s.grant (be1 1 ++ e.bytes ++ be2 e.signature ++ (e.boundaries.map be2).flatten ++ e.probeBytes n ++
        be1 (s.selectionBits k) ++ listBytes (s.websOpened k) ++ be1 (s.refusingCheck k))
  else s.refuse .range

/-! ### Runs (R162 to R165) -/

/-- RUNSTART (R162). -/
def State.reqRunstart (s : State) (l number target : Nat) : State × Answer :=
  if !(lineOk l && (1 ≤ number && number ≤ counterMax) && decide (target ≤ counterMax)) then s.refuse .range
  else if (s.line l).run.state = .active then s.refuse .state
  else
    let t := forEach (positionsOfLine l) (fun w s => s.onWeb w fun x => { x with link := none }) s
    (t.onRun l fun _ => Run.opened number target s.clock.seconds).grant
      (be4 number ++ be4 target ++ be4 s.clock.seconds)

/-- RUNEND (R163). -/
def State.reqRunend (s : State) (l : Nat) : State × Answer :=
  if lineOk l = false then s.refuse .range
  else if (s.line l).run.state = .active then
    let t := s.onRun l fun x => x.closed s.clock.seconds
    t.grant (t.line l).run.bytes
  else s.refuse .state

/-- RUNINFO (R164); an absent splice link is sent as 0, as in LINEINFO (log 14). -/
def State.reqRuninfo (s : State) (l : Nat) : State × Answer :=
  if lineOk l then s.grant ((s.line l).run.bytes ++ ((positionsOfLine l).map fun w => opt1 (s.web w).link).flatten)
  else s.refuse .range

/-- SPLICELIST (R165). -/
def State.reqSplicelist (s : State) (l first : Nat) : State × Answer :=
  if lineOk l && (1 ≤ first && first ≤ 64) then
    let x := (s.line l).run
    s.grant (be4 x.number ++ be1 x.state.code ++ be1 x.splices.length ++
      (spliceEntries first ((x.splices.drop (first - 1)).take 8)).flatten)
  else s.refuse .range

/-! ### NOTICECFG (R191) -/

/-- A mode of NOTICECFG: one of the four, or KEEP (12.2). -/
def noticeModeOf : Nat → Option (Option NoticeMode)
  | 0 => some (some .report)
  | 1 => some (some .auto)
  | 2 => some (some .both)
  | 3 => some (some .off)
  | 255 => some none
  | _ => none

/-- A level of NOTICECFG: 0..3, or KEEP (R191). -/
def noticeLevelOf (n : Nat) : Option (Option Nat) := if n ≤ 3 then some (some n) else if n = 255 then some none else none

/-- The sources that have an AUTO reaction (R183). -/
def hasReaction (k : Nat) : Bool := k = 6 || k = 7 || k = 9

/-- NOTICECFG, with its checks in order (R191). -/
def State.reqNoticecfg (s : State) (k mode level : Nat) : State × Answer :=
  match decide (1 ≤ k) && decide (k ≤ 15), noticeModeOf mode, noticeLevelOf level with
  | true, some m, some v =>
    if (m = some .auto ∨ m = some .both) ∧ hasReaction k = false then s.refuse .range
    else
      let h := s.handling k
      let g : Handling := ⟨m.getD h.mode, v.getD h.level⟩
      ({ s with notices := { s.notices with handling := s.notices.handling.insert k g } } : State).grant
        (be1 k ++ be1 k ++ be1 g.mode.code ++ be1 g.level)
  | _, _, _ => s.refuse .range

end Sys2Proof.Machine
end

