-- ==== Sys2Proof/Machine/RequestsLink.lean ====
section
/-!
DEFINITION. The requests of chapter 10: IDENT, STATUS, SETCLOCK, RESTART and the floor plan requests DEFNODE, DEFBAY, DEFROUTE,
DEFPOS and COMMIT.
-/

namespace Sys2Proof.Machine

/-- IDENT's part name, as text: "Gejvir K36" in ASCII (R180; log 13). -/
def partName : Bytes := [0x47#8, 0x65#8, 0x6A#8, 0x76#8, 0x69#8, 0x72#8, 0x20#8, 0x4B#8, 0x33#8, 0x36#8]

/-- IDENT (R180; log 13). -/
def State.reqIdent (s : State) : State × Answer :=
  s.grant (partName ++ openField1 .identRevision Config.designRevision ++ openField1 .identRate (Config.linkRateCode s.link.rate) ++
    be1 s.link.phase.code ++ be4 s.clock.seconds)

/-- The link counts, in R181's order. -/
def LinkCounts.bytes (c : LinkCounts) : Bytes :=
  be4 c.accepted ++ be4 c.badCheck ++ be4 c.gap ++ be4 c.oversize ++ be4 c.badKind ++ be4 c.badLen ++ be4 c.busy ++
    be4 c.lostReply

/-- The number of vehicles that are not ABSENT (R181). -/
def State.vehiclesPresent (s : State) : Nat := (allVehicles.filter fun v => decide ((s.veh v).state ≠ .absent)).length

/-- STATUS: the reply, then the overflow flag cleared (R181, R188). -/
def State.reqStatus (s : State) : State × Answer :=
  let data := be1 s.link.phase.code ++ be4 s.clock.seconds ++ flagByte s.estop.level ++ flagByte (s.pressRunning 1) ++
    flagByte (s.pressRunning 2) ++ be2 s.reels.count ++ openField1 .statusBays s.bays.count ++
    openField1 .statusDemands s.demands.length ++ openField1 .statusReservations s.openReservations ++
    be1 s.orderCount ++ be1 s.orders.backlog.length ++ openField1 .statusVehicles s.vehiclesPresent ++
    be1 (s.line 1).run.state.code ++ be1 (s.line 2).run.state.code ++
    openField1 .statusNotices s.notices.queue.length ++ flagByte s.notices.overflow ++ s.link.counts.bytes ++
    be4 s.vlink.discarded
  ({ s with notices := { s.notices with overflow := false } } : State).grant data

/-- SETCLOCK (R13, R179). -/
def State.reqSetclock (s : State) (value : Nat) : State × Answer :=
  let t := ({ s with clock := ⟨value, 0⟩ } : State).rewatch.judgeHolds.close s false
  t.grant (be4 s.clock.seconds ++ be4 t.clock.seconds)

/-- RESTART (R182). -/
def State.reqRestart (s : State) : State × Answer :=
  if s.pressRunning 1 || s.pressRunning 2 then s.refuse .state else s.restarted.grant (be4 s.clock.seconds)

/-- DEFNODE (R174). -/
def State.reqDefnode (s : State) (node zone kind : Nat) : State × Answer :=
  match nodeOk node && zoneOk zone, nodeKindOf kind with
  | true, some k =>
    let t : State := { s with nodes := s.nodes.insert node ⟨zone, k⟩ }
    t.grant (openField1 .defnodeNodes t.nodes.count)
  | _, _ => s.refuse .range

/-- DEFBAY (R174). -/
def State.reqDefbay (s : State) (bay node height : Nat) : State × Answer :=
  if bayOk bay && nodeOk node && (1 ≤ height && height ≤ 3) then
    let t := s.setBay bay ⟨node, height, [], 0⟩
    t.grant (openField1 .defbayBays t.bays.count)
  else s.refuse .range

/-- The route of a pair defined, or removed by a length of 0 (R175). -/
def State.putRoute (s : State) (src dst length : Nat) (zones : List Nat) : State :=
  if length = 0 then { s with routes := s.routes.erase (routeKey src dst) }
  else { s with routes := s.routes.insert (routeKey src dst) ⟨src, dst, zones, length⟩ }

/-- DEFROUTE, with its checks in order (R175). -/
def State.reqDefroute (s : State) (src dst length : Nat) (zones : List Nat) : State × Answer :=
  if !(nodeOk src && nodeOk dst && zones.all zoneOk && decide (zones.length ≤ 8) && decide (length ≤ 2000)) then
    s.refuse .range
  else if src = dst ∨ ¬zones.Nodup then s.refuse .conflict
  else if length = 0 ∧ zones ≠ [] then s.refuse .range
  else if length ≠ 0 ∧ (s.route src dst).isNone ∧ 1024 ≤ s.routes.count then s.refuse .full
  else
    let t := s.putRoute src dst length zones
    t.grant (openField2 .defrouteRoutes t.routes.count)

/-- A position placed at a node, enabled or not (R176). A disabled position never has a gauge reading (R87): what it measured while it was
enabled goes. -/
def Position.placed (x : Position) (node : Nat) (enabled : Bool) : Position :=
  { x with standNode := node, enabled := enabled, gauge := if enabled then x.gauge else Gauge.reset }

/-- DEFPOS (R176); an enabled flag above 1 is out of range (R192; log 38). -/
def State.reqDefpos (s : State) (position node enabled : Nat) : State × Answer :=
  if !(positionOk position && decide (node ≤ 96) && decide (enabled ≤ 1)) then s.refuse .range
  else if node = 0 ∧ enabled = 1 then s.refuse .conflict
  else
    (s.onPos position fun x => x.placed node (decide (enabled = 1))).grant
      (be1 (lineOfPosition position) ++ be1 node ++ be1 enabled)

/-! ### COMMIT (R177) -/

/-- The first result of a list of checks. -/
def firstSome : List (Option Bytes) → Option Bytes
  | [] => none
  | some b :: _ => some b
  | none :: cs => firstSome cs

/-- A failing item: check number, item kind, two item bytes and the node at fault (R177, R193). -/
def failing (check item a b node : Nat) : Option Bytes := some (be1 check ++ be1 item ++ be1 a ++ be1 b ++ be1 node)

/-- The enabled positions, in position order. -/
def State.enabledPositions (s : State) : List Nat := allPositions.filter fun p => (s.pos p).enabled

/-- The node has this kind. -/
def State.nodeHasKind (s : State) (n : Nat) (k : NodeKind) : Bool := (s.nodes.find n).map (·.kind) = some k

/-- Check 1: nodes named are defined. DESIGN CHOICE: of a route with both nodes undefined the from-node is reported as the node at fault
(log 43, unsafe). -/
def State.commitNodes (s : State) : Option Bytes :=
  firstSome (
    (s.bays.entries.map fun e => if s.nodes.has e.2.node then none else failing 1 1 e.1 0 e.2.node) ++
    (s.routes.entries.map fun e =>
      if !s.nodes.has e.2.src then failing 1 2 e.2.src e.2.dst e.2.src
      else if !s.nodes.has e.2.dst then failing 1 2 e.2.src e.2.dst e.2.dst
      else none) ++
    (s.enabledPositions.map fun p =>
      if s.nodes.has (s.pos p).standNode then none else failing 1 3 p 0 (s.pos p).standNode))

/-- Check 2: bay nodes. -/
def State.commitBays (s : State) : Option Bytes :=
  firstSome (s.bays.entries.map fun e =>
    if s.nodeHasKind e.2.node .bayAccess then none else failing 2 1 e.1 0 e.2.node)

/-- Check 3: stand nodes. -/
def State.commitStands (s : State) : Option Bytes :=
  firstSome (s.enabledPositions.map fun p =>
    if s.nodeHasKind (s.pos p).standNode .stand then none else failing 3 3 p 0 (s.pos p).standNode)

/-- Check 4: intake and waste; the item bytes name the missing kind (log 15). -/
def State.commitKinds (s : State) : Option Bytes :=
  if (s.nodeOfKind .intake).isNone then failing 4 4 3 0 0
  else if (s.nodeOfKind .waste).isNone then failing 4 4 4 0 0
  else none

/-- The first item of COMMIT's checks that fails. -/
def State.commitFault (s : State) : Option Bytes := firstSome [s.commitNodes, s.commitBays, s.commitStands, s.commitKinds]

/-- The floor plan committed: phase RUN, bays empty, the enabled positions at their resting values (R177). -/
def State.committed (s : State) : State :=
  { s with
    link := { s.link with phase := .run }
    bays := s.bays.mapEntries fun _ b => { b with stack := [], inbound := 0 }
    positions := s.positions.mapEntries fun _ x =>
      if x.enabled then { x.restarted with mark := x.mark, confirm := x.confirm, gauge := x.gauge.noWeb } else x }

/-- COMMIT (R177). -/
def State.reqCommit (s : State) : State × Answer :=
  match s.commitFault with
  | some item => (s, ⟨.conflict, item⟩)
  | none =>
    s.committed.grant (openField1 .commitNodes s.nodes.count ++ openField1 .commitBays s.bays.count ++
      openField2 .commitRoutes s.routes.count ++ openField1 .commitPositions s.enabledPositions.length)

end Sys2Proof.Machine
end

