-- ==== Sys2Proof/Machine/RequestsStore.lean ====
section
/-!
DEFINITION. The requests of chapters 1 and 2: INTAKE, RESTOCK, REELINFO, REMOVE, RESTTIME and BAYINFO.
-/

namespace Sys2Proof.Machine

/-! ### INTAKE (R14, R15) -/

/-- The intake node an INTAKE uses: the record's node for an INCOMING reel (R15), the node named, or the lowest-numbered INTAKE
node (R14). -/
def State.intakeNode (s : State) (known : Option Reel) (node : Nat) : Option Nat :=
  match known with
  | some x =>
    match x.location with
    | .atIntake n => if node = 0 ∨ node = n then some n else none
    | _ => none
  | none => if node = 0 then s.nodeOfKind .intake else some node

/-- The bay an INTAKE, RETURN or RELOCATE uses: the bay named, when it has room, or the automatic choice (R25). -/
def State.targetBay (s : State) (bay grade width : Nat) (excluded : Option Nat) : Option Nat :=
  if bay = 0 then s.autoBay grade width excluded else if s.roomAt bay then some bay else none

/-- Check 3 of R14: the reel id is free, or names an INCOMING record without an order (R15). -/
def intakeAllowed : Option Reel → Bool
  | none => true
  | some x => x.state = .incoming && x.tag = none

/-- Check 2 of R14: the node and the bay named. -/
def State.intakePlaces (s : State) (node bay : Nat) : Option Status :=
  if node ≠ 0 ∧ (s.nodes.has node) = false then some .unknown
  else if bay ≠ 0 ∧ (s.bay bay).isNone then some .unknown
  else if node ≠ 0 ∧ s.nodeHasKind node .intake = false then some .conflict
  else none

/-- INTAKE's own changes once its checks pass: the record, kept for a known reel, and the order (R14, R15). -/
def State.takeIn (s : State) (d : ReelData) (known : Option Reel) (node bay : Nat) : State :=
  let s := match known with
    | some _ => s
    | none => s.setReel d.id (s.newReel d .intake s.clock.seconds .incoming (.atIntake node) none)
  s.createOrder ⟨.intake, .normal, some d.id, .node node, .bay bay 0, none, none⟩

/-- INTAKE, with its checks in order (R14, R15). -/
def State.reqIntake (s : State) (d : ReelData) (node bay : Nat) : State × Answer :=
  let known := s.reel d.id
  if !(reelDataOk d && decide (node ≤ 96) && decide (bay ≤ 120)) then s.refuse .range
  else
    match s.intakePlaces node bay with
    | some c => s.refuse c
    | none =>
      if intakeAllowed known = false then s.refuse .conflict
      else
        match s.intakeNode known node with
        | none => s.refuse .conflict
        | some n =>
          if known.isNone ∧ 512 ≤ s.reels.count then s.refuse .full
          else if s.ordersFull then s.refuse .full
          else
            let grade := (known.map (·.grade)).getD d.grade
            let width := (known.map (·.width)).getD d.width
            match s.targetBay bay grade width none with
            | none => s.refuse .full
            | some b =>
              let t := s.nextTag
              let u := (s.takeIn d known n b).close s false
              u.grant (be2 t ++ be1 b ++ be4 (((u.reel d.id).map (·.restUntil)).getD 0))

/-! ### RESTOCK (R16) -/

/-- Check 5 of R16: the stack conditions. -/
def State.stackFits (s : State) (b : Bay) (level : Nat) : Bool :=
  decide (level = b.stack.length + 1) && decide (level ≤ b.height) && decide (b.inbound = 0) && s.topFree b

/-- RESTOCK, with its checks in order (R16). -/
def State.reqRestock (s : State) (d : ReelData) (origin arrival bay level : Nat) : State × Answer :=
  match originOf origin with
  | none => s.refuse .range
  | some o =>
    if !(reelDataOk d && bayOk bay && (1 ≤ level && level ≤ 3) && decide (arrival ≤ s.clock.seconds)) then s.refuse .range
    else
      match s.bay bay with
      | none => s.refuse .unknown
      | some b =>
        if (s.reel d.id).isSome then s.refuse .conflict
        else if 512 ≤ s.reels.count then s.refuse .full
        else if s.stackFits b level = false then s.refuse .conflict
        else
          let x := s.newReel d o arrival .stored (.inBay bay level) none
          let t := (s.setReel d.id x).setBay bay { b with stack := b.stack ++ [d.id] }
          (t.rewatch.close s false).grant (be4 x.restUntil)

/-! ### REELINFO and REMOVE (R17, R18) -/

/-- The first entry above `k` in a list of entries. -/
def entryAfter {α : Type} (k : Nat) : List (Nat × α) → Option (Nat × α)
  | [] => none
  | e :: es => if k < e.1 then some e else entryAfter k es

/-- The entry a query names: the one under `k`, or the next above it (R17, R37, R62). -/
def queried {α : Type} (t : Table α) (m : QueryMode) (k : Nat) : Option (Nat × α) :=
  match m with
  | .exact => (t.find k).map fun x => (k, x)
  | .next => entryAfter k t.entries

/-- REELINFO (R17). -/
def State.reqReelinfo (s : State) (reel mode : Nat) : State × Answer :=
  match queryModeOf mode with
  | none => s.refuse .range
  | some m =>
    if m = .exact ∧ reelIdMax < reel then s.refuse .range
    else
      match queried s.reels m reel with
      | some e => s.grant (s.reelRecord e.1 e.2)
      | none => s.refuse .unknown

/-- The reel leaves the store, and its record is deleted (R9, R18). -/
def State.removeReel (s : State) (r : Nat) (x : Reel) : State :=
  let s := match x.location with
    | .inBay b _ => s.leaveBay b r
    | _ => s
  (s.delReel r).rewatch

/-- REMOVE (R18); the record as it stood, with the values taken after the deletion (12.4). -/
def State.reqRemove (s : State) (r : Nat) : State × Answer :=
  if reelIdOk r = false then s.refuse .range
  else
    match s.reel r with
    | none => s.refuse .unknown
    | some x =>
      if (x.state = .incoming ∨ x.state = .stored) ∧ x.tag = none then
        let t := (s.removeReel r x).close s false
        t.grant (t.reelRecord r x)
      else s.refuse .state

/-- RESTTIME (R19). -/
def State.reqResttime (s : State) (grade minutes : Nat) : State × Answer :=
  if gradeOk grade then
    let m := min minutes 4320
    ({ s with rest := { s.rest with minutes := s.rest.minutes.insert grade m } } : State).grant (be2 m)
  else s.refuse .range

/-! ### BAYINFO (R37) -/

/-- One reel of a stack in BAYINFO. -/
def State.stackItem (s : State) (r : Nat) : Bytes :=
  match s.reel r with
  | some x => be4 r ++ be1 x.state.code ++ be1 x.grade ++ be1 x.width ++ flagByte (s.rested x) ++ opt2 x.tag
  | none => be4 r ++ be1 0 ++ be1 0 ++ be1 0 ++ be1 0 ++ be2 0

/-- The top reel exists and would pass every test of R26 for its own grade and width class. -/
def State.topEligible (s : State) (b : Bay) : Bool :=
  match b.top with
  | some r => s.eligibleSelf r
  | none => false

/-- BAYINFO (R37). DESIGN CHOICE: the count byte that 12.2 gives every list stands for the stack length, which R37 names as a value of
its own before the reels, so that it is sent once (log 45, unsafe). -/
def State.reqBayinfo (s : State) (bay mode : Nat) : State × Answer :=
  match queryModeOf mode with
  | none => s.refuse .range
  | some m =>
    if m = .exact ∧ bayOk bay = false then s.refuse .range
    else
      match queried s.bays m bay with
      | none => s.refuse .unknown
      | some (n, b) =>
        s.grant (be1 n ++ be1 b.node ++ be1 b.height ++ listBytes (b.stack.map s.stackItem) ++
          openField1 .bayinfoInbound b.inbound ++
          openField1 .bayinfoFree (b.height - b.stack.length - b.inbound) ++ flagByte (s.hasRoom b) ++
          flagByte (s.topEligible b) ++ openField1 .bayinfoBays s.bays.count)

end Sys2Proof.Machine
end

