-- ==== Sys2Proof/Machine/RequestsTransport.lean ====
section
/-!
DEFINITION. The order requests of section 3.9: DELIVER, RELOCATE, RETURN, CLEAR, PARK, CANCEL, RESOLVE and ORDERINFO.
-/

namespace Sys2Proof.Machine

/-! ### DELIVER (R56) -/

/-- The reel a DELIVER takes once checks 1 to 4 have passed (R56, step 5). -/
inductive Pick where
  | reserved (reel : Nat)
  | fresh (reel : Nat)
  | refused
  | noStock (demand : Demand)
  deriving DecidableEq, Repr

/-- A named reel may be delivered: STORED, top of its bay, no tag, no drop pending, rested (R56). -/
def State.pickFor (s : State) (p reel : Nat) : Pick :=
  match s.openReservation p with
  | some r => if reel = 0 ∨ reel = r then .reserved r else .refused
  | none =>
    if reel ≠ 0 then if s.eligibleSelf reel then .fresh reel else .refused
    else
      match (s.pos p).demand with
      | none => .refused
      | some d =>
        match s.select d.grade d.width with
        | some r => .fresh r
        | none => .noStock d

/-- The order of a DELIVER request made: the urgency-reported flag is cleared when the call-off leaves NONE by it (R98). -/
def State.deliverNow (s : State) (p r : Nat) (q : Priority) : State × Answer :=
  let t := s.nextTag
  let bay := match (s.reel r).bind Reel.place with
    | some (b, _) => b
    | none => 0
  let u := if (s.pos p).callOff.state = .none then s.clearUrgency p else s
  (((u.dropDelivery p).makeDeliver p r q).close s false).grant (be1 1 ++ be2 t ++ be4 r ++ be1 bay)

/-- The demand of a DELIVER that finds no reel joins the queue, its urgency-reported flag cleared when the call-off leaves NONE by it; a
position that has an entry keeps it, and nothing changes (R32, R56, R98). -/
def State.deliverQueued (s : State) (p : Nat) (d : Demand) : State × Answer :=
  let u :=
    if (s.demandEntry p).isSome then s
    else (if (s.pos p).callOff.state = .none then s.clearUrgency p else s).joinQueue p d
  u.grant (be1 2 ++ be1 (u.queuePlace p))

/-- DELIVER, with its checks in order (R56). -/
def State.reqDeliver (s : State) (p reel priority : Nat) : State × Answer :=
  match priorityOf priority with
  | none => s.refuse .range
  | some q =>
    if !(positionOk p && decide (reel ≤ reelIdMax)) then s.refuse .range
    else if (s.pos p).enabled = false ∨ (s.deliverOf p).isSome then s.refuse .state
    else if reel ≠ 0 ∧ (s.reel reel).isNone then s.refuse .unknown
    else if s.ordersFull then s.refuse .full
    else
      match s.pickFor p reel with
      | .refused => s.refuse .state
      | .reserved r => s.deliverNow p r q
      | .fresh r => (s.reserve r p).deliverNow p r q
      | .noStock d => s.deliverQueued p d

/-! ### RELOCATE (R57) -/

/-- The reel is STORED, has no order tag and is the top of its bay; its bay (R57). -/
def State.movable (s : State) (r : Nat) (x : Reel) : Option Nat :=
  match x.place with
  | some (b, _) =>
    if x.state = .stored ∧ x.tag = none ∧ (s.bay b).bind Bay.top = some r then some b else none
  | none => none

/-- RELOCATE, with its checks in order (R57). -/
def State.reqRelocate (s : State) (reel bay priority : Nat) : State × Answer :=
  match priorityOf priority with
  | none => s.refuse .range
  | some q =>
    if !(reelIdOk reel && decide (bay ≤ 120)) then s.refuse .range
    else
      match s.reel reel with
      | none => s.refuse .unknown
      | some x =>
        if bay ≠ 0 ∧ (s.bay bay).isNone then s.refuse .unknown
        else
          match s.movable reel x with
          | none => s.refuse .state
          | some own =>
            if bay = own then s.refuse .conflict
            else if s.ordersFull then s.refuse .full
            else
              match s.targetBay bay x.grade x.width (some own) with
              | none => s.refuse .full
              | some b =>
                let t := s.nextTag
                let u := s.createOrder ⟨.relocate, q, some reel, s.bayPlace reel, .bay b 0, none, none⟩
                (u.close s false).grant (be2 t ++ be1 b)

/-! ### RETURN and CLEAR (R58) -/

/-- The butt with no order tag on an arm (R58). -/
def State.freeButt (s : State) (p : Nat) (a : Arm) : Option (Nat × Reel) :=
  match (s.pos p).arm a with
  | none => none
  | some r =>
    match s.reel r with
    | none => none
    | some x => if x.state = .butt ∧ x.tag = none then some (r, x) else none

/-- RETURN, with its checks in order (R58). DESIGN CHOICE: the reply sends the destination as its bay number alone (log 15, unsafe). -/
def State.reqReturn (s : State) (p arm bay priority : Nat) : State × Answer :=
  match armOf arm, priorityOf priority with
  | some a, some q =>
    if !(positionOk p && decide (bay ≤ 120)) then s.refuse .range
    else if bay ≠ 0 ∧ (s.bay bay).isNone then s.refuse .unknown
    else
      match s.freeButt p a with
      | none => s.refuse .state
      | some (r, x) =>
        if s.ordersFull then s.refuse .full
        else
          match s.targetBay bay x.grade x.width none with
          | none => s.refuse .full
          | some b =>
            let t := s.nextTag
            (((s.dropDisposal p a).makeReturn p a r b q).close s false).grant (be2 t ++ be1 b)
  | _, _ => s.refuse .range

/-- CLEAR, with its checks in order (R58). DESIGN CHOICE: the reply sends the destination as its node number alone (log 15, unsafe). -/
def State.reqClear (s : State) (p arm priority : Nat) : State × Answer :=
  match armOf arm, priorityOf priority with
  | some a, some q =>
    if positionOk p = false then s.refuse .range
    else
      match s.freeButt p a with
      | none => s.refuse .state
      | some (r, _) =>
        if s.ordersFull then s.refuse .full
        else
          match s.nodeOfKind .waste with
          | none => s.refuse .conflict
          | some n =>
            let t := s.nextTag
            (((s.dropDisposal p a).makeClear p a r n q).close s false).grant (be2 t ++ be1 n)
  | _, _ => s.refuse .range

/-! ### PARK (R59) -/

/-- PARK, with its checks in order (R59). -/
def State.reqPark (s : State) (v node priority : Nat) : State × Answer :=
  match priorityOf priority with
  | none => s.refuse .range
  | some q =>
    if !(vehicleOk v && nodeOk node) then s.refuse .range
    else if s.nodes.has node = false then s.refuse .unknown
    else if (s.veh v).state = .absent ∨ (s.veh v).order ≠ none ∨ s.parkNames v = true then s.refuse .state
    else if s.ordersFull then s.refuse .full
    else
      let t := s.nextTag
      ((s.createOrder ⟨.park, q, none, .absent, .node node, none, some v⟩).close s false).grant (be2 t)

/-! ### CANCEL and RESOLVE (R60, R61) -/

/-- The outcome code of a cancellation, by what has become of the order (12.2). -/
def cancelOutcome : Option Order → Nat
  | none => 1
  | some o => if o.state = .cancelling then 2 else if o.converted then 3 else 4

/-- The state of an order as a reply reports it; the value for a removed order is free (log 15). -/
def orderStateByte : Option Order → Bytes
  | some o => be1 o.state.code
  | none => [Config.removedOrderState]

/-- The destination bay of a converted order. -/
def conversionBytes : Option Order → Bytes
  | some o =>
    if o.converted then
      match o.destination with
      | .bay b _ => be1 b
      | _ => be1 0
    else []
  | none => []

/-- A removed PARK's named vehicle stands IDLE with no order: the assignment arbiter runs (R44, R53). -/
def State.freedVehicle (s : State) (o : Order) : Bool :=
  match o.vehicle with
  | some v => s.idleFree v
  | none => false

/-- The order taken under tag `t`, if the list still holds it: a tag freed and given again in one event is another order's (R38). -/
def State.still (s : State) (t : Nat) (o : Order) : Option Order := (s.order t).filter fun x => x.sequence = o.sequence

/-- A cancellation (R52) and the close of its event: the part after it, and the order as the cancellation left it. -/
def State.cancelEvent (s : State) (t : Nat) (o : Order) : State × Option Order :=
  let u := s.cancelOrder t o
  (u.close s ((u.still t o).isNone && u.freedVehicle o), u.still t o)

/-- The state a reply gives of an order that a cancellation left so: as it stands after the event, free when removed (log 15). -/
def State.stateAfter (s : State) (t : Nat) : Option Order → Bytes
  | some _ => orderStateByte (s.order t)
  | none => orderStateByte none

/-- CANCEL (R60). -/
def State.reqCancel (s : State) (t : Nat) : State × Answer :=
  if tagOk t = false then s.refuse .range
  else
    match s.order t with
    | none => s.refuse .unknown
    | some o =>
      if o.cancelRefused then s.refuse .state
      else
        let c := s.cancelEvent t o
        c.1.grant (be1 (cancelOutcome c.2) ++ c.1.stateAfter t c.2 ++ conversionBytes c.2)

/-- RETRY of an order SUSPENDED for another reason than NO_SPACE (R61). -/
def State.retryLeg (s : State) (t : Nat) (o : Order) (v : Nat) : State :=
  let s := if o.reason = some .wrongReel then s.setLoad v 0 false else s
  (s.setOrder t { o with reason := none }).requestLeg t

/-- The reply of a RETRY or ACCEPT taken, after the close of its event: the order's state (R61). -/
def State.resolved (s pre : State) (t : Nat) : State × Answer :=
  let u := s.close pre false
  u.grant (orderStateByte (u.order t))

/-- RESOLVE RETRY (R61). -/
def State.resolveRetry (s : State) (t : Nat) (o : Order) : State × Answer :=
  if o.reason = some .noSpace then
    match s.conversionBay o with
    | some b => (s.convertTo t o b).resolved s t
    | none => s.refuse .full
  else
    match o.vehicle with
    | some v => if (s.veh v).state = .idle then (s.retryLeg t o v).resolved s t else s.refuse .state
    | none => s.refuse .state

/-- RESOLVE ACCEPT (R61). -/
def State.resolveAccept (s : State) (t : Nat) (o : Order) : State × Answer :=
  match o.reason, o.vehicle with
  | some .wrongReel, some v => (s.completeFetch t v).resolved s t
  | _, _ => s.refuse .state

/-- RESOLVE CANCEL: its reply carries the order's state (R61) and names the outcome (R52). DESIGN CHOICE: the outcome follows the state
(log 47, unsafe). -/
def State.resolveCancel (s : State) (t : Nat) (o : Order) : State × Answer :=
  if o.cancelRefused then s.refuse .state
  else
    let c := s.cancelEvent t o
    c.1.grant (c.1.stateAfter t c.2 ++ be1 (cancelOutcome c.2))

/-- RESOLVE (R61). DESIGN CHOICE: an action outside its table is refused with RANGE, ahead of the existence check (log 38, unsafe). -/
def State.reqResolve (s : State) (t action : Nat) : State × Answer :=
  match tagOk t, resolveActionOf action with
  | true, some a =>
    match s.order t with
    | none => s.refuse .unknown
    | some o =>
      if o.state ≠ .suspended then s.refuse .state
      else
        match a with
        | .retry => s.resolveRetry t o
        | .accept => s.resolveAccept t o
        | .cancel => s.resolveCancel t o
  | _, _ => s.refuse .range

/-! ### ORDERINFO (R62) -/

/-- ORDERINFO (R62). -/
def State.reqOrderinfo (s : State) (t mode : Nat) : State × Answer :=
  match queryModeOf mode with
  | none => s.refuse .range
  | some m =>
    if m = .exact ∧ t = 0 then s.refuse .range
    else
      match queried s.orders.table m t with
      | some e => s.grant (s.orderRecord e.1 e.2)
      | none => s.refuse .unknown

end Sys2Proof.Machine
end

