-- ==== Sys2Proof/Machine/RequestsPositions.lean ====
section
/-!
DEFINITION. The position requests of section 5.6 (POSCFG, DEMAND, THREAD, LOADREEL, UNLOAD, BUTTOFF, POSINFO) and the splice
requests of section 6.8 (PREPARED, SPLICENOW, SPLICEFIX).
-/

namespace Sys2Proof.Machine

/-- The first checks of a position request: the number, then the enabled flag. -/
def State.positionFault (s : State) (p : Nat) : Option Status :=
  if positionOk p = false then some .range else if (s.pos p).enabled = false then some .state else none

/-! ### POSCFG (R104) -/

/-- The number of the first failing check of R104. -/
def Position.paramFault (x : Position) (q : Params) : Option Nat :=
  if q.spliceDiameter < q.coreDiameter + 20 then some 1
  else if q.armLength < q.fireLength then some 2
  else if q.accelLength < q.armLength then some 3
  else if q.leadTime < q.urgentMargin then some 4
  else
    match x.isWeb, x.gauge.estimate with
    | true, some e => if e < 16 * q.coreDiameter then some 5 else none
    | _, _ => none

/-- The sequence states in which POSCFG is taken (R104). -/
def Sequence.resting : Sequence → Bool
  | .noWeb | .noStandby | .standby | .ready => true
  | _ => false

/-- The parameters stored; L_rem recomputed while WEB (R96, R104). -/
def Position.configured (x : Position) (q : Params) : Position :=
  let y := { x with params := q }
  if x.isWeb then y.recompute else y

/-- POSCFG (R104). -/
def State.reqPoscfg (s : State) (p : Nat) (raw : Params) : State × Answer :=
  match s.positionFault p with
  | some c => s.refuse c
  | none =>
    let x := s.pos p
    let q := clampParams raw
    if x.sequence.resting = false then s.refuse .state
    else
      match x.paramFault q with
      | some n => (s, ⟨.conflict, paramBytes q ++ be1 n⟩)
      | none =>
        (((s.setPos p (x.configured q)).judgeLate p x.gauge.remaining).settle p).grant (paramBytes q)

/-! ### DEMAND (R36, R105) -/

/-- A grade and width class of a DEMAND: both 0 is absent (R105). -/
def demandOf (grade width : Nat) : Option (Option Demand) :=
  if grade = 0 ∧ width = 0 then some none
  else if gradeOk grade && widthOk width then some (some ⟨grade, width⟩) else none

/-- The waiting entry of a position rewritten in place (R36). -/
def State.rewriteDemand (s : State) (p : Nat) (d : Demand) : State :=
  { s with demands := s.demands.map fun e => if e.position = p then { e with grade := d.grade, width := d.width } else e }

/-- The store's part of a DEMAND, by where the call-off stands (R36). -/
def State.demandStore (s : State) (p : Nat) (d : Option Demand) : State :=
  match s.deliverOf p with
  | some _ => s
  | none =>
    match s.openReservation p, s.demandEntry p, d with
    | some _, _, _ => s.withdrawCallOff p
    | none, some _, some y => s.rewriteDemand p y
    | none, some _, none => s.withdrawCallOff p
    | none, none, some _ => s
    | none, none, none => s.setCallOff p .none false

/-- DEMAND (R36, R105). DESIGN CHOICE: the reply's queue place is always sent, 0 when the demand does not wait (log 15, unsafe). -/
def State.reqDemand (s : State) (p grade width : Nat) : State × Answer :=
  match s.positionFault p with
  | some c => s.refuse c
  | none =>
    match demandOf grade width with
    | none => s.refuse .range
    | some d =>
      let t := ((s.onPos p fun x => { x with demand := d }).demandStore p d).close s false
      let y := t.pos p
      t.grant (be1 (optCode (·.grade) d) ++ be1 (optCode (·.width) d) ++ be1 y.callOff.state.code ++
        flagByte y.callOff.ordersFull ++ be1 (t.queuePlace p))

/-! ### THREAD (R106) -/

/-- The arm holds a STAGED or PREPARED reel, which is answered (R106). -/
def State.threadable (s : State) (p : Nat) (a : Arm) : Option Nat :=
  if s.armState p a = some .staged ∨ s.armState p a = some .prepared then (s.pos p).arm a else none

/-- A reel starts to run on an arm: the web, its gauge, its resting state, its envelope and tension record
(R90, R92, R106, R134, R138, R146). -/
def State.startWeb (s : State) (p : Nat) (a : Arm) (r : Nat) : State :=
  let s := s.onReel r fun y => { y with state := .running }
  let s := (s.onPos p fun x => { x with running := some a }).startGauge p r
  let s := s.onPos p fun x => { x with sequence := s.restingState p }
  let s := s.setWeb p { Web.blank with kind := .steady }
  (s.judgeLate p 1).settle p

/-- THREAD (R106). -/
def State.reqThread (s : State) (p arm : Nat) : State × Answer :=
  match s.positionFault p, armOf arm with
  | some c, _ => s.refuse c
  | none, none => s.refuse .range
  | none, some a =>
    if (s.pos p).isWeb || s.pressRunning (lineOfPosition p) then s.refuse .state
    else
      match s.threadable p a with
      | none => s.refuse .state
      | some r =>
        let t := (s.startWeb p a r).close s false
        let g := (t.pos p).gauge
        t.grant (be4 r ++ be2 g.diameter ++ be4 g.remaining ++ be1 (t.pos p).sequence.code)

/-! ### LOADREEL (R107) -/

/-- The record of a reel placed on an arm by hand: the stored reel leaves its bay, or a record is made (R9, R107). -/
def State.placeReel (s : State) (d : ReelData) (p : Nat) (a : Arm) : State :=
  match s.reel d.id with
  | some x =>
    let s := match x.location with
      | .inBay b _ => s.leaveBay b d.id
      | _ => s
    (s.onReel d.id fun y => { y with state := .staged, location := .onArm p a }).rewatch
  | none => s.setReel d.id (s.newReel d .intake s.clock.seconds .staged (.onArm p a) none)

/-- The arm takes the reel; the sequence and the call-off react (R90, R100, R107). -/
def State.armTakes (s : State) (p : Nat) (a : Arm) (r : Nat) : State :=
  let web := (s.pos p).isWeb
  let s := s.onPos p fun x =>
    let x := x.setArm a (some r)
    if web ∧ x.sequence = .noStandby then { x with sequence := .standby } else x
  if web then s.withdrawCallOff p else s

/-- Checks 3 and 4 of R107. -/
def State.loadFault (s : State) (d : ReelData) : Option Status :=
  match s.reel d.id with
  | some x => if x.state = .stored ∧ x.tag = none then none else some .state
  | none => if 512 ≤ s.reels.count then some .full else none

/-- LOADREEL, with its checks in order (R107). -/
def State.reqLoadreel (s : State) (p arm : Nat) (d : ReelData) : State × Answer :=
  match s.positionFault p, armOf arm with
  | some c, _ => s.refuse c
  | none, none => s.refuse .range
  | none, some a =>
    if reelIdOk d.id = false ∨ ((s.reel d.id).isNone ∧ reelDataOk d = false) then s.refuse .range
    else if ((s.pos p).arm a).isSome then s.refuse .state
    else
      match s.loadFault d with
      | some c => s.refuse c
      | none =>
        let t := ((s.placeReel d p a).armTakes p a d.id).close s false
        match t.reel d.id with
        | some x => t.grant (be4 d.id ++ flagByte (t.rested x) ++ be4 (t.restRemaining x))
        | none => t.grant (be4 d.id ++ be1 0 ++ be4 0)

/-! ### UNLOAD (R108) -/

/-- The web stopped: running arm none, NO_WEB, gauge readings, outputs off (R91, R108). -/
def Position.unloaded (x : Position) : Position :=
  { x.accelOff with
    running := none
    sequence := .noWeb
    gauge := x.gauge.noWeb
    outputs := { x.accelOff.outputs with webEnd := false } }

/-- UNLOAD's own changes: the web stops, its call-off ends and its butt is made (R91, R100, R102, R108, R134, R138, R146). -/
def State.stopWeb (s : State) (p : Nat) (a : Arm) : State :=
  let d := (s.pos p).gauge.diameter
  let s := (s.onPos p Position.unloaded).setWeb p Web.blank
  (s.withdrawCallOff p).makeButt p a d

/-- The reel a position runs with its arm, when UNLOAD is taken (R108). -/
def State.unloadable (s : State) (p : Nat) : Option (Arm × Nat) :=
  let x := s.pos p
  if s.pressRunning (lineOfPosition p) = true ∨ (x.sequence ≠ .noStandby ∧ x.sequence ≠ .standby ∧ x.sequence ≠ .ready) then
    none
  else
    match x.running with
    | some a => (x.arm a).map fun r => (a, r)
    | none => none

/-- UNLOAD (R108). -/
def State.reqUnload (s : State) (p : Nat) : State × Answer :=
  match s.positionFault p with
  | some c => s.refuse c
  | none =>
    match s.unloadable p with
    | none => s.refuse .state
    | some (a, r) =>
      let x := s.pos p
      let d := x.gauge.diameter
      let t := s.stopWeb p a
      let status := (t.pos p).disposal a
      (t.close s false).grant (be4 r ++ be2 d ++ be1 (optCode Disposal.code status) ++
        be4 (x.buttPaper d (((s.reel r).map (·.caliper)).getD 0)))

/-! ### BUTTOFF (R109) and POSINFO (R110) -/

/-- BUTTOFF's own changes (R10, R49, R109). -/
def State.liftButt (s : State) (p : Nat) (a : Arm) (r : Nat) : State :=
  let s := (s.delReel r).onPos p fun x => (x.setArm a none).setDisposal a none
  let s := s.dropDisposal p a
  if (s.pos p).standbyArm = a then s.wakeHeldArm p else s

/-- BUTTOFF (R109). -/
def State.reqButtoff (s : State) (p arm : Nat) : State × Answer :=
  match s.positionFault p, armOf arm with
  | some c, _ => s.refuse c
  | none, none => s.refuse .range
  | none, some a =>
    match s.freeButt p a with
    | none => s.refuse .state
    | some (r, x) => ((s.liftButt p a r).close s false).grant (be4 r ++ be2 x.diameter)

/-- POSINFO (R110). -/
def State.reqPosinfo (s : State) (p : Nat) : State × Answer :=
  if positionOk p then s.grant (s.positionBytes p) else s.refuse .range

/-! ### PREPARED, SPLICENOW and SPLICEFIX (R126 to R128) -/

/-- The STAGED reel of an arm that does not run (R126). -/
def State.preparable (s : State) (p : Nat) (a : Arm) : Option Nat :=
  if s.armState p a = some .staged ∧ (s.pos p).running ≠ some a then (s.pos p).arm a else none

/-- PREPARED's own changes (R7, R126). -/
def State.prepareReel (s : State) (p r : Nat) : State :=
  let s := s.onReel r fun y => { y with state := .prepared }
  if (s.pos p).isWeb ∧ (s.pos p).sequence = .standby then (s.onPos p fun x => { x with sequence := .ready }).settle p else s

/-- PREPARED (R126). -/
def State.reqPrepared (s : State) (p arm : Nat) : State × Answer :=
  match s.positionFault p, armOf arm with
  | some c, _ => s.refuse c
  | none, none => s.refuse .range
  | none, some a =>
    match s.preparable p a with
    | none => s.refuse .state
    | some r =>
      let t := s.prepareReel p r
      t.grant (be4 r ++ be1 (t.pos p).sequence.code)

/-- SPLICENOW: through ARMED into FIRING in one event (R127). -/
def State.reqSplicenow (s : State) (p : Nat) : State × Answer :=
  match s.positionFault p with
  | some c => s.refuse c
  | none =>
    let x := s.pos p
    if x.sequence = .matched then
      (s.setPos p ({ x with sequence := .armed } : Position).enterFiring).grant (be4 x.gauge.remaining)
    else s.refuse .state

/-- SPLICEFIX naming the running arm: the resting state of the standby arm (R90, R128). -/
def State.keepOldWeb (s : State) (p : Nat) : State :=
  (s.onPos p fun x => { x with sequence := s.restingState p, splice := { x.splice with cause := none } }).settle p

/-- SPLICEFIX naming the standby arm: every effect of the swap (R128). -/
def State.fixSwap (s : State) (p : Nat) : State :=
  (s.onPos p fun x => { x with splice := { x.splice with cause := none } }).swap p .fix

/-- SPLICEFIX (R128). -/
def State.reqSplicefix (s : State) (p arm : Nat) : State × Answer :=
  match s.positionFault p with
  | some c => s.refuse c
  | none =>
    let x := s.pos p
    if x.sequence ≠ .failed then s.refuse .state
    else
      match armOf arm with
      | none => s.refuse .range
      | some a =>
        if x.running = some a then
          let t := s.keepOldWeb p
          t.grant (be1 (armCode (t.pos p).running) ++ be1 (t.pos p).sequence.code)
        else
          let t := s.fixSwap p
          let old := otherArm a
          let status := (t.pos p).disposal old
          let u := t.close s false
          u.grant (be1 (armCode (u.pos p).running) ++ be1 (u.pos p).sequence.code ++ be2 x.gauge.diameter ++
            be1 (optCode Disposal.code status))

end Sys2Proof.Machine
end

