-- ==== Sys2Proof/Machine/RequestsVehicles.lean ====
section
/-!
DEFINITION. The vehicle requests of section 4.6: HALT, RESUME, RETIRE, VEHINFO and VEHCFG.
-/

namespace Sys2Proof.Machine

/-- A list of vehicle numbers, each followed by its state (12.2). DESIGN CHOICE: the requests that name several list them by ascending
number (log 42, unsafe). -/
def State.vehicleList (s : State) (vs : List Nat) : Bytes :=
  listBytes (vs.map fun v => be1 v ++ be1 (s.veh v).state.code)

/-- HALT: one vehicle, or all (R82; log 28). DESIGN CHOICE: the reply to HALT 0 lists all twelve slots, an ABSENT one with state ABSENT
(log 40, unsafe). -/
def State.reqHalt (s : State) (v : Nat) : State × Answer :=
  if v = 0 then
    let t := ((forEach allVehicles (fun v s => s.stopVehicle v) s).queueHaltAll).close s false
    t.grant (t.vehicleList allVehicles)
  else if vehicleOk v then
    if (s.veh v).state = .absent then s.refuse .state
    else
      let t := ((s.stopVehicle v).queueHalt v).close s false
      t.grant (t.vehicleList [v])
  else s.refuse .range

/-- RESUME: one vehicle, or every STOPPED one (R83). DESIGN CHOICE: RESUME 0 takes the vehicles by ascending number, and their frames join
the outbound queue in that order (log 28, unsafe). -/
def State.reqResume (s : State) (v : Nat) : State × Answer :=
  if 12 < v then s.refuse .range
  else if s.estop.level then s.refuse .state
  else if v = 0 then
    let vs := allVehicles.filter fun v => decide ((s.veh v).state = .stopped)
    let t := (forEach vs (fun v s => s.resumeVehicle v) s).close s false
    t.grant (t.vehicleList vs)
  else if (s.veh v).state = .stopped then
    let t := (s.resumeVehicle v).close s false
    t.grant (t.vehicleList [v])
  else s.refuse .state

/-! ### RETIRE (R84) -/

/-- The order RETIRE removes: the vehicle's bound order, or the WAITING PARK that names it (R84). -/
def State.retiredOrder (s : State) (v : Nat) : Option Nat :=
  match (s.veh v).order with
  | some t => some t
  | none => firstOrder (fun o => o.kind = .park && o.state = .waiting && o.vehicle = some v) s.orders.table.entries

/-- The reel RETIRE deletes: the verified load (R84). -/
def Vehicle.retiredReel (x : Vehicle) : Nat := if x.verified then x.load.getD 0 else 0

/-- RETIRE's own changes, its HALT last (R51, R84; log 28). -/
def State.retireVehicle (s : State) (v : Nat) : State :=
  let x := s.veh v
  let s := s.withdrawFor v
  let s := s.whenSome (s.retiredOrder v) State.retireOrder
  let s := if x.retiredReel = 0 then s else (s.delReel x.retiredReel).rewatch
  let s := s.raise (.vehicleLost v .retired x.node x.retiredReel)
  let s := (s.keepZone v none).setVeh v Vehicle.absentSlot
  s.queueHalt v

/-- RETIRE (R84). -/
def State.reqRetire (s : State) (v : Nat) : State × Answer :=
  if vehicleOk v then
    if (s.veh v).state = .absent then s.refuse .state
    else
      ((s.retireVehicle v).close s false).grant
        (be4 (s.veh v).retiredReel ++ opt2 (s.retiredOrder v))
  else s.refuse .range

/-! ### VEHINFO (R85) -/

/-- The current leg in VEHINFO: order tag, leg index, zone list and count of zones passed (R64). DESIGN CHOICE: an absent leg, which
12.2 gives no code, is sent with tag 0, index 0, an empty zone list and a count of 0 (log 14, unsafe). -/
def legBytes : Option Leg → Bytes
  | some l => be2 l.tag ++ be1 l.index ++ listBytes (l.zones.map be1) ++ openField1 .vehinfoPassed l.passed
  | none => be2 0 ++ be1 0 ++ listBytes [] ++ openField1 .vehinfoPassed 0

/-- The record of R64 in VEHINFO, in its order. The silence timer of an ABSENT or LOST vehicle is stopped and reads 0xFFFF (R64, R68,
12.2). DESIGN CHOICE: an absent prior state, an absent current zone, and load verified of a vehicle without a load, which 12.2 gives no
code, are sent as 0 (log 14, unsafe). -/
def Vehicle.bytes (x : Vehicle) : Bytes :=
  be1 x.state.code ++ be1 (priorCode x.prior) ++ be1 (optCode FaultCode.code x.faultCode) ++ be1 x.node ++ opt1 x.zone ++
    opt4 x.load ++ flagByte (x.verified && x.load.isSome) ++ be1 x.battery ++ opt2 x.order ++ legBytes x.leg ++
    timerBytes (if x.state.listening then some x.silenceMs else none) ++ timerBytes x.offerMs

/-- VEHINFO (R85). The seconds since the last frame go on where the silence timer is stopped (R68). DESIGN CHOICE: the seconds elapsed of
a stopped offer timer, for which the spec gives no code, are sent as 0 (log 40, unsafe). -/
def State.reqVehinfo (s : State) (v : Nat) : State × Answer :=
  if vehicleOk v then
    let x := s.veh v
    s.grant (x.bytes ++ listBytes ((s.zonesOf v).map be1) ++
      openField2 .vehinfoSilenceSeconds (x.sinceFrameMs / 1000) ++
      openField2 .vehinfoOfferSeconds (x.offerMs.getD 0 / 1000) ++ flagByte (s.freeVehicle v) ++
      openField1 .vehinfoFrames (s.framesFor v) ++ flagByte s.estop.level)
  else s.refuse .range

/-! ### VEHCFG (R86) -/

/-- The values as stored (R86). -/
def VehicleConfig.of (offer heartbeat low zone : Nat) : VehicleConfig :=
  ⟨clampTo 1 10 offer, clampTo 2 30 heartbeat, clampTo 10 50 low, clampTo 10 600 zone⟩

/-- Silence already past the heartbeat limit (R68, R86). -/
def State.judgeSilence (s : State) (v : Nat) : State :=
  if 1000 * s.vconfig.heartbeat ≤ (s.veh v).silenceMs then s.silenceEvent v else s

/-- An offer already past the offer timeout (R69, R86). -/
def State.judgeOffer (s : State) (v : Nat) : State :=
  match (s.veh v).offerMs with
  | some ms => if 1000 * s.vconfig.offerTimeout ≤ ms then s.offerEvent v else s
  | none => s

/-- VEHCFG's own changes: the values, then the timers and holds judged against them (R86; log 34). -/
def State.configureVehicles (s : State) (c : VehicleConfig) : State :=
  let s : State := { s with vconfig := c }
  let s := forEach allVehicles (fun v s => s.judgeSilence v) s
  let s := forEach allVehicles (fun v s => s.judgeOffer v) s
  s.judgeHolds

/-- VEHCFG (R86). -/
def State.reqVehcfg (s : State) (offer heartbeat low zone : Nat) : State × Answer :=
  let c := VehicleConfig.of offer heartbeat low zone
  ((s.configureVehicles c).close s (decide (c.lowBattery < s.vconfig.lowBattery))).grant
    (be1 c.offerTimeout ++ be1 c.heartbeat ++ be1 c.lowBattery ++ be2 c.zoneWait)

end Sys2Proof.Machine
end

