-- ==== Sys2Proof/Machine/Serve.lean ====
section
/-!
DEFINITION. The taking of a request (R171): the phase judged, the owning block's answer, and the reply.
-/

namespace Sys2Proof.Machine

/-- The request is allowed in the phase (R173). -/
def allowedIn : Phase → Request → Bool
  | .config, .defnode .. | .config, .defbay .. | .config, .defroute .. | .config, .defpos .. | .config, .commit => true
  | .run, .defnode .. | .run, .defbay .. | .run, .defroute .. | .run, .defpos .. | .run, .commit => false
  | _, .ident | _, .status | _, .setclock _ => true
  | .config, _ => false
  | .run, _ => true

/-- The owning block's part of a request: its effect and its answer (R171). -/
def State.perform (s : State) : Request → State × Answer
  | .ident => s.reqIdent
  | .status => s.reqStatus
  | .setclock v => s.reqSetclock v
  | .restart => s.reqRestart
  | .defnode n z k => s.reqDefnode n z k
  | .defbay b n h => s.reqDefbay b n h
  | .defroute a b len zs => s.reqDefroute a b len zs
  | .defpos p n e => s.reqDefpos p n e
  | .commit => s.reqCommit
  | .intake d n b => s.reqIntake d n b
  | .restock d o a b l => s.reqRestock d o a b l
  | .reelinfo r m => s.reqReelinfo r m
  | .remove r => s.reqRemove r
  | .resttime g m => s.reqResttime g m
  | .bayinfo b m => s.reqBayinfo b m
  | .deliver p r q => s.reqDeliver p r q
  | .relocate r b q => s.reqRelocate r b q
  | .ret p a b q => s.reqReturn p a b q
  | .clear p a q => s.reqClear p a q
  | .park v n q => s.reqPark v n q
  | .cancel t => s.reqCancel t
  | .resolve t a => s.reqResolve t a
  | .orderinfo t m => s.reqOrderinfo t m
  | .halt v => s.reqHalt v
  | .resume v => s.reqResume v
  | .retire v => s.reqRetire v
  | .vehinfo v => s.reqVehinfo v
  | .vehcfg o h b z => s.reqVehcfg o h b z
  | .poscfg p q => s.reqPoscfg p q
  | .demand p g w => s.reqDemand p g w
  | .thread p a => s.reqThread p a
  | .loadreel p a d => s.reqLoadreel p a d
  | .unload p => s.reqUnload p
  | .buttoff p a => s.reqButtoff p a
  | .posinfo p => s.reqPosinfo p
  | .prepared p a => s.reqPrepared p a
  | .splicenow p => s.reqSplicenow p
  | .splicefix p a => s.reqSplicefix p a
  | .linecfg l st f => s.reqLinecfg l st f
  | .lineinfo l => s.reqLineinfo l
  | .envset k a cs ls o => s.reqEnvset k a cs ls o
  | .envsel l a sa b sb => s.reqEnvsel l a sa b sb
  | .envinfo k n => s.reqEnvinfo k n
  | .runstart l n t => s.reqRunstart l n t
  | .runend l => s.reqRunend l
  | .runinfo l => s.reqRuninfo l
  | .splicelist l n => s.reqSplicelist l n
  | .noticecfg k m v => s.reqNoticecfg k m v

/-- The answer of a request in the present phase (R171, R173). -/
def State.answer (s : State) (r : Request) : State × Answer :=
  if allowedIn s.link.phase r then s.perform r else s.refuse .phase

/-- The reply of an answer: the request's kind plus 128, its tag, the status byte and the data (R171, R193). -/
def replyTo (tag : Nat) (r : Request) (a : Answer) : Reply := ⟨kindOf r + 128, tag, be1 a.status.code ++ a.data⟩

/-- A request answered and its reply queued (R171). -/
def State.respond (s : State) (tag : Nat) (r : Request) : State :=
  (s.answer r).1.pushReply (replyTo tag r (s.answer r).2)

/-- A request is taken when the reply queue has a free place; otherwise it is not taken (R171; log 2). A free transmitter then takes
its next frame (R172; log 8). -/
def State.serve (s : State) (tag : Nat) (r : Request) : State := if s.link.replies.length < 8 then (s.respond tag r).transmit else s

/-- The head request taken (R171). -/
def State.serveHead (s : State) : State :=
  match s.link.requests with
  | [] => s
  | q :: qs =>
    if s.link.replies.length < 8 then
      (({ s with link := { s.link with requests := qs } } : State).respond q.tag q.request).transmit
    else s

end Sys2Proof.Machine
end

