-- ==== Sys2Proof/Machine/Timers.lean ====
section
/-!
DEFINITION. The hall clock's tick with the blocks that watch it (R13, R78, R178), and the millisecond that passes while no command
waits (log 1).
-/

namespace Sys2Proof.Machine

/-- The rest watch at a rise of the clock: once reached, it moves on (R13). -/
def State.watchTick (s : State) : State := if s.rest.watch = some s.clock.seconds then s.rewatch else s

/-- A rise of the hall clock, as one event: rest watch, zone waits, and the passes they call for (R178; log 5). -/
def State.tick (s : State) : State :=
  if s.clock.seconds < counterMax then
    ({ s with clock := ⟨s.clock.seconds + 1, 0⟩ } : State).watchTick.judgeHolds.close s false
  else { s with clock := { s.clock with ms := 0 } }

/-- The rest watch is reached: by this rise of the clock, or by a clock that stands at or past it (R13; log 5). -/
def State.reachWatch (s : State) : State :=
  match s.rest.watch with
  | none => s
  | some w =>
    if w ≤ s.clock.seconds then s.rewatch.close s false else if w = s.clock.seconds + 1 then s.tick else s

/-- The order is HELD(ZONES), not yet reported, past the zone wait limit (R78). -/
def State.holdExceeds (s : State) (o : Order) : Bool :=
  o.state = .heldZones && !o.holdReported && decide (s.vconfig.zoneWait < s.secondsHeld o)

/-- A hold exceeds the zone wait limit: now, or by this rise of the clock (R78; log 5). -/
def State.exceedHold (s : State) (t : Nat) : State :=
  match s.order t with
  | none => s
  | some o =>
    if s.holdExceeds o then s.judgeHold t
    else if ({ s with clock := ⟨s.clock.seconds + 1, 0⟩ } : State).holdExceeds o then s.tick
    else s

/-! ### A millisecond (log 1) -/

/-- A running ms timer after one more. -/
def nextMs : Option Nat → Option Nat
  | some n => some (n + 1)
  | none => none

def Receiver.aged (r : Receiver) : Receiver := if r.held = [] then r else { r with gapMs := r.gapMs + 1 }

/-- The silence timer counts for a vehicle that is neither ABSENT nor LOST (R64, R68), the time since the last frame for every one that
is not ABSENT (R85), the offer timer where it runs (R69). -/
def Vehicle.aged (x : Vehicle) : Vehicle :=
  { x with
    silenceMs := if x.state.listening then x.silenceMs + 1 else x.silenceMs
    sinceFrameMs := if x.state = .absent then x.sinceFrameMs else x.sinceFrameMs + 1
    offerMs := nextMs x.offerMs }

/-- The running timers of a splice sequence (R111). DESIGN CHOICE: firing time counts in FIRING and confirm time in CONFIRM, each
standing still once that state is left (log 1, unsafe). -/
def Position.aged (x : Position) : Position :=
  { x with splice := { x.splice with
      matchMs := nextMs x.splice.matchMs
      pasteMs := nextMs x.splice.pasteMs
      cutMs := nextMs x.splice.cutMs
      firingMs := if x.sequence = .firing then x.splice.firingMs + 1 else x.splice.firingMs
      confirmMs := if x.sequence = .confirm then x.splice.confirmMs + 1 else x.splice.confirmMs } }

def Web.aged (x : Web) : Web := if x.sample.isSome then { x with ageMs := min 65535 (x.ageMs + 1) } else x

/-- One millisecond passes: every running timer counts it; what a timer's end does is a command of its own (log 1). -/
def State.millisecond (s : State) : State :=
  { s with
    link := { s.link with rx := s.link.rx.aged }
    clock := { s.clock with ms := min 1000 (s.clock.ms + 1) }
    vehicles := s.vehicles.mapEntries fun _ x => x.aged
    vlink := { s.vlink with rx := s.vlink.rx.aged }
    positions := s.positions.mapEntries fun _ x => x.aged
    webs := s.webs.mapEntries fun _ x => x.aged }

end Sys2Proof.Machine
end

