-- ==== Sys2Proof/Machine/ExecCounting.lean ====
section
/-!
DEFINITION. The meanings of the copy counting commands and of the field inputs (chapter 7; R79, R113, R123, R124). An input that does
not exist leaves the state as it is (log 3).
-/

namespace Sys2Proof.Machine

/-- COPY_EVENT: an accepted change of the line's copy input to active (R132; log 6). -/
def execCopyEvent (line : Nat) (s : State) : Host.Outcome State Fault Refusal := .next (s.accepted (.copy line) true).transmit

/-- DIVERT_CHANGE (R131; log 6). -/
def execDivertChange (line : Nat) (active : Bool) (s : State) : Host.Outcome State Fault Refusal :=
  .next (s.acceptedLevel (.divert line) active).transmit

/-- PRESS_RUNNING_RISE (R113, R131, R147; log 6). -/
def execPressRunningRise (line : Nat) (s : State) : Host.Outcome State Fault Refusal :=
  .next (s.acceptedLevel (.pressRunning line) true).transmit

/-- PRESS_RUNNING_FALL (R123, R131; log 6). -/
def execPressRunningFall (line : Nat) (s : State) : Host.Outcome State Fault Refusal :=
  .next (s.acceptedLevel (.pressRunning line) false).transmit

/-- ESTOP_ASSERTED (R79, R124; log 6). -/
def execEstopAsserted (s : State) : Host.Outcome State Fault Refusal := .next (s.acceptedLevel .emergencyStop true).transmit

/-- ESTOP_RELEASED (R79, R124; log 6). -/
def execEstopReleased (s : State) : Host.Outcome State Fault Refusal := .next (s.acceptedLevel .emergencyStop false).transmit

/-- TENSION_SAMPLE_DELIVERED: the conversion in progress ends with this sample, and the channel of the next interval is chosen
(R134, R135). -/
def execTensionSampleDelivered (sample : Nat) (s : State) : Host.Outcome State Fault Refusal := .next (s.endConversion sample)

/-- INPUT_FILTER_SAMPLE (R129). -/
def execInputFilterSample (input : FieldInput) (high : Bool) (s : State) : Host.Outcome State Fault Refusal :=
  .next (s.sampleInput input high).transmit

/-- CONVERSION_INTERVAL_START: an interval starts without a conversion ending before it (R135). -/
def execConversionIntervalStart (s : State) : Host.Outcome State Fault Refusal := .next s.startInterval

end Sys2Proof.Machine
end

