-- ==== Sys2Proof/Machine/ExecFeed.lean ====
section
/-!
DEFINITION. The meanings of the feed positions' commands (chapters 5 and 6). A position that does not exist or is disabled leaves the
state as it is (log 3, log 22).
-/

namespace Sys2Proof.Machine

/-- The position exists and is enabled, so that it is measured (R87; log 22). -/
def State.measures (s : State) (p : Nat) : Bool := positionOk p && (s.pos p).enabled

/-- SPEED_WINDOW (R91). -/
def execSpeedWindow (position standbyCounts : Nat) (s : State) : Host.Outcome State Fault Refusal :=
  .next (if s.measures position then ((s.closeWindow position standbyCounts).close s false).transmit else s)

/-- MATCH_HOLD_EXPIRY (R115; log 4). -/
def execMatchHoldExpiry (position : Nat) (s : State) : Host.Outcome State Fault Refusal :=
  .next (if s.measures position then (s.holdMatched position).transmit else s)

/-- WEB_COUNT (R93, R118, R119, R122). -/
def execWebCount (position : Nat) (s : State) : Host.Outcome State Fault Refusal :=
  .next (if s.measures position then (s.countWeb position).transmit else s)

/-- PASTE_END (R118, R119; log 4). -/
def execPasteEnd (position : Nat) (s : State) : Host.Outcome State Fault Refusal :=
  .next (if s.measures position then ((s.endPaste position).close s false).transmit else s)

/-- CUT_END (R118, R119; log 4). -/
def execCutEnd (position : Nat) (s : State) : Host.Outcome State Fault Refusal :=
  .next (if s.measures position then ((s.endCut position).close s false).transmit else s)

/-- FIRING_TIMEOUT (R118, R121; log 4). -/
def execFiringTimeout (position : Nat) (s : State) : Host.Outcome State Fault Refusal :=
  .next (if s.measures position then (s.failFiring position).transmit else s)

/-- CONFIRM_WINDOW_EXPIRY (R119, R121; log 4). -/
def execConfirmWindowExpiry (position : Nat) (s : State) : Host.Outcome State Fault Refusal :=
  .next (if s.measures position then (s.failConfirm position).transmit else s)

/-- CONFIRM_EDGE (R119; log 6). -/
def execConfirmEdge (position : Nat) (s : State) : Host.Outcome State Fault Refusal :=
  .next (s.accepted (.spliceConfirm position) true).transmit

/-- REVOLUTION_MARK (R93; log 6). -/
def execRevolutionMark (position : Nat) (s : State) : Host.Outcome State Fault Refusal :=
  .next (s.accepted (.revolutionMark position) true).transmit

end Sys2Proof.Machine
end

