-- ==== Sys2Proof/Machine/ExecPorts.lean ====
section
/-!
DEFINITION. The meanings of the port commands: pin reset, bytes received, oversize lengths, gaps, the taking of a request, and the
line link transmitter.
-/

namespace Sys2Proof.Machine

/-- PIN_RESET: every block in its pin reset state, the strap read (R173, R182; log 8, log 26). -/
def execPinReset (strap : LinkRate) (s : State) : Host.Outcome State Fault Refusal := .next (s.pinReset strap).transmit

/-- LINE_FRAME_RECEIVED: the bytes taken by the line link receiver, and each whole frame judged (R166 to R169; log 7). -/
def execLineFrameReceived (bytes : Bytes) (s : State) : Host.Outcome State Fault Refusal := .next (s.lineBytes bytes)

/-- OVERSIZE_LENGTH (R166; log 7). -/
def execOversizeLength (port : Port) (length : Byte) (s : State) : Host.Outcome State Fault Refusal :=
  .next (s.oversizeOn port length)

/-- GAP_TIMEOUT (R166). -/
def execGapTimeout (port : Port) (s : State) : Host.Outcome State Fault Refusal := .next (s.gapOn port)

/-- REQUEST_TAKEN (R171). -/
def execRequestTaken (s : State) : Host.Outcome State Fault Refusal := .next s.serveHead

/-- LINE_FRAME_SENT: the transmitter becomes free and takes its next frame (R172; log 8). -/
def execLineFrameSent (s : State) : Host.Outcome State Fault Refusal := .next s.startLineFrame

end Sys2Proof.Machine
end

