-- ==== Sys2Proof/Machine/ExecRequests.lean ====
section
/-!
DEFINITION. The meanings of the request commands, one for each: the request of that kind with the tag and fields given is taken
(R171; log 2). Its effect and answer are the request's own definition (`State.reqIdent` and so on).
-/

namespace Sys2Proof.Machine

/-- IDENT (R180). -/
def execIdent (tag : Nat) (s : State) : Host.Outcome State Fault Refusal :=
  .next (s.serve tag .ident)

/-- STATUS (R181). -/
def execStatus (tag : Nat) (s : State) : Host.Outcome State Fault Refusal :=
  .next (s.serve tag .status)

/-- SETCLOCK (R179). -/
def execSetclock (tag value : Nat) (s : State) : Host.Outcome State Fault Refusal :=
  .next (s.serve tag (.setclock value))

/-- RESTART (R182). -/
def execRestart (tag : Nat) (s : State) : Host.Outcome State Fault Refusal :=
  .next (s.serve tag .restart)

/-- DEFNODE (R174). -/
def execDefnode (tag node zone kind : Nat) (s : State) : Host.Outcome State Fault Refusal :=
  .next (s.serve tag (.defnode node zone kind))

/-- DEFBAY (R174). -/
def execDefbay (tag bay node height : Nat) (s : State) : Host.Outcome State Fault Refusal :=
  .next (s.serve tag (.defbay bay node height))

/-- DEFROUTE (R175). -/
def execDefroute (tag src dst length : Nat) (zones : List Nat) (s : State) : Host.Outcome State Fault Refusal :=
  .next (s.serve tag (.defroute src dst length zones))

/-- DEFPOS (R176). -/
def execDefpos (tag position node enabled : Nat) (s : State) : Host.Outcome State Fault Refusal :=
  .next (s.serve tag (.defpos position node enabled))

/-- COMMIT (R177). -/
def execCommit (tag : Nat) (s : State) : Host.Outcome State Fault Refusal :=
  .next (s.serve tag .commit)

/-- INTAKE (R14). -/
def execIntake (tag : Nat) (reel : ReelData) (node bay : Nat) (s : State) : Host.Outcome State Fault Refusal :=
  .next (s.serve tag (.intake reel node bay))

/-- RESTOCK (R16). -/
def execRestock (tag : Nat) (reel : ReelData) (origin arrival bay level : Nat)
    (s : State) : Host.Outcome State Fault Refusal :=
  .next (s.serve tag (.restock reel origin arrival bay level))

/-- REELINFO (R17). -/
def execReelinfo (tag reel mode : Nat) (s : State) : Host.Outcome State Fault Refusal :=
  .next (s.serve tag (.reelinfo reel mode))

/-- REMOVE (R18). -/
def execRemove (tag reel : Nat) (s : State) : Host.Outcome State Fault Refusal :=
  .next (s.serve tag (.remove reel))

/-- RESTTIME (R19). -/
def execResttime (tag grade minutes : Nat) (s : State) : Host.Outcome State Fault Refusal :=
  .next (s.serve tag (.resttime grade minutes))

/-- BAYINFO (R37). -/
def execBayinfo (tag bay mode : Nat) (s : State) : Host.Outcome State Fault Refusal :=
  .next (s.serve tag (.bayinfo bay mode))

/-- DELIVER (R56). -/
def execDeliver (tag position reel priority : Nat) (s : State) : Host.Outcome State Fault Refusal :=
  .next (s.serve tag (.deliver position reel priority))

/-- RELOCATE (R57). -/
def execRelocate (tag reel bay priority : Nat) (s : State) : Host.Outcome State Fault Refusal :=
  .next (s.serve tag (.relocate reel bay priority))

/-- RETURN (R58). -/
def execRet (tag position arm bay priority : Nat) (s : State) : Host.Outcome State Fault Refusal :=
  .next (s.serve tag (.ret position arm bay priority))

/-- CLEAR (R58). -/
def execClear (tag position arm priority : Nat) (s : State) : Host.Outcome State Fault Refusal :=
  .next (s.serve tag (.clear position arm priority))

/-- PARK (R59). -/
def execPark (tag vehicle node priority : Nat) (s : State) : Host.Outcome State Fault Refusal :=
  .next (s.serve tag (.park vehicle node priority))

/-- CANCEL (R60). -/
def execCancel (tag order : Nat) (s : State) : Host.Outcome State Fault Refusal :=
  .next (s.serve tag (.cancel order))

/-- RESOLVE (R61). -/
def execResolve (tag order action : Nat) (s : State) : Host.Outcome State Fault Refusal :=
  .next (s.serve tag (.resolve order action))

/-- ORDERINFO (R62). -/
def execOrderinfo (tag order mode : Nat) (s : State) : Host.Outcome State Fault Refusal :=
  .next (s.serve tag (.orderinfo order mode))

/-- HALT (R82). -/
def execHalt (tag vehicle : Nat) (s : State) : Host.Outcome State Fault Refusal :=
  .next (s.serve tag (.halt vehicle))

/-- RESUME (R83). -/
def execResume (tag vehicle : Nat) (s : State) : Host.Outcome State Fault Refusal :=
  .next (s.serve tag (.resume vehicle))

/-- RETIRE (R84). -/
def execRetire (tag vehicle : Nat) (s : State) : Host.Outcome State Fault Refusal :=
  .next (s.serve tag (.retire vehicle))

/-- VEHINFO (R85). -/
def execVehinfo (tag vehicle : Nat) (s : State) : Host.Outcome State Fault Refusal :=
  .next (s.serve tag (.vehinfo vehicle))

/-- VEHCFG (R86). -/
def execVehcfg (tag offerTimeout heartbeat lowBattery zoneWait : Nat) (s : State) : Host.Outcome State Fault Refusal :=
  .next (s.serve tag (.vehcfg offerTimeout heartbeat lowBattery zoneWait))

/-- POSCFG (R104). -/
def execPoscfg (tag position : Nat) (params : Params) (s : State) : Host.Outcome State Fault Refusal :=
  .next (s.serve tag (.poscfg position params))

/-- DEMAND (R105). -/
def execDemand (tag position grade width : Nat) (s : State) : Host.Outcome State Fault Refusal :=
  .next (s.serve tag (.demand position grade width))

/-- THREAD (R106). -/
def execThread (tag position arm : Nat) (s : State) : Host.Outcome State Fault Refusal :=
  .next (s.serve tag (.thread position arm))

/-- LOADREEL (R107). -/
def execLoadreel (tag position arm : Nat) (reel : ReelData) (s : State) : Host.Outcome State Fault Refusal :=
  .next (s.serve tag (.loadreel position arm reel))

/-- UNLOAD (R108). -/
def execUnload (tag position : Nat) (s : State) : Host.Outcome State Fault Refusal :=
  .next (s.serve tag (.unload position))

/-- BUTTOFF (R109). -/
def execButtoff (tag position arm : Nat) (s : State) : Host.Outcome State Fault Refusal :=
  .next (s.serve tag (.buttoff position arm))

/-- POSINFO (R110). -/
def execPosinfo (tag position : Nat) (s : State) : Host.Outcome State Fault Refusal :=
  .next (s.serve tag (.posinfo position))

/-- PREPARED (R126). -/
def execPrepared (tag position arm : Nat) (s : State) : Host.Outcome State Fault Refusal :=
  .next (s.serve tag (.prepared position arm))

/-- SPLICENOW (R127). -/
def execSplicenow (tag position : Nat) (s : State) : Host.Outcome State Fault Refusal :=
  .next (s.serve tag (.splicenow position))

/-- SPLICEFIX (R128). -/
def execSplicefix (tag position arm : Nat) (s : State) : Host.Outcome State Fault Refusal :=
  .next (s.serve tag (.splicefix position arm))

/-- LINECFG (R139). -/
def execLinecfg (tag line steady filter : Nat) (s : State) : Host.Outcome State Fault Refusal :=
  .next (s.serve tag (.linecfg line steady filter))

/-- LINEINFO (R140). -/
def execLineinfo (tag line : Nat) (s : State) : Host.Outcome State Fault Refusal :=
  .next (s.serve tag (.lineinfo line))

/-- ENVSET (R151). -/
def execEnvset (tag slot action : Nat) (codes levels : List Nat) (offset : Int)
    (s : State) : Host.Outcome State Fault Refusal :=
  .next (s.serve tag (.envset slot action codes levels offset))

/-- ENVSEL (R152). -/
def execEnvsel (tag line startSlot startSignature spliceSlot spliceSignature : Nat)
    (s : State) : Host.Outcome State Fault Refusal :=
  .next (s.serve tag (.envsel line startSlot startSignature spliceSlot spliceSignature))

/-- ENVINFO (R153). -/
def execEnvinfo (tag slot probe : Nat) (s : State) : Host.Outcome State Fault Refusal :=
  .next (s.serve tag (.envinfo slot probe))

/-- RUNSTART (R162). -/
def execRunstart (tag line number target : Nat) (s : State) : Host.Outcome State Fault Refusal :=
  .next (s.serve tag (.runstart line number target))

/-- RUNEND (R163). -/
def execRunend (tag line : Nat) (s : State) : Host.Outcome State Fault Refusal :=
  .next (s.serve tag (.runend line))

/-- RUNINFO (R164). -/
def execRuninfo (tag line : Nat) (s : State) : Host.Outcome State Fault Refusal :=
  .next (s.serve tag (.runinfo line))

/-- SPLICELIST (R165). -/
def execSplicelist (tag line first : Nat) (s : State) : Host.Outcome State Fault Refusal :=
  .next (s.serve tag (.splicelist line first))

/-- NOTICECFG (R191). -/
def execNoticecfg (tag source mode level : Nat) (s : State) : Host.Outcome State Fault Refusal :=
  .next (s.serve tag (.noticecfg source mode level))

end Sys2Proof.Machine
end

