-- ==== Sys2Proof/Machine/ExecVehicles.lean ====
section
/-!
DEFINITION. The meanings of the vehicle link's commands, of the vehicle timers and of the hall clock's (chapter 4; R13, R78, R178).
A vehicle number that no slot has leaves the state as it is (log 3).
-/

namespace Sys2Proof.Machine

/-- VEHICLE_FRAME_DISCARDED: the bytes taken by the vehicle link receiver; what is discarded is counted (R81, R192; log 7). -/
def execVehicleFrameDiscarded (bytes : Bytes) (s : State) : Host.Outcome State Fault Refusal := .next (s.vehicleBytes bytes)

/-- JOIN (R65, R67, R173). -/
def execJoin (vehicle node load battery : Nat) (s : State) : Host.Outcome State Fault Refusal :=
  .next (s.joinFrame vehicle node load battery).transmit

/-- TAKE (R71). -/
def execTake (vehicle order leg : Nat) (s : State) : Host.Outcome State Fault Refusal :=
  .next (s.vehicleFrame vehicle fun s => s.takeFrame vehicle order leg).transmit

/-- PASS (R72). -/
def execPass (vehicle zone : Nat) (s : State) : Host.Outcome State Fault Refusal :=
  .next (s.vehicleFrame vehicle fun s => s.passFrame vehicle zone).transmit

/-- DONE (R73). -/
def execDone (vehicle order leg : Nat) (result : DoneResult) (node reel : Nat) (s : State) :
    Host.Outcome State Fault Refusal :=
  .next (s.vehicleFrame vehicle fun s => s.doneFrame vehicle order leg result node reel).transmit

/-- ALIVE (R74). -/
def execAlive (vehicle battery node : Nat) (s : State) : Host.Outcome State Fault Refusal :=
  .next (s.vehicleFrame vehicle fun s => s.aliveFrame vehicle battery node).transmit

/-- FAULT (R66). -/
def execFault (vehicle : Nat) (code : ReportedFault) (s : State) : Host.Outcome State Fault Refusal :=
  .next (s.vehicleFrame vehicle fun s => s.faultVehicle vehicle (faultCodeOf code) false).transmit

/-- READY (R70). -/
def execReady (vehicle : Nat) (s : State) : Host.Outcome State Fault Refusal :=
  .next (s.vehicleFrame vehicle fun s => s.readyFrame vehicle).transmit

/-- VEHICLE_FRAME_SENT: the frame in transmission ends and the next begins (R43, R79, R80; log 8, log 9). -/
def execVehicleFrameSent (s : State) : Host.Outcome State Fault Refusal := .next s.endVehicleFrame.startVehicleFrame

/-- OFFER_TIMEOUT (R69; log 4). -/
def execOfferTimeout (vehicle : Nat) (s : State) : Host.Outcome State Fault Refusal :=
  .next (if vehicleOk vehicle then ((s.offerEvent vehicle).close s false).transmit else s)

/-- SILENCE_TIMEOUT (R68; log 4). -/
def execSilenceTimeout (vehicle : Nat) (s : State) : Host.Outcome State Fault Refusal :=
  .next (if vehicleOk vehicle then ((s.silenceEvent vehicle).close s false).transmit else s)

/-- ZONE_WAIT_LIMIT (R78; log 5). -/
def execZoneWaitLimit (order : Nat) (s : State) : Host.Outcome State Fault Refusal := .next (s.exceedHold order).transmit

/-- HALL_CLOCK_TICK (R178; log 5). -/
def execHallClockTick (s : State) : Host.Outcome State Fault Refusal := .next s.tick.transmit

/-- REST_WATCH_REACHED (R13; log 5). -/
def execRestWatchReached (s : State) : Host.Outcome State Fault Refusal := .next s.reachWatch.transmit

end Sys2Proof.Machine
end

