-- ==== Sys2Proof/Machine/Dispatch.lean ====
section
/-! DEFINITION. The meaning of every command: one arm per constructor of `Instr`. -/

namespace Sys2Proof.Machine

def exec (i : Instr) (s : State) : Host.Outcome State Fault Refusal :=
  match i with
  | .pinReset strap => Sys2Proof.Machine.execPinReset strap s
  | .lineFrameReceived bytes => Sys2Proof.Machine.execLineFrameReceived bytes s
  | .oversizeLength port length => Sys2Proof.Machine.execOversizeLength port length s
  | .gapTimeout port => Sys2Proof.Machine.execGapTimeout port s
  | .requestTaken => Sys2Proof.Machine.execRequestTaken s
  | .lineFrameSent => Sys2Proof.Machine.execLineFrameSent s
  | .ident tag => Sys2Proof.Machine.execIdent tag s
  | .status tag => Sys2Proof.Machine.execStatus tag s
  | .setclock tag value => Sys2Proof.Machine.execSetclock tag value s
  | .restart tag => Sys2Proof.Machine.execRestart tag s
  | .defnode tag node zone kind => Sys2Proof.Machine.execDefnode tag node zone kind s
  | .defbay tag bay node height => Sys2Proof.Machine.execDefbay tag bay node height s
  | .defroute tag src dst length zones => Sys2Proof.Machine.execDefroute tag src dst length zones s
  | .defpos tag position node enabled => Sys2Proof.Machine.execDefpos tag position node enabled s
  | .commit tag => Sys2Proof.Machine.execCommit tag s
  | .intake tag reel node bay => Sys2Proof.Machine.execIntake tag reel node bay s
  | .restock tag reel origin arrival bay level => Sys2Proof.Machine.execRestock tag reel origin arrival bay level s
  | .reelinfo tag reel mode => Sys2Proof.Machine.execReelinfo tag reel mode s
  | .remove tag reel => Sys2Proof.Machine.execRemove tag reel s
  | .resttime tag grade minutes => Sys2Proof.Machine.execResttime tag grade minutes s
  | .bayinfo tag bay mode => Sys2Proof.Machine.execBayinfo tag bay mode s
  | .deliver tag position reel priority => Sys2Proof.Machine.execDeliver tag position reel priority s
  | .relocate tag reel bay priority => Sys2Proof.Machine.execRelocate tag reel bay priority s
  | .ret tag position arm bay priority => Sys2Proof.Machine.execRet tag position arm bay priority s
  | .clear tag position arm priority => Sys2Proof.Machine.execClear tag position arm priority s
  | .park tag vehicle node priority => Sys2Proof.Machine.execPark tag vehicle node priority s
  | .cancel tag order => Sys2Proof.Machine.execCancel tag order s
  | .resolve tag order action => Sys2Proof.Machine.execResolve tag order action s
  | .orderinfo tag order mode => Sys2Proof.Machine.execOrderinfo tag order mode s
  | .halt tag vehicle => Sys2Proof.Machine.execHalt tag vehicle s
  | .resume tag vehicle => Sys2Proof.Machine.execResume tag vehicle s
  | .retire tag vehicle => Sys2Proof.Machine.execRetire tag vehicle s
  | .vehinfo tag vehicle => Sys2Proof.Machine.execVehinfo tag vehicle s
  | .vehcfg tag offerTimeout heartbeat lowBattery zoneWait => Sys2Proof.Machine.execVehcfg tag offerTimeout heartbeat lowBattery zoneWait s
  | .poscfg tag position params => Sys2Proof.Machine.execPoscfg tag position params s
  | .demand tag position grade width => Sys2Proof.Machine.execDemand tag position grade width s
  | .thread tag position arm => Sys2Proof.Machine.execThread tag position arm s
  | .loadreel tag position arm reel => Sys2Proof.Machine.execLoadreel tag position arm reel s
  | .unload tag position => Sys2Proof.Machine.execUnload tag position s
  | .buttoff tag position arm => Sys2Proof.Machine.execButtoff tag position arm s
  | .posinfo tag position => Sys2Proof.Machine.execPosinfo tag position s
  | .prepared tag position arm => Sys2Proof.Machine.execPrepared tag position arm s
  | .splicenow tag position => Sys2Proof.Machine.execSplicenow tag position s
  | .splicefix tag position arm => Sys2Proof.Machine.execSplicefix tag position arm s
  | .linecfg tag line steady filter => Sys2Proof.Machine.execLinecfg tag line steady filter s
  | .lineinfo tag line => Sys2Proof.Machine.execLineinfo tag line s
  | .envset tag slot action codes levels offset => Sys2Proof.Machine.execEnvset tag slot action codes levels offset s
  | .envsel tag line startSlot startSignature spliceSlot spliceSignature => Sys2Proof.Machine.execEnvsel tag line startSlot startSignature spliceSlot spliceSignature s
  | .envinfo tag slot probe => Sys2Proof.Machine.execEnvinfo tag slot probe s
  | .runstart tag line number target => Sys2Proof.Machine.execRunstart tag line number target s
  | .runend tag line => Sys2Proof.Machine.execRunend tag line s
  | .runinfo tag line => Sys2Proof.Machine.execRuninfo tag line s
  | .splicelist tag line first => Sys2Proof.Machine.execSplicelist tag line first s
  | .noticecfg tag source mode level => Sys2Proof.Machine.execNoticecfg tag source mode level s
  | .vehicleFrameDiscarded bytes => Sys2Proof.Machine.execVehicleFrameDiscarded bytes s
  | .join vehicle node load battery => Sys2Proof.Machine.execJoin vehicle node load battery s
  | .take vehicle order leg => Sys2Proof.Machine.execTake vehicle order leg s
  | .pass vehicle zone => Sys2Proof.Machine.execPass vehicle zone s
  | .done vehicle order leg result node reel => Sys2Proof.Machine.execDone vehicle order leg result node reel s
  | .alive vehicle battery node => Sys2Proof.Machine.execAlive vehicle battery node s
  | .fault vehicle code => Sys2Proof.Machine.execFault vehicle code s
  | .ready vehicle => Sys2Proof.Machine.execReady vehicle s
  | .vehicleFrameSent => Sys2Proof.Machine.execVehicleFrameSent s
  | .offerTimeout vehicle => Sys2Proof.Machine.execOfferTimeout vehicle s
  | .silenceTimeout vehicle => Sys2Proof.Machine.execSilenceTimeout vehicle s
  | .zoneWaitLimit order => Sys2Proof.Machine.execZoneWaitLimit order s
  | .hallClockTick => Sys2Proof.Machine.execHallClockTick s
  | .restWatchReached => Sys2Proof.Machine.execRestWatchReached s
  | .speedWindow position standbyCounts => Sys2Proof.Machine.execSpeedWindow position standbyCounts s
  | .matchHoldExpiry position => Sys2Proof.Machine.execMatchHoldExpiry position s
  | .webCount position => Sys2Proof.Machine.execWebCount position s
  | .pasteEnd position => Sys2Proof.Machine.execPasteEnd position s
  | .cutEnd position => Sys2Proof.Machine.execCutEnd position s
  | .firingTimeout position => Sys2Proof.Machine.execFiringTimeout position s
  | .confirmWindowExpiry position => Sys2Proof.Machine.execConfirmWindowExpiry position s
  | .confirmEdge position => Sys2Proof.Machine.execConfirmEdge position s
  | .revolutionMark position => Sys2Proof.Machine.execRevolutionMark position s
  | .copyEvent line => Sys2Proof.Machine.execCopyEvent line s
  | .divertChange line active => Sys2Proof.Machine.execDivertChange line active s
  | .pressRunningRise line => Sys2Proof.Machine.execPressRunningRise line s
  | .pressRunningFall line => Sys2Proof.Machine.execPressRunningFall line s
  | .estopAsserted => Sys2Proof.Machine.execEstopAsserted s
  | .estopReleased => Sys2Proof.Machine.execEstopReleased s
  | .tensionSampleDelivered sample => Sys2Proof.Machine.execTensionSampleDelivered sample s
  | .inputFilterSample input high => Sys2Proof.Machine.execInputFilterSample input high s
  | .conversionIntervalStart => Sys2Proof.Machine.execConversionIntervalStart s

end Sys2Proof.Machine
end

