-- ==== Sys2Proof/WellFormed.lean ====
section
/-!
DEFINITION. The commands that can reach the part: each operand in the width of the field it travels in (12.2, 12.3), and each unit
number in its range where the command is an event of that unit (00_scope, Identifiers). Whether a request's fields are
in range is the owning block's to judge (R192), so a request with such a field is well formed.
-/

namespace Sys2Proof

/-- A field of one byte, two bytes, four bytes. -/
def inByte (n : Nat) : Bool := decide (n < 256)
def inPair (n : Nat) : Bool := decide (n < 65536)
def inQuad (n : Nat) : Bool := decide (n < 4294967296)

/-- A unit number between 1 and `top`. -/
def unitUpTo (top n : Nat) : Bool := decide (1 ≤ n) && decide (n ≤ top)

/-- The fields of a reel data block fit their widths (12.4). -/
def ReelData.fits (d : ReelData) : Bool :=
  inQuad d.id && inByte d.grade && inByte d.width && inPair d.diameter && inByte d.caliper && inPair d.mass

/-- The fields of a parameter block fit their widths (12.5). -/
def Params.fits (q : Params) : Bool :=
  inPair q.spliceDiameter && inByte q.coreDiameter && inPair q.returnDiameter && inQuad q.accelLength &&
    inQuad q.armLength && inPair q.fireLength && inPair q.pasteToCut && inPair q.confirmLength && inPair q.pastePulse &&
    inPair q.cutPulse && inByte q.matchTolerance && inPair q.matchHold && inPair q.leadTime && inQuad q.callOffLength &&
    inPair q.urgentMargin && inPair q.tensionSetpoint

/-- ENVSET travels with a whole envelope for WRITE (1) and with none for CLEAR (2) (R192). -/
def envsetFits (slot action : Nat) (codes levels : List Nat) (offset : Int) : Bool :=
  inByte slot &&
    ((decide (action = 1) && decide (codes.length = 12) && decide (levels.length = 12) && codes.all inByte &&
        levels.all inByte && decide (-128 ≤ offset) && decide (offset ≤ 127)) ||
      (decide (action = 2) && decide (codes = []) && decide (levels = []) && decide (offset = 0)))

/-- The fields of a request fit their widths (12.3). -/
def Request.fits : Request → Bool
  | .ident => true
  | .status => true
  | .setclock v => inQuad v
  | .restart => true
  | .defnode n z k => inByte n && inByte z && inByte k
  | .defbay b n h => inByte b && inByte n && inByte h
  | .defroute a b len zs => inByte a && inByte b && inPair len && zs.all inByte && decide (zs.length ≤ 8)
  | .defpos p n e => inByte p && inByte n && inByte e
  | .commit => true
  | .intake d n b => d.fits && inByte n && inByte b
  | .restock d o a b l => d.fits && inByte o && inQuad a && inByte b && inByte l
  | .reelinfo r m => inQuad r && inByte m
  | .remove r => inQuad r
  | .resttime g m => inByte g && inPair m
  | .bayinfo b m => inByte b && inByte m
  | .deliver p r q => inByte p && inQuad r && inByte q
  | .relocate r b q => inQuad r && inByte b && inByte q
  | .ret p a b q => inByte p && inByte a && inByte b && inByte q
  | .clear p a q => inByte p && inByte a && inByte q
  | .park v n q => inByte v && inByte n && inByte q
  | .cancel t => inPair t
  | .resolve t a => inPair t && inByte a
  | .orderinfo t m => inPair t && inByte m
  | .halt v => inByte v
  | .resume v => inByte v
  | .retire v => inByte v
  | .vehinfo v => inByte v
  | .vehcfg o h b z => inByte o && inByte h && inByte b && inPair z
  | .poscfg p q => inByte p && q.fits
  | .demand p g w => inByte p && inByte g && inByte w
  | .thread p a => inByte p && inByte a
  | .loadreel p a d => inByte p && inByte a && d.fits
  | .unload p => inByte p
  | .buttoff p a => inByte p && inByte a
  | .posinfo p => inByte p
  | .prepared p a => inByte p && inByte a
  | .splicenow p => inByte p
  | .splicefix p a => inByte p && inByte a
  | .linecfg l st f => inByte l && inByte st && inByte f
  | .lineinfo l => inByte l
  | .envset k a cs ls o => envsetFits k a cs ls o
  | .envsel l a sa b sb => inByte l && inByte a && inPair sa && inByte b && inPair sb
  | .envinfo k n => inByte k && inPair n
  | .runstart l n t => inByte l && inQuad n && inQuad t
  | .runend l => inByte l
  | .runinfo l => inByte l
  | .splicelist l n => inByte l && inByte n
  | .noticecfg k m v => inByte k && inByte m && inByte v

/-- The request a request command takes, with its tag (R171); none for every other command. -/
def Instr.request : Instr → Option (Nat × Request)
  | .ident t => some (t, .ident)
  | .status t => some (t, .status)
  | .setclock t v => some (t, .setclock v)
  | .restart t => some (t, .restart)
  | .defnode t n z k => some (t, .defnode n z k)
  | .defbay t b n h => some (t, .defbay b n h)
  | .defroute t a b len zs => some (t, .defroute a b len zs)
  | .defpos t p n e => some (t, .defpos p n e)
  | .commit t => some (t, .commit)
  | .intake t d n b => some (t, .intake d n b)
  | .restock t d o a b l => some (t, .restock d o a b l)
  | .reelinfo t r m => some (t, .reelinfo r m)
  | .remove t r => some (t, .remove r)
  | .resttime t g m => some (t, .resttime g m)
  | .bayinfo t b m => some (t, .bayinfo b m)
  | .deliver t p r q => some (t, .deliver p r q)
  | .relocate t r b q => some (t, .relocate r b q)
  | .ret t p a b q => some (t, .ret p a b q)
  | .clear t p a q => some (t, .clear p a q)
  | .park t v n q => some (t, .park v n q)
  | .cancel t o => some (t, .cancel o)
  | .resolve t o a => some (t, .resolve o a)
  | .orderinfo t o m => some (t, .orderinfo o m)
  | .halt t v => some (t, .halt v)
  | .resume t v => some (t, .resume v)
  | .retire t v => some (t, .retire v)
  | .vehinfo t v => some (t, .vehinfo v)
  | .vehcfg t o h b z => some (t, .vehcfg o h b z)
  | .poscfg t p q => some (t, .poscfg p q)
  | .demand t p g w => some (t, .demand p g w)
  | .thread t p a => some (t, .thread p a)
  | .loadreel t p a d => some (t, .loadreel p a d)
  | .unload t p => some (t, .unload p)
  | .buttoff t p a => some (t, .buttoff p a)
  | .posinfo t p => some (t, .posinfo p)
  | .prepared t p a => some (t, .prepared p a)
  | .splicenow t p => some (t, .splicenow p)
  | .splicefix t p a => some (t, .splicefix p a)
  | .linecfg t l st f => some (t, .linecfg l st f)
  | .lineinfo t l => some (t, .lineinfo l)
  | .envset t k a cs ls o => some (t, .envset k a cs ls o)
  | .envsel t l a sa b sb => some (t, .envsel l a sa b sb)
  | .envinfo t k n => some (t, .envinfo k n)
  | .runstart t l n g => some (t, .runstart l n g)
  | .runend t l => some (t, .runend l)
  | .runinfo t l => some (t, .runinfo l)
  | .splicelist t l n => some (t, .splicelist l n)
  | .noticecfg t k m v => some (t, .noticecfg k m v)
  | .pinReset _ | .lineFrameReceived _ | .oversizeLength .. | .gapTimeout _ | .requestTaken | .lineFrameSent => none
  | .vehicleFrameDiscarded _ | .join .. | .take .. | .pass .. | .done .. | .alive .. | .fault .. | .ready _ => none
  | .vehicleFrameSent | .offerTimeout _ | .silenceTimeout _ | .zoneWaitLimit _ | .hallClockTick | .restWatchReached => none
  | .speedWindow .. | .matchHoldExpiry _ | .webCount _ | .pasteEnd _ | .cutEnd _ | .firingTimeout _ => none
  | .confirmWindowExpiry _ | .confirmEdge _ | .revolutionMark _ | .copyEvent _ | .divertChange .. => none
  | .pressRunningRise _ | .pressRunningFall _ | .estopAsserted | .estopReleased | .tensionSampleDelivered _ => none
  | .inputFilterSample .. | .conversionIntervalStart => none

/-- The line or position of a field input is one the part has. -/
def FieldInput.fits : FieldInput → Bool
  | .copy l | .divert l | .pressRunning l => unitUpTo 2 l
  | .revolutionMark p | .spliceConfirm p => unitUpTo 8 p
  | .emergencyStop => true

/-- The operands of a command that is not a request fit their fields and units. -/
def Instr.eventFits : Instr → Bool
  | .oversizeLength _ b => decide (240 < b.toNat)
  | .join v n r b => unitUpTo 12 v && inByte n && inQuad r && inByte b
  | .take v t i => unitUpTo 12 v && inPair t && inByte i
  | .pass v z => unitUpTo 12 v && inByte z
  | .done v t i _ n r => unitUpTo 12 v && inPair t && inByte i && inByte n && inQuad r
  | .alive v b n => unitUpTo 12 v && inByte b && inByte n
  | .fault v _ | .ready v | .offerTimeout v | .silenceTimeout v => unitUpTo 12 v
  | .zoneWaitLimit t => unitUpTo 65535 t
  | .speedWindow p _ | .matchHoldExpiry p | .webCount p | .pasteEnd p | .cutEnd p | .firingTimeout p => unitUpTo 8 p
  | .confirmWindowExpiry p | .confirmEdge p | .revolutionMark p => unitUpTo 8 p
  | .copyEvent l | .divertChange l _ | .pressRunningRise l | .pressRunningFall l => unitUpTo 2 l
  | .tensionSampleDelivered n => decide (n ≤ 4095)
  | .inputFilterSample i _ => i.fits
  | _ => true

/-- The command is one that can reach the part. -/
def Instr.wellFormed (c : Instr) : Bool :=
  match c.request with
  | some (t, r) => inPair t && r.fits
  | none => c.eventFits

end Sys2Proof
end

