-- ==== Sys2Proof/Safety.lean ====
section
/-!
DEFINITION. The terms in which claims about the part are stated: when a request is taken, the reply it gets, the parts of the
state that a family of commands leaves alone, the channel R135 gives an interval, and the invariants that every step keeps.
-/

namespace Sys2Proof.Machine

/-! ### Requests -/

/-- A request taken now is answered, and RUN requests are allowed (R171, R173). -/
def State.takes (s : State) : Bool := decide (s.link.phase = .run) && decide (s.link.replies.length < 8)

/-- A request taken now is answered, and the floor plan requests are allowed (R171, R173). -/
def State.plans (s : State) : Bool := decide (s.link.phase = .config) && decide (s.link.replies.length < 8)

/-- The reply of a request of this kind that did what its entry states (R171, R193). -/
def okReply (kind tag : Nat) (data : Bytes) : Reply := ⟨kind + 128, tag, be1 0 ++ data⟩

/-- The reply of a request of this kind refused with a status code (R171). -/
def noReply (kind tag code : Nat) : Reply := ⟨kind + 128, tag, be1 code⟩

/-- The command `c`, taken in `s`, answers OK with `data` and leaves the part as `t`, a free transmitter then taking its next
frame. -/
def answered (c : Instr) (s : State) (kind tag : Nat) (data : Bytes) (t : State) : Prop :=
  exec c s = .next (t.pushReply (okReply kind tag data)).transmit

/-- The command `c`, taken in `s`, is refused with a status code and changes nothing (R171), a free transmitter then taking its next
frame. -/
def refusedWith (c : Instr) (s : State) (kind tag code : Nat) : Prop :=
  exec c s = .next (s.pushReply (noReply kind tag code)).transmit

/-! ### What a family leaves alone -/

/-- The parts of the state that no transport event touches: the line link, the clock, the floor plan, the vehicle settings, the
field inputs, counting, the notices' handling, and reception and transmission on the vehicle link. -/
structure Apart where
  pending : List Instr
  link : LineLink
  clock : HallClock
  nodes : Table Node
  routes : Table Route
  minutes : Table Nat
  vconfig : VehicleConfig
  estop : Filter
  sampler : Sampler
  webs : Table Web
  lines : Table Line
  slots : Table Envelope
  handling : Table Handling
  rx : Receiver
  discarded : Nat
  tx : Option VehicleTx
  deriving DecidableEq, Repr

def State.apart (s : State) : Apart :=
  ⟨s.pending, s.link, s.clock, s.nodes, s.routes, s.rest.minutes, s.vconfig, s.estop, s.sampler, s.webs, s.lines, s.slots,
    s.notices.handling, s.vlink.rx, s.vlink.discarded, s.vlink.tx⟩

/-- The hall: the parts of the state that no counting event touches. -/
structure Hall where
  link : LineLink
  clock : HallClock
  nodes : Table Node
  routes : Table Route
  reels : Table Reel
  rest : Rest
  bays : Table Bay
  demands : List DemandEntry
  orders : OrderList
  vehicles : Table Vehicle
  locks : Table Nat
  vlink : VehicleLink
  vconfig : VehicleConfig
  positions : Table Position
  estop : Filter
  sampler : Sampler
  slots : Table Envelope
  deriving DecidableEq, Repr

def State.hall (s : State) : Hall :=
  ⟨s.link, s.clock, s.nodes, s.routes, s.reels, s.rest, s.bays, s.demands, s.orders, s.vehicles, s.locks, s.vlink, s.vconfig,
    s.positions, s.estop, s.sampler, s.slots⟩

/-- A position but for its call-off record, which the passes that end an event may change. -/
def Position.core (x : Position) : Position := { x with callOff := ⟨.none, false, false⟩ }

/-- `u` is `s` with the order `n` made in it: the order under the next tag, the reel's tag, the bay's promise, and nothing else of the
store and the list (R38, R40). -/
structure Created (s u : State) (n : NewOrder) : Prop where
  order : u.order s.nextTag = some (s.newOrder n)
  others : ∀ t, t ≠ s.nextTag → u.order t = s.order t
  lastTag : u.orders.lastTag = s.nextTag
  next : u.orders.nextSequence = s.orders.nextSequence + 1
  reel : ∀ r x, n.reel = some r → s.reel r = some x → u.reel r = some { x with tag := some s.nextTag }
  reels : ∀ r, n.reel ≠ some r → u.reel r = s.reel r
  bay : ∀ b l x, n.destination = .bay b l → s.bay b = some x → u.bay b = some { x with inbound := x.inbound + 1 }
  bays : ∀ b, (∀ l, n.destination ≠ .bay b l) → u.bay b = s.bay b
  demands : u.demands = s.demands
  vehicles : u.vehicles = s.vehicles
  locks : u.locks = s.locks
  frames : u.vlink = s.vlink
  apart : u.apart = s.apart

/-- `u` is `s` with reel `r` gone from the bay `b`, which was `y`: the reels above it one level lower, every other record but its own as
before (R4, R9). -/
structure ReelLeft (s u : State) (b r : Nat) (y : Bay) : Prop where
  stack : u.bay b = some { y with stack := y.stack.filter fun q => decide (q ≠ r) }
  above : ∀ (lower upper : List Nat) (i q : Nat) (z : Reel), y.stack = lower ++ r :: upper → y.stack.Nodup → upper[i]? = some q →
    s.reel q = some z → u.reel q = some { z with location := .inBay b (lower.length + i + 1) }
  others : ∀ q, q ≠ r → (∀ lower upper, y.stack = lower ++ r :: upper → q ∉ upper) → u.reel q = s.reel q

/-- What the BUTT source has done with the reel `r` of arm `a`, whose record was `y`, once it is a butt of diameter `d` (R49, R102): `s` is the
part before, `u` after. In REPORT and OFF nothing is asked for; else a RETURN or, below the return diameter, a CLEAR is made, joins the
backlog where the list is full, or finds no bay. -/
structure ButtAnswered (s u : State) (p : Nat) (a : Arm) (r d : Nat) (y : Reel) (k : DisposalKind) : Prop where
  silent : (s.handling 9).mode = .report ∨ (s.handling 9).mode = .off →
    (u.pos p).disposal a = some .manual ∧ u.orders = s.orders
  full : (s.handling 9).mode = .auto ∨ (s.handling 9).mode = .both → s.ordersFull = true →
    (u.pos p).disposal a = some .backlog ∧
    ((∀ i ∈ s.orders.backlog, i.isDisposalOf p a = false) → u.orders = { s.orders with
      backlog := s.orders.backlog ++ [.disposal p a k (s.buttPriority p .normal)] }) ∧
    ((∃ i ∈ s.orders.backlog, i.isDisposalOf p a = true) → u.orders = s.orders)
  ret : (s.handling 9).mode = .auto ∨ (s.handling 9).mode = .both → s.ordersFull = false → k = .ret → ∀ b,
    (s.setReel r { y with state := .butt, diameter := d, origin := .returned }).autoBay y.grade y.width none = some b →
    (u.pos p).disposal a = some .ordered ∧ u.order s.nextTag = some (s.newOrder
      ⟨.ret, s.buttPriority p .normal, some r, .arm p (some a), .bay b 0, some p, none⟩) ∧
    (∀ t, t ≠ s.nextTag → u.order t = s.order t) ∧ u.orders.backlog = s.orders.backlog ∧
    u.reel r = some { y with state := .butt, diameter := d, origin := .returned, tag := some s.nextTag } ∧
    ∀ c, s.bay b = some c → u.bay b = some { c with inbound := c.inbound + 1 }
  noBay : (s.handling 9).mode = .auto ∨ (s.handling 9).mode = .both → s.ordersFull = false → k = .ret →
    (s.setReel r { y with state := .butt, diameter := d, origin := .returned }).autoBay y.grade y.width none = none →
    (u.pos p).disposal a = some .noBay ∧ u.orders = s.orders
  clear : (s.handling 9).mode = .auto ∨ (s.handling 9).mode = .both → s.ordersFull = false → k = .clear → ∀ n,
    s.nodeOfKind .waste = some n →
    (u.pos p).disposal a = some .ordered ∧ u.order s.nextTag = some (s.newOrder
      ⟨.clear, s.buttPriority p .normal, some r, .arm p (some a), .node n, some p, none⟩) ∧
    (∀ t, t ≠ s.nextTag → u.order t = s.order t) ∧ u.orders.backlog = s.orders.backlog ∧
    u.reel r = some { y with state := .butt, diameter := d, origin := .returned, tag := some s.nextTag }

/-- `t` is `s` with `e` as the content of slot `k`: where that is a change, both lines lose the selections that name the slot, and nothing else of
the part changes (R145, R151). -/
structure SlotChanged (s t : State) (k : Nat) (e : Option Envelope) : Prop where
  slot : t.slot k = e
  others : ∀ j, j ≠ k → t.slot j = s.slot j
  same : s.slot k = e → t = s
  selections : s.slot k ≠ e → ∀ l ∈ [1, 2], t.line l = { s.line l with
    startSlot := if (s.line l).startSlot = k then 0 else (s.line l).startSlot
    spliceSlot := if (s.line l).spliceSlot = k then 0 else (s.line l).spliceSlot }
  rest : t = { s with slots := t.slots, lines := t.lines }

/-- The command a frame of vehicle `v` is (section 4.5). -/
def frameCommand (v : Nat) : VehicleInput → Instr
  | .join n r b => .join v n r b
  | .take t i => .take v t i
  | .pass z => .pass v z
  | .done t i d n r => .done v t i d n r
  | .alive b n => .alive v b n
  | .fault c => .fault v c
  | .ready => .ready v

/-- `s` after a frame of vehicle `v` has arrived: its silence timer and the time since its last frame restart (R68, R81,
R85). -/
def State.heardFrom (s : State) (v : Nat) : State := s.setVeh v (s.veh v).heard

/-- The order `o` after the passes of another order's event or its own: what a leg request, a grant or an assignment may change is
its vehicle, its state with its reason, its target arm, its hold and the marks of its leg. -/
def Order.sameTask (o o' : Order) : Prop :=
  o'.kind = o.kind ∧ o'.converted = o.converted ∧ o'.priority = o.priority ∧ o'.reel = o.reel ∧ o'.source = o.source ∧
    o'.destination = o.destination ∧ o'.progress = o.progress ∧ o'.created = o.created ∧ o'.position = o.position ∧
    o'.cancelPending = o.cancelPending ∧ o'.sequence = o.sequence

/-! ### Feed positions -/

/-- The conditions of READY to ACCEL at a remaining length (R113). -/
def State.mayDrive (s : State) (p remaining : Nat) : Bool :=
  decide (remaining ≤ (s.pos p).params.accelLength) && s.pressRunning (lineOfPosition p) && !s.estop.level

/-- A position as FAILED leaves it: its outputs off but the web-end warning, its timers stopped, the cause recorded (R121). -/
def Position.failedBy (x : Position) (c : FailureCause) : Position :=
  { x with
    sequence := .failed
    outputs := ⟨false, false, false, false, true⟩
    splice := { x.splice with matchMs := none, pasteMs := none, cutMs := none, latch := false, cause := some c } }

/-- A position as entry to FIRING leaves it: the paste starts, and the cut with it when the paste-to-cut length is 0 (R118). -/
def Position.fired (x : Position) : Position :=
  { x with
    sequence := .firing
    outputs := { x.outputs with paste := true, cut := if x.params.pasteToCut = 0 then true else x.outputs.cut }
    splice := { x.splice with
      pasteMs := some 0
      cutMs := if x.params.pasteToCut = 0 then some 0 else none
      cutStarted := decide (x.params.pasteToCut = 0)
      sincePaste := 0
      firingMs := 0
      latch := false } }

/-- A position as a confirm entry leaves it (R119). -/
def Position.confirming (x : Position) : Position :=
  { x with sequence := .confirm, splice := { x.splice with sinceConfirm := 0, confirmMs := 0 } }

/-! ### The Tension Sampler -/

/-- The position has the sampler's attention: it is in FIRING or CONFIRM, or it is WEB and no position is in either (R135). -/
def State.served (s : State) (p : Nat) : Prop :=
  p ∈ allPositions ∧
    (((s.pos p).sequence = .firing ∨ (s.pos p).sequence = .confirm) ∨
      ((∀ k ∈ allPositions, (s.pos k).sequence ≠ .firing ∧ (s.pos k).sequence ≠ .confirm) ∧ (s.pos p).isWeb = true))

/-- What R135 says of the channel `c` of an interval that starts with `n` the last position converted: the first served position above
`n`; where there is none, the lowest one; and no channel where no position is served. -/
def State.channelAfter (s : State) (n : Nat) : Option Nat → Prop
  | none => ∀ k, ¬s.served k
  | some p => s.served p ∧
      ((n < p ∧ ∀ k, s.served k → n < k → p ≤ k) ∨ ((∀ k, s.served k → k ≤ n) ∧ ∀ k, s.served k → p ≤ k))

/-! ### Invariants -/

/-- Every table is in its canonical form: the numbers rise, each once. -/
def State.canonical (s : State) : Bool :=
  s.nodes.wf && s.routes.wf && s.reels.wf && s.rest.minutes.wf && s.bays.wf && s.orders.table.wf && s.vehicles.wf &&
    s.locks.wf && s.positions.wf && s.webs.wf && s.lines.wf && s.slots.wf && s.notices.handling.wf

/-- The bounds of R1, R38, R170, R172, R175 and R186. -/
def State.bounded (s : State) : Bool :=
  decide (s.link.requests.length ≤ 4) && decide (s.link.portReplies.length ≤ 4) && decide (s.link.replies.length ≤ 8) &&
    decide (s.notices.queue.length ≤ 32) && decide (s.reels.count ≤ 512) && decide (s.orderCount ≤ 32) &&
    decide (s.routes.count ≤ 1024)

/-- The outbound queue and the waiting line keep R80: 16 frames queued and 36 waiting at most, of each kind at most one for a vehicle, all
for the twelve vehicles (HALT-ALL for 0), and no HALT waiting. -/
structure FramesFit (queue waiting : List VehicleFrame) : Prop where
  once : ((queue ++ waiting).map VehicleFrame.slot).Nodup
  numbers : ∀ f ∈ queue ++ waiting, f.vehicle ≤ 12 ∧ (f.isHalt = false → 1 ≤ f.vehicle)
  noHalt : ∀ f ∈ waiting, f.isHalt = false
  queued : queue.length ≤ 16
  inLine : waiting.length ≤ 36

/-- The Demand Queue keeps R31: at most 8 entries, at most one for each of the eight positions. -/
structure DemandsFit (demands : List DemandEntry) : Prop where
  once : (demands.map (·.position)).Nodup
  numbers : ∀ e ∈ demands, 1 ≤ e.position ∧ e.position ≤ 8
  count : demands.length ≤ 8

/-- The creation backlog keeps R49: at most 24 items, one DELIVER for each position and one disposal for each arm. -/
structure BacklogFits (backlog : List BacklogItem) : Prop where
  once : (backlog.map BacklogItem.slot).Nodup
  numbers : ∀ i ∈ backlog, 1 ≤ i.slot.1 ∧ i.slot.1 ≤ 8
  count : backlog.length ≤ 24

/-- An order names no vehicle, or one of the twelve (R39, R64). -/
def Order.vehicleFits (o : Order) : Prop := ∀ v, o.vehicle = some v → 1 ≤ v ∧ v ≤ 12

/-- The lists of the store and of the vehicle link are within their bounds, with what keeps them there. -/
structure State.listed (s : State) : Prop where
  frames : FramesFit s.vlink.queue s.vlink.waiting
  demands : DemandsFit s.demands
  backlog : BacklogFits s.orders.backlog
  orders : ∀ t o, s.order t = some o → o.vehicleFits

/-- No transmitter stands free while a frame it may send waits in a queue of its own (R79, R80, R172, R189). -/
def State.sending (s : State) : Prop :=
  (s.link.tx = none → s.link.portReplies = [] ∧ s.link.replies = [] ∧ s.notices.queue = []) ∧
    (s.vlink.tx = none → ∀ f ∈ s.vlink.queue, s.estop.level = true ∧ f.isGo = true)

/-- The five classes of a run add up to its gross count (R156), and the charges of its splice records to its SPLICE waste
(R157). -/
def Run.balanced (x : Run) : Prop :=
  x.gross = x.good + x.wasteStart + x.wasteSplice + x.wasteTension + x.wasteDivert ∧ x.gross ≤ counterMax ∧
    (x.splices.map (·.charged)).sum = x.wasteSplice ∧ x.splices.length ≤ 64

/-- Every splice link of a web names a record of its line's run (R138, R157). -/
def State.linksHold (s : State) (l : Nat) : Prop :=
  ∀ w ∈ positionsOfLine l, ∀ r, (s.web w).link = some r → 1 ≤ r ∧ r ≤ (s.line l).run.splices.length

/-- The books of both lines balance. -/
def State.balanced (s : State) : Prop := ∀ l ∈ [1, 2], (s.line l).run.balanced ∧ s.linksHold l

/-- The arm's accelerate output. -/
def Outputs.accel (x : Outputs) : Arm → Bool
  | .A => x.accelA
  | .B => x.accelB

/-- The sequence states in which the standby reel may be driven (R113, R114). -/
def Sequence.driven : Sequence → Bool
  | .accel | .matched | .armed | .firing | .confirm => true
  | _ => false

/-- The outputs of a position agree with its splice sequence: NO_WEB exactly while no arm runs (R89), an accelerate output only for
the arm that does not run and only from ACCEL to CONFIRM (R114), paste and cut only in FIRING with their timers running (R118),
the web-end warning only while WEB (R121, R122). -/
def Position.sound (x : Position) : Prop :=
  (x.sequence = .noWeb ↔ x.running = none) ∧
    (∀ a, x.outputs.accel a = true → x.running ≠ some a ∧ x.sequence.driven = true) ∧
    (x.outputs.paste = true → x.sequence = .firing ∧ x.splice.pasteMs.isSome = true) ∧
    (x.outputs.cut = true → x.sequence = .firing ∧ x.splice.cutMs.isSome = true) ∧
    (x.outputs.webEnd = true → x.running ≠ none)

/-- Every position is sound. -/
def State.sound (s : State) : Prop := ∀ p, (s.pos p).sound

end Sys2Proof.Machine
end

