-- ==== Sys2Proof/Certificates/Slice0/Obligations.lean ====
section
/-!
DEFINITION. The statements about the part. `answered` and `refusedWith` are the forms of a taken request; where an event ends with the
passes of log 10, its next state is `u.close s _` for the state `u` that its own changes leave, and
`Obligations.PassesThatEndAnEvent` says what those passes may change.
-/

open Sys2Proof Sys2Proof.Machine

/-! ### The step and the ports -/

/-- A step runs the command at the front of the queue with the queue's rest. On an empty queue a millisecond passes (the model's choice,
log 1), and this is all it does: the millisecond of the second and the gap of a frame partly received rise by one, and so do the
silence timer of every vehicle that is neither ABSENT nor LOST, the time since the last frame of every vehicle that is not ABSENT, every
running offer, match, paste and cut timer, firing time in FIRING,
confirm time in CONFIRM, and the age of every sample. -/
def Obligations.StepRunsTheFrontCommand : Prop :=
  (∀ (c : Instr) (q : List Instr) (s : State), step { s with pending := c :: q } = exec c { s with pending := q }) ∧
  (∀ s : State, s.pending = [] → ∃ t : State, step s = .next t ∧ t.pending = [] ∧
    t.link = { s.link with rx := { s.link.rx with
      gapMs := if s.link.rx.held = [] then s.link.rx.gapMs else s.link.rx.gapMs + 1 } } ∧
    t.vlink = { s.vlink with rx := { s.vlink.rx with
      gapMs := if s.vlink.rx.held = [] then s.vlink.rx.gapMs else s.vlink.rx.gapMs + 1 } } ∧
    t.clock = ⟨s.clock.seconds, min 1000 (s.clock.ms + 1)⟩ ∧
    t.nodes = s.nodes ∧ t.routes = s.routes ∧ t.reels = s.reels ∧ t.rest = s.rest ∧ t.bays = s.bays ∧
    t.demands = s.demands ∧ t.orders = s.orders ∧ t.locks = s.locks ∧ t.vconfig = s.vconfig ∧ t.estop = s.estop ∧
    t.sampler = s.sampler ∧ t.lines = s.lines ∧ t.slots = s.slots ∧ t.notices = s.notices ∧
    (∀ v, t.veh v = { s.veh v with
      silenceMs := if (s.veh v).state = .absent ∨ (s.veh v).state = .lost then (s.veh v).silenceMs
        else (s.veh v).silenceMs + 1
      sinceFrameMs := if (s.veh v).state = .absent then (s.veh v).sinceFrameMs else (s.veh v).sinceFrameMs + 1
      offerMs := (s.veh v).offerMs.map (· + 1) }) ∧
    (∀ p, t.pos p = { s.pos p with splice := { (s.pos p).splice with
      matchMs := (s.pos p).splice.matchMs.map (· + 1)
      pasteMs := (s.pos p).splice.pasteMs.map (· + 1)
      cutMs := (s.pos p).splice.cutMs.map (· + 1)
      firingMs := (s.pos p).splice.firingMs + if (s.pos p).sequence = .firing then 1 else 0
      confirmMs := (s.pos p).splice.confirmMs + if (s.pos p).sequence = .confirm then 1 else 0 } }) ∧
    (∀ w, t.web w = { s.web w with
      ageMs := if (s.web w).sample.isSome then min 65535 ((s.web w).ageMs + 1) else (s.web w).ageMs }))

/-- Pin reset: phase CONFIG with the strap's rate, no floor plan, nothing queued but HALT-ALL, the defaults of R86, R88, R139 and R183. Three
clauses are the model's choice, not the spec's: the frames in transmission on both links are kept, and a free transmitter then takes
the HALT-ALL (log 8); mark pending, the delta-L count and the caliper of a position start at false, 0 and 0 (log 21); the waiting
commands are not the reset's (log 26). -/
def Obligations.PinResetState : Prop :=
  ∀ (r : LinkRate) (s : State), ∃ t : State, exec (.pinReset r) s = .next t.transmit ∧ t.pending = s.pending ∧
    t.link = ⟨.config, r, ⟨[], 0⟩, [], [], [], s.link.tx, ⟨0, 0, 0, 0, 0, 0, 0, 0⟩⟩ ∧ t.clock.seconds = 0 ∧
    (∀ n, t.nodes.find n = none) ∧ (∀ a b, t.route a b = none) ∧ (∀ x, t.reel x = none) ∧ (∀ b, t.bay b = none) ∧
    (∀ g, t.restMinutes g = 0) ∧ t.rest.watch = none ∧ t.demands = [] ∧ (∀ n, t.order n = none) ∧ t.orders.lastTag = 0 ∧
    t.orders.backlog = [] ∧ (∀ v, (t.veh v).state = .absent) ∧ (∀ z, t.holder z = none) ∧
    t.vlink = ⟨⟨[], 0⟩, 0, [.halt 0], [], s.vlink.tx⟩ ∧ t.vconfig = ⟨3, 5, 20, 120⟩ ∧
    (∀ p, t.pos p = Position.reset) ∧ t.estop = ⟨false, 0⟩ ∧ t.sampler.last = 0 ∧ (∀ w, t.web w = Web.blank) ∧
    (∀ l, t.line l = Line.reset) ∧ (∀ k, t.slot k = none) ∧ t.notices.queue = [] ∧ t.notices.overflow = false ∧
    (∀ k, k ∈ [1, 2, 3] → t.handling k = ⟨.report, 0⟩) ∧ (∀ k, k ∈ [4, 5] → t.handling k = ⟨.report, 1⟩) ∧
    t.handling 6 = ⟨.both, 1⟩ ∧ (∀ k, k ∈ [7, 9] → t.handling k = ⟨.both, 2⟩) ∧
    (∀ k, k ∈ [8, 10, 11] → t.handling k = ⟨.report, 2⟩) ∧ (∀ k, k ∈ [12, 13, 14, 15] → t.handling k = ⟨.report, 3⟩)

/-- Every well-formed request, sent as a frame to a receiver in HUNT with room in the request queue, is accepted as that request:
no field of it is lost on the way (R166, R167, R169, R170, R192). -/
def Obligations.RequestFrameIsAccepted : Prop :=
  ∀ (q : Request) (tag : Nat) (s : State), q.fits = true → tag < 65536 → s.link.rx.held = [] →
    s.link.requests.length < 4 →
    exec (.lineFrameReceived (lineFrame (kindOf q) tag (requestPayload q))) s = .next ({ s with link := { s.link with
      rx := ⟨[], 0⟩
      requests := s.link.requests ++ [⟨tag, q⟩]
      counts := { s.link.counts with accepted := satAdd s.link.counts.accepted 1 } } } : State).transmit

/-- The frames the port refuses itself: an unknown kind gives BADKIND with the kind, a length that does not fit gives BADLEN, a full
request queue gives BUSY, a failed check gives BADFRAME with tag 0; each raises its count, and each loses its reply, counted, at a
full port reply queue. After a failed check the bytes behind the sync byte are taken again as if they had just arrived, with those
that follow (R168, R169, R172). A free transmitter takes its next frame as each frame's event ends (the model's choice, log 8). -/
def Obligations.RefusedFrames : Prop :=
  ∀ (kind tag : Nat) (payload : Bytes) (s : State), kind < 256 → tag < 65536 → payload.length ≤ 240 → s.link.rx.held = [] →
    (∀ (r : Reply) (c : LinkCounts),
      (kind ∉ requestKinds ∧ r = ⟨128, tag, be1 9 ++ be1 kind⟩ ∧
          c = { s.link.counts with badKind := satAdd s.link.counts.badKind 1 }) ∨
        (kind ∈ requestKinds ∧ readRequest kind payload = none ∧ r = ⟨kind + 128, tag, be1 10⟩ ∧
          c = { s.link.counts with badLen := satAdd s.link.counts.badLen 1 }) ∨
        (kind ∈ requestKinds ∧ (readRequest kind payload).isSome = true ∧ 4 ≤ s.link.requests.length ∧
          r = ⟨kind + 128, tag, be1 8⟩ ∧ c = { s.link.counts with busy := satAdd s.link.counts.busy 1 }) →
      (s.link.portReplies.length < 4 → exec (.lineFrameReceived (lineFrame kind tag payload)) s =
        .next ({ s with link := { s.link with
          rx := ⟨[], 0⟩, portReplies := s.link.portReplies ++ [r], counts := c } } : State).transmit) ∧
      (4 ≤ s.link.portReplies.length → exec (.lineFrameReceived (lineFrame kind tag payload)) s =
        .next ({ s with link := { s.link with
          rx := ⟨[], 0⟩, counts := { c with lostReply := satAdd c.lostReply 1 } } } : State).transmit)) ∧
    (∀ (len : Byte) (body more : Bytes) (u : State), len.toNat ≤ 240 → body.length = 5 + len.toNat →
      crcBytes (len :: body.take (3 + len.toNat)) ≠ body.drop (3 + len.toNat) →
      u = (if s.link.portReplies.length < 4 then { s with link := { s.link with
            rx := ⟨[], 0⟩
            portReplies := s.link.portReplies ++ [⟨128, 0, []⟩]
            counts := { s.link.counts with badCheck := satAdd s.link.counts.badCheck 1 } } }
          else { s with link := { s.link with
            rx := ⟨[], 0⟩
            counts := { s.link.counts with
              badCheck := satAdd s.link.counts.badCheck 1, lostReply := satAdd s.link.counts.lostReply 1 } } }) →
      exec (.lineFrameReceived (syncByte :: len :: (body ++ more))) s =
        exec (.lineFrameReceived (len :: (body ++ more))) u.transmit ∧
      (syncByte ≠ len → syncByte ∉ body → exec (.lineFrameReceived (syncByte :: len :: body)) s = .next u.transmit))

/-- A length byte above 240 ends a frame at once, and a gap ends a frame partly received: the receiver is in HUNT and the count of its
port rises; a gap while nothing is held changes nothing (R166). That the command counts an oversize length from HUNT as well (log 7)
and that the discarded-frame count saturates (log 37) are the model's choices. -/
def Obligations.OversizeAndGap : Prop :=
  ∀ (b : Byte) (s : State), 240 < b.toNat →
    (s.link.rx.held.length ≤ 1 → exec (.oversizeLength .line b) s = .next { s with link := { s.link with
      rx := ⟨[], 0⟩, counts := { s.link.counts with oversize := satAdd s.link.counts.oversize 1 } } }) ∧
    (s.vlink.rx.held.length ≤ 1 → exec (.oversizeLength .vehicle b) s = .next { s with vlink := { s.vlink with
      rx := ⟨[], 0⟩, discarded := satAdd s.vlink.discarded 1 } }) ∧
    (s.link.rx.held ≠ [] → exec (.gapTimeout .line) s = .next { s with link := { s.link with
      rx := ⟨[], 0⟩, counts := { s.link.counts with gap := satAdd s.link.counts.gap 1 } } }) ∧
    (s.vlink.rx.held ≠ [] → exec (.gapTimeout .vehicle) s = .next { s with vlink := { s.vlink with
      rx := ⟨[], 0⟩, discarded := satAdd s.vlink.discarded 1 } }) ∧
    (s.link.rx.held = [] → exec (.gapTimeout .line) s = .next s) ∧
    (s.vlink.rx.held = [] → exec (.gapTimeout .vehicle) s = .next s)

/-- REQUEST_TAKEN takes the head request and answers a next state: the request leaves the queue, its answer's changes are made and its
reply joins the reply queue, as the request's own command does on the part without it. With no request queued, or no free place for
a reply, nothing happens (R170, R171). That a request's own row stands for the taking of that request is the model's choice (log 2). -/
def Obligations.RequestTakenRunsTheHead : Prop :=
  (∀ (tag : Nat) (q : Request) (rest : List Accepted) (s u : State), s.link.requests = ⟨tag, q⟩ :: rest →
    s.link.replies.length < 8 → u = { s with link := { s.link with requests := rest } } →
    exec .requestTaken s = .next ((u.answer q).1.pushReply (replyTo tag q (u.answer q).2)).transmit) ∧
  (∀ (c : Instr) (tag : Nat) (q : Request) (rest : List Accepted) (s : State), c.request = some (tag, q) →
    s.link.replies.length < 8 → ∃ t : State,
      exec .requestTaken { s with link := { s.link with requests := ⟨tag, q⟩ :: rest } } = .next t ∧
      exec c { s with link := { s.link with requests := rest } } = .next t) ∧
  (∀ s : State, s.link.requests = [] ∨ 8 ≤ s.link.replies.length → exec .requestTaken s = .next s)

/-- A request outside its phase is answered with PHASE and has no other effect: in CONFIG every one but IDENT, STATUS, SETCLOCK and the
floor plan requests, in RUN the floor plan requests. A request with no place for its reply is not taken (R171, R173; that the command
then changes nothing is the model's choice, log 2). -/
def Obligations.RequestsOutOfPhase : Prop :=
  ∀ (c : Instr) (tag : Nat) (q : Request) (s : State), c.request = some (tag, q) →
    (s.link.replies.length < 8 → s.link.phase = .config → kindOf q ∉ [1, 2, 3, 8, 9, 10, 11, 12] →
      refusedWith c s (kindOf q) tag 1) ∧
    (s.link.replies.length < 8 → s.link.phase = .run → kindOf q ∈ [8, 9, 10, 11, 12] → refusedWith c s (kindOf q) tag 1) ∧
    (8 ≤ s.link.replies.length → exec c s = .next s)

/-- The line link transmitter takes the head of the port replies, then of the replies, then the first notice, which carries the
overflow flag; with all three empty it stands free (R172, R189). `State.transmit`, which ends the events that can put a frame into a
queue, does the same on each link whose transmitter stands free and nothing on one that is sending (that it follows the event's own
changes is the model's choice, log 8). -/
def Obligations.LineTransmitterOrder : Prop :=
  ∀ s : State,
    (∀ r rs, s.link.portReplies = r :: rs →
      exec .lineFrameSent s = .next { s with link := { s.link with tx := some r.bytes, portReplies := rs } }) ∧
    (∀ r rs, s.link.portReplies = [] → s.link.replies = r :: rs →
      exec .lineFrameSent s = .next { s with link := { s.link with tx := some r.bytes, replies := rs } }) ∧
    (∀ n ns, s.link.portReplies = [] → s.link.replies = [] → s.notices.queue = n :: ns →
      exec .lineFrameSent s = .next { s with
        link := { s.link with tx := some (lineFrame 127 0 (n.bytes s.notices.overflow)) }
        notices := { s.notices with queue := ns } }) ∧
    (s.link.portReplies = [] → s.link.replies = [] → s.notices.queue = [] →
      exec .lineFrameSent s = .next { s with link := { s.link with tx := none } }) ∧
    (s.link.tx ≠ none → s.vlink.tx ≠ none → s.transmit = s) ∧
    (s.link.tx = none → s.vlink.tx ≠ none → exec .lineFrameSent s = .next s.transmit) ∧
    (s.link.tx ≠ none → s.vlink.tx = none → exec .vehicleFrameSent s = .next s.transmit) ∧
    (s.link.tx = none → s.vlink.tx = none →
      ∃ u : State, exec .lineFrameSent s = .next u ∧ exec .vehicleFrameSent u = .next s.transmit)

/-! ### Notices -/

/-- A notice made with the highest sequence joins a queue that is in queue order at its place; at 32 notices the overflow rule
discards the youngest notice of the worst level for one of a lower level, or the new notice (R186, R187). -/
def Obligations.NoticeOverflow : Prop :=
  ∀ (q : Notices) (n : Notice), q.queue.Pairwise (fun a b => a.before b = true) →
    (∀ m ∈ q.queue, m.sequence < n.sequence) →
    (q.queue.length < 32 → ((q.offer n).queue.Pairwise (fun a b => a.before b = true) ∧
      (q.offer n).queue.Perm (n :: q.queue) ∧ (q.offer n).overflow = q.overflow)) ∧
    (32 ≤ q.queue.length → (∃ m ∈ q.queue, n.level < m.level) → ∃ d ∈ q.queue,
      (∀ m ∈ q.queue, m.level ≤ d.level) ∧ (∀ m ∈ q.queue, m.level = d.level → m.sequence ≤ d.sequence) ∧
      (d :: (q.offer n).queue).Perm (n :: q.queue) ∧ (q.offer n).queue.Pairwise (fun a b => a.before b = true) ∧
      (q.offer n).overflow = true) ∧
    (32 ≤ q.queue.length → (∀ m ∈ q.queue, m.level ≤ n.level) →
      (q.offer n).queue = q.queue ∧ (q.offer n).overflow = true)

/-- NOTICECFG sets the mode and the level of one source, KEEP (255) keeping its value, and refuses a value out of range and a reaction
for a source without one. A source makes its notice in REPORT and BOTH, with its level, the hall time and the next sequence, and
none in AUTO and OFF (R184, R185, R191). -/
def Obligations.NoticeHandling : Prop :=
  (∀ (s : State) (tag k mode level : Nat) (m : Option NoticeMode) (v : Option Nat), s.takes = true →
    noticeModeOf mode = some m → noticeLevelOf level = some v →
    (1 ≤ k → k ≤ 15 → ((m = some .auto ∨ m = some .both) → k ∈ [6, 7, 9]) →
      answered (.noticecfg tag k mode level) s 0x48 tag
        (be1 k ++ be1 k ++ be1 (m.getD (s.handling k).mode).code ++ be1 (v.getD (s.handling k).level))
        { s with notices := { s.notices with
          handling := s.notices.handling.insert k ⟨m.getD (s.handling k).mode, v.getD (s.handling k).level⟩ } }) ∧
    (k = 0 ∨ 15 < k ∨ ((m = some .auto ∨ m = some .both) ∧ k ∉ [6, 7, 9]) →
      refusedWith (.noticecfg tag k mode level) s 0x48 tag 2)) ∧
  (∀ (s : State) (tag k mode level : Nat), s.takes = true →
    ((3 < mode ∧ mode ≠ 255) ∨ (3 < level ∧ level ≠ 255) → refusedWith (.noticecfg tag k mode level) s 0x48 tag 2)) ∧
  (∀ (s : State) (b : Subjects),
    ((s.handling b.source).mode = .report ∨ (s.handling b.source).mode = .both →
      ∀ q : Notices, q = { s.notices with sequence := s.notices.sequence + 1 } →
        ∀ n : Notice, n = ⟨(s.handling b.source).level, s.clock.seconds, s.notices.sequence + 1, b⟩ →
          s.raise b = { s with notices := q.offer n }) ∧
    ((s.handling b.source).mode = .auto ∨ (s.handling b.source).mode = .off → s.raise b = s))

/-! ### Queries -/

/-- A query answers from the state as it stands and changes nothing but the reply queue (R17, R37, R62, R85, R110, R140, R153, R164,
R165, R180). Parts of the bytes are the model's choice: the part name in ASCII (log 13), the GO-sent byte and the zero fields of an
order record (log 15), absent values without a code (log 14), the width of counts (log 12), HALT-ALL uncounted in VEHINFO and
the seconds of a stopped offer timer sent as 0 (log 40), a timer past 65,534 ms sent as 65,534 (log 48), and the count byte that stands
for the stack length (log 45). -/
def Obligations.QueriesChangeNothing : Prop :=
  (∀ (s : State) (tag : Nat), s.link.replies.length < 8 → answered (.ident tag) s 0x01 tag
    (partName ++ openField1 .identRevision Config.designRevision ++ openField1 .identRate (Config.linkRateCode s.link.rate) ++
      be1 s.link.phase.code ++ be4 s.clock.seconds) s) ∧
  (∀ (s : State) (tag r : Nat) (x : Reel), s.takes = true → r ≤ reelIdMax → s.reel r = some x →
    answered (.reelinfo tag r 0) s 0x12 tag (s.reelRecord r x) s) ∧
  (∀ (s : State) (tag b : Nat) (x : Bay), s.takes = true → 1 ≤ b → b ≤ 120 → s.bay b = some x →
    answered (.bayinfo tag b 0) s 0x15 tag
      (be1 b ++ be1 x.node ++ be1 x.height ++ listBytes (x.stack.map s.stackItem) ++
        openField1 .bayinfoInbound x.inbound ++ openField1 .bayinfoFree (x.height - x.stack.length - x.inbound) ++
        flagByte (s.hasRoom x) ++ flagByte (s.topEligible x) ++ openField1 .bayinfoBays s.bays.count) s) ∧
  (∀ (s : State) (tag t : Nat) (o : Order), s.takes = true → t ≠ 0 → s.order t = some o →
    answered (.orderinfo tag t 0) s 0x1F tag (s.orderRecord t o) s) ∧
  (∀ (s : State) (tag v : Nat), s.takes = true → 1 ≤ v → v ≤ 12 →
    answered (.vehinfo tag v) s 0x23 tag ((s.veh v).bytes ++ listBytes ((s.zonesOf v).map be1) ++
      openField2 .vehinfoSilenceSeconds ((s.veh v).sinceFrameMs / 1000) ++
      openField2 .vehinfoOfferSeconds ((s.veh v).offerMs.getD 0 / 1000) ++ flagByte (s.freeVehicle v) ++
      openField1 .vehinfoFrames (s.framesFor v) ++ flagByte s.estop.level) s) ∧
  (∀ (s : State) (tag p : Nat), s.takes = true → 1 ≤ p → p ≤ 8 → answered (.posinfo tag p) s 0x2E tag (s.positionBytes p) s) ∧
  (∀ (s : State) (tag l : Nat), s.takes = true → 1 ≤ l → l ≤ 2 → ∃ rest, answered (.lineinfo tag l) s 0x39 tag
    (be1 (s.line l).filterCount ++ be1 (s.line l).steady ++ rest) s) ∧
  (∀ (s : State) (tag k n : Nat) (e : Envelope), s.takes = true → 1 ≤ k → k ≤ 4 →
    (s.slot k = none → answered (.envinfo tag k n) s 0x3C tag (be1 0 ++ be2 0) s) ∧
    (s.slot k = some e → ∃ rest, answered (.envinfo tag k n) s 0x3C tag
      (be1 1 ++ e.bytes ++ be2 e.signature ++ (e.boundaries.map be2).flatten ++ e.probeBytes n ++ rest) s)) ∧
  (∀ (s : State) (tag l : Nat), s.takes = true → 1 ≤ l → l ≤ 2 → answered (.runinfo tag l) s 0x42 tag
    ((s.line l).run.bytes ++ ((positionsOfLine l).map fun w => opt1 (s.web w).link).flatten) s) ∧
  (∀ (s : State) (tag l n : Nat), s.takes = true → 1 ≤ l → l ≤ 2 → 1 ≤ n → n ≤ 64 → answered (.splicelist tag l n) s 0x43 tag
    (be4 (s.line l).run.number ++ be1 (s.line l).run.state.code ++ be1 (s.line l).run.splices.length ++
      (spliceEntries n (((s.line l).run.splices.drop (n - 1)).take 8)).flatten) s)

/-- The NEXT mode of REELINFO, BAYINFO and ORDERINFO answers with the lowest number above the one given, and with UNKNOWN when there is
none (R17, R37, R62). -/
def Obligations.QueriesInTurn : Prop :=
  ∀ (s : State) (tag n k : Nat), s.takes = true → s.canonical = true → n < k →
    (∀ x, s.reel k = some x → (∀ j, n < j → j < k → s.reel j = none) →
      answered (.reelinfo tag n 1) s 0x12 tag (s.reelRecord k x) s) ∧
    ((∀ j, n < j → s.reel j = none) → refusedWith (.reelinfo tag n 1) s 0x12 tag 3) ∧
    (∀ o, s.order k = some o → (∀ j, n < j → j < k → s.order j = none) →
      answered (.orderinfo tag n 1) s 0x1F tag (s.orderRecord k o) s) ∧
    ((∀ j, n < j → s.order j = none) → refusedWith (.orderinfo tag n 1) s 0x1F tag 3) ∧
    (∀ b, s.bay k = some b → (∀ j, n < j → j < k → s.bay j = none) → ∃ rest,
      answered (.bayinfo tag n 1) s 0x15 tag (be1 k ++ be1 b.node ++ be1 b.height ++ rest) s) ∧
    ((∀ j, n < j → s.bay j = none) → refusedWith (.bayinfo tag n 1) s 0x15 tag 3)

/-! ### The link's own requests and the clock -/

/-- STATUS reports the part as it stands, its overflow flag with the rest, and clears that flag (R181, R188); RESTART, refused with STATE
while a press runs, keeps the link, the clock, the floor plan and the configuration and takes everything else to its reset value, bays
emptied (R182); a conversion in progress goes on (R135). Three clauses are the model's choice: the width of five counts in STATUS's reply
(log 12), the frame in transmission on the vehicle link is kept (log 8), and mark pending, the delta-L count and the caliper of a position
start at false, 0 and 0 (log 21). -/
def Obligations.StatusAndRestart : Prop :=
  ∀ (s : State) (tag : Nat),
    (s.link.replies.length < 8 → answered (.status tag) s 0x02 tag
      (be1 s.link.phase.code ++ be4 s.clock.seconds ++ flagByte s.estop.level ++ flagByte (s.line 1).press.level ++
        flagByte (s.line 2).press.level ++ be2 s.reels.count ++ openField1 .statusBays s.bays.count ++
        openField1 .statusDemands s.demands.length ++ openField1 .statusReservations (s.reels.entries.filter fun e =>
          decide (e.2.state = .reserved) && decide (e.2.tag = none)).length ++
        be1 s.orders.table.count ++ be1 s.orders.backlog.length ++ openField1 .statusVehicles
          (allVehicles.filter fun v => decide ((s.veh v).state ≠ .absent)).length ++
        be1 (s.line 1).run.state.code ++ be1 (s.line 2).run.state.code ++
        openField1 .statusNotices s.notices.queue.length ++ flagByte s.notices.overflow ++
        be4 s.link.counts.accepted ++ be4 s.link.counts.badCheck ++ be4 s.link.counts.gap ++ be4 s.link.counts.oversize ++
        be4 s.link.counts.badKind ++ be4 s.link.counts.badLen ++ be4 s.link.counts.busy ++ be4 s.link.counts.lostReply ++
        be4 s.vlink.discarded)
      { s with notices := { s.notices with overflow := false } }) ∧
    (s.takes = true → (s.line 1).press.level = true ∨ (s.line 2).press.level = true →
      refusedWith (.restart tag) s 0x04 tag 4) ∧
    (s.takes = true → (s.line 1).press.level = false → (s.line 2).press.level = false → ∃ t : State,
      answered (.restart tag) s 0x04 tag (be4 s.clock.seconds) t ∧ t.pending = s.pending ∧ t.link = s.link ∧
      t.clock = s.clock ∧ t.nodes = s.nodes ∧ t.routes = s.routes ∧ t.rest.minutes = s.rest.minutes ∧
      t.vconfig = s.vconfig ∧ t.slots = s.slots ∧ t.notices.handling = s.notices.handling ∧
      t.vlink.discarded = s.vlink.discarded ∧ t.vlink.tx = s.vlink.tx ∧ t.vlink.queue = [.halt 0] ∧ t.vlink.waiting = [] ∧
      t.vlink.rx.held = [] ∧ (∀ r, t.reel r = none) ∧ t.rest.watch = none ∧
      (∀ b, t.bay b = (s.bay b).map fun x => { x with stack := [], inbound := 0 }) ∧ t.demands = [] ∧
      (∀ n, t.order n = none) ∧ t.orders.lastTag = 0 ∧ t.orders.backlog = [] ∧ (∀ v, t.veh v = Vehicle.absentSlot) ∧
      (∀ z, t.holder z = none) ∧ t.estop = ⟨false, 0⟩ ∧ t.sampler = ⟨0, s.sampler.converting⟩ ∧ (∀ w, t.web w = Web.blank) ∧
      (∀ p, t.pos p = { Position.reset with
        standNode := (s.pos p).standNode, enabled := (s.pos p).enabled, params := (s.pos p).params }) ∧
      (∀ l, t.line l = { Line.reset with
        filterCount := (s.line l).filterCount, steady := (s.line l).steady, startSlot := (s.line l).startSlot
        spliceSlot := (s.line l).spliceSlot }) ∧
      t.notices.queue = [] ∧ t.notices.overflow = false)

/-- SETCLOCK sets the clock, recomputes the rest watch, judges every hold against the new time and ends its event with the Demand Queue's
pass over the reels now rested; every hold past the zone wait limit is marked reported, once; a tick raises the clock by one second up to its limit, moves a rest watch it
reaches, and marks the holds that now exceed the zone wait limit. A rest watch reached by a clock at or past it moves on, and one
reached by the next second is that second's tick; a hold past the limit is reported once with ORDER_HELD (R13, R78, R178, R179).
That REST_WATCH_REACHED and ZONE_WAIT_LIMIT act on their own beside the tick, and that the first is the tick when the next second
reaches the watch, is the model's choice (log 5). -/
def Obligations.HallClock : Prop :=
  (∀ (s : State) (tag v : Nat), s.link.replies.length < 8 → ∃ t : State,
    answered (.setclock tag v) s 0x03 tag (be4 s.clock.seconds ++ be4 v) t ∧ t.clock = ⟨v, 0⟩ ∧
    t = ({ s with clock := ⟨v, 0⟩ } : State).rewatch.judgeHolds.close s false ∧
    t.apart = ({ s with clock := ⟨v, 0⟩ } : State).apart ∧ t.rest.watch = t.watchValue ∧ t.bays = s.bays) ∧
  (∀ s : State, s.judgeHolds = { s with orders := s.judgeHolds.orders, notices := s.judgeHolds.notices } ∧
    ((∀ t o, s.order t = some o → o.state = .heldZones → o.holdReported = false →
      s.secondsHeld o ≤ s.vconfig.zoneWait) → s.judgeHolds = s) ∧
    (∀ t, s.order t = none → s.judgeHolds.order t = none) ∧
    (∀ t o, s.order t = some o →
      (o.state = .heldZones → s.vconfig.zoneWait < s.secondsHeld o →
        s.judgeHolds.order t = some { o with holdReported := true }) ∧
      (o.state ≠ .heldZones ∨ s.secondsHeld o ≤ s.vconfig.zoneWait → s.judgeHolds.order t = some o) ∧
      (∀ h, o.heldSince = some h → s.secondsHeld o = s.clock.seconds - h))) ∧
  (∀ s : State, s.clock.seconds < counterMax → ∃ t : State, exec .hallClockTick s = .next t.transmit ∧
    t.clock = ⟨s.clock.seconds + 1, 0⟩ ∧ t.apart = ({ s with clock := ⟨s.clock.seconds + 1, 0⟩ } : State).apart ∧
    t.bays = s.bays ∧ (s.rest.watch = some (s.clock.seconds + 1) → t.rest.watch = t.watchValue) ∧
    (∀ n o h, s.order n = some o → o.state = .heldZones → o.heldSince = some h →
      s.vconfig.zoneWait < s.clock.seconds + 1 - h → ∃ o', t.order n = some o' ∧ o'.holdReported = true)) ∧
  (∀ s : State, s.clock.seconds = counterMax → exec .hallClockTick s = .next ({ s with clock := { s.clock with ms := 0 } } : State).transmit) ∧
  (∀ (s : State) (w : Nat), s.rest.watch = some w →
    (w ≤ s.clock.seconds → exec .restWatchReached s = .next (s.rewatch.close s false).transmit) ∧
    (w = s.clock.seconds + 1 → exec .restWatchReached s = exec .hallClockTick s)) ∧
  (∀ s : State, s.rest.watch = none → exec .restWatchReached s = .next s.transmit) ∧
  (∀ (s : State) (t v h : Nat) (o : Order), s.order t = some o → o.state = .heldZones → o.holdReported = false →
    o.vehicle = some v → o.heldSince = some h → s.vconfig.zoneWait < s.clock.seconds - h →
    exec (.zoneWaitLimit t) s = .next ((s.setOrder t { o with holdReported := true }).raise
      (.orderHeld t v (s.clock.seconds - h) (s.zoneInWay o).1 (s.zoneInWay o).2)).transmit)

/-! ### The floor plan -/

/-- DEFNODE, DEFBAY, DEFROUTE and DEFPOS in CONFIG: the entry takes the fields, a route of length 0 removes its pair, and fields out
of range, a node kind outside its table, a route to its own node, a zone named twice, a 1025th route or an enabled position at no node
are refused (R174, R175, R176). Three clauses are the model's choices: that an enabled flag above 1 is refused with RANGE (log 38); that a
DEFPOS with enabled clear takes the position's gauge to its reset readings, both speeds and the window counts 0, where R176 says nothing
of the gauge and R91 has the speeds measured in NO_WEB (log 22); and that mark pending, the delta-L count and the caliper then stand at
false, 0 and 0 (log 21). -/
def Obligations.FloorPlanRequests : Prop :=
  (∀ (s : State) (tag n z k : Nat) (kind : NodeKind), s.plans = true → nodeKindOf k = some kind →
    (1 ≤ n → n ≤ 96 → 1 ≤ z → z ≤ 48 → ∃ data, answered (.defnode tag n z k) s 0x08 tag data
      { s with nodes := s.nodes.insert n ⟨z, kind⟩ }) ∧
    (n = 0 ∨ 96 < n ∨ z = 0 ∨ 48 < z → refusedWith (.defnode tag n z k) s 0x08 tag 2)) ∧
  (∀ (s : State) (tag n z k : Nat), s.plans = true → k = 0 ∨ 6 < k → refusedWith (.defnode tag n z k) s 0x08 tag 2) ∧
  (∀ (s : State) (tag b n h : Nat), s.plans = true →
    (1 ≤ b → b ≤ 120 → 1 ≤ n → n ≤ 96 → 1 ≤ h → h ≤ 3 → ∃ data, answered (.defbay tag b n h) s 0x09 tag data
      { s with bays := s.bays.insert b ⟨n, h, [], 0⟩ }) ∧
    (b = 0 ∨ 120 < b ∨ n = 0 ∨ 96 < n ∨ h = 0 ∨ 3 < h → refusedWith (.defbay tag b n h) s 0x09 tag 2)) ∧
  (∀ (s : State) (tag a b len : Nat) (zs : List Nat), s.plans = true → 1 ≤ a → a ≤ 96 → 1 ≤ b → b ≤ 96 →
    (∀ z ∈ zs, 1 ≤ z ∧ z ≤ 48) → zs.length ≤ 8 → len ≤ 2000 →
    (a ≠ b → zs.Nodup → len ≠ 0 → ((s.route a b).isSome = true ∨ s.routes.count < 1024) → ∃ data,
      answered (.defroute tag a b len zs) s 0x0A tag data
        { s with routes := s.routes.insert (a * 256 + b) ⟨a, b, zs, len⟩ }) ∧
    (a ≠ b → len = 0 → zs = [] → ∃ data, answered (.defroute tag a b len zs) s 0x0A tag data
      { s with routes := s.routes.erase (a * 256 + b) }) ∧
    (a = b ∨ ¬zs.Nodup → refusedWith (.defroute tag a b len zs) s 0x0A tag 6) ∧
    (a ≠ b → zs.Nodup → len = 0 → zs ≠ [] → refusedWith (.defroute tag a b len zs) s 0x0A tag 2) ∧
    (a ≠ b → zs.Nodup → len ≠ 0 → s.route a b = none → 1024 ≤ s.routes.count →
      refusedWith (.defroute tag a b len zs) s 0x0A tag 5)) ∧
  (∀ (s : State) (tag a b len : Nat) (zs : List Nat), s.plans = true →
    (a = 0 ∨ 96 < a ∨ b = 0 ∨ 96 < b ∨ (∃ z ∈ zs, z = 0 ∨ 48 < z) ∨ 8 < zs.length ∨ 2000 < len) →
    refusedWith (.defroute tag a b len zs) s 0x0A tag 2) ∧
  (∀ (s : State) (tag p n e : Nat), s.plans = true → p = 0 ∨ 8 < p ∨ 96 < n ∨ 1 < e →
    refusedWith (.defpos tag p n e) s 0x0B tag 2) ∧
  (∀ (s : State) (tag p n e : Nat), s.plans = true → 1 ≤ p → p ≤ 8 → n ≤ 96 → e ≤ 1 →
    (n ≠ 0 → e = 1 → answered (.defpos tag p n e) s 0x0B tag (be1 (lineOfPosition p) ++ be1 n ++ be1 1)
      (s.setPos p { s.pos p with standNode := n, enabled := true })) ∧
    (e = 0 → answered (.defpos tag p n e) s 0x0B tag (be1 (lineOfPosition p) ++ be1 n ++ be1 0)
      (s.setPos p { s.pos p with standNode := n, enabled := false, gauge := Gauge.reset })) ∧
    (n = 0 → e = 1 → refusedWith (.defpos tag p n e) s 0x0B tag 6))

/-- COMMIT succeeds exactly on a whole plan: every node named is defined, bays stand at BAY_ACCESS nodes and enabled positions at STAND
nodes, and there are an INTAKE and a WASTE node. The phase is then RUN and the enabled positions and the bays are at rest; otherwise
the reply is CONFLICT and nothing changes (R177). -/
def Obligations.CommitNeedsAWholePlan : Prop :=
  ∀ (s : State) (tag : Nat) (whole : Prop), s.plans = true →
    (whole ↔ (∀ e ∈ s.bays.entries, ∃ n, s.nodes.find e.2.node = some n ∧ n.kind = .bayAccess) ∧
      (∀ e ∈ s.routes.entries, s.nodes.has e.2.src = true ∧ s.nodes.has e.2.dst = true) ∧
      (∀ p ∈ allPositions, (s.pos p).enabled = true →
        ∃ n, s.nodes.find (s.pos p).standNode = some n ∧ n.kind = .stand) ∧
      (∃ e ∈ s.nodes.entries, e.2.kind = .intake) ∧ (∃ e ∈ s.nodes.entries, e.2.kind = .waste)) →
    (whole → ∃ (data : Bytes) (t : State), answered (.commit tag) s 0x0C tag data t ∧ t.link = { s.link with phase := .run } ∧
      t.nodes = s.nodes ∧ t.routes = s.routes ∧ t.clock = s.clock ∧ t.vehicles = s.vehicles ∧ t.vlink = s.vlink ∧
      (∀ b, t.bay b = (s.bay b).map fun x => { x with stack := [], inbound := 0 }) ∧
      (∀ p, (s.pos p).enabled = true → (t.pos p).enabled = true ∧ (t.pos p).standNode = (s.pos p).standNode ∧
        (t.pos p).params = (s.pos p).params ∧ (t.pos p).sequence = .noWeb ∧ (t.pos p).running = none ∧
        (t.pos p).armA = none ∧ (t.pos p).armB = none ∧ (t.pos p).outputs = Outputs.off ∧
        (t.pos p).gauge.estimate = none) ∧
      (∀ p, (s.pos p).enabled = false → t.pos p = s.pos p)) ∧
    (¬whole → ∃ item, exec (.commit tag) s = .next (s.pushReply ⟨0x8C, tag, be1 6 ++ item⟩).transmit)

/-! ### The store -/

/-- INTAKE makes an INCOMING record with its arrival and rest-until and an INTAKE order to the bay; a reel that already stands INCOMING
without an order keeps its record and takes the order (R12, R14, R15, R25, R40). -/
def Obligations.IntakeMakesAnOrder : Prop :=
  ∀ (s : State) (tag node bay n b : Nat) (d : ReelData), s.takes = true → reelDataOk d = true → node ≤ 96 → bay ≤ 120 →
    s.ordersFull = false →
    (s.reel d.id = none → s.reels.count < 512 →
      ((node = 0 ∧ s.nodeOfKind .intake = some n) ∨ (node = n ∧ n ≠ 0 ∧ s.nodeHasKind n .intake = true)) →
      s.targetBay bay d.grade d.width none = some b → (bay ≠ 0 → (s.bay bay).isSome = true) →
      ∃ u : State, answered (.intake tag d node bay) s 0x10 tag
          (be2 s.nextTag ++ be1 b ++ be4 (min (s.clock.seconds + 60 * s.restMinutes d.grade) counterMax)) (u.close s false) ∧
        u.reel d.id = some ⟨d.grade, d.width, d.diameter, d.caliper, d.mass, s.clock.seconds,
          min (s.clock.seconds + 60 * s.restMinutes d.grade) counterMax, .intake, .incoming, .atIntake n, none,
          some s.nextTag, none⟩ ∧
        Created (s.setReel d.id (s.newReel d .intake s.clock.seconds .incoming (.atIntake n) none)) u
          ⟨.intake, .normal, some d.id, .node n, .bay b 0, none, none⟩) ∧
    (∀ x, s.reel d.id = some x → x.state = .incoming → x.tag = none → x.location = .atIntake n →
      (node = 0 ∨ (node = n ∧ s.nodeHasKind n .intake = true)) → s.targetBay bay x.grade x.width none = some b →
      (bay ≠ 0 → (s.bay bay).isSome = true) →
      ∃ u : State, answered (.intake tag d node bay) s 0x10 tag (be2 s.nextTag ++ be1 b ++ be4 x.restUntil) (u.close s false) ∧
        Created s u ⟨.intake, .normal, some d.id, .node n, .bay b 0, none, none⟩)

/-- RESTOCK sets a reel on top of its bay STORED with its own arrival, and REMOVE deletes a STORED or INCOMING record without an
order, the reels above moving down one level; both recompute the rest watch (R9, R12, R13, R16, R18). -/
def Obligations.RestockAndRemove : Prop :=
  (∀ (s : State) (tag origin arrival bay level : Nat) (d : ReelData) (o : Origin) (b : Bay), s.takes = true →
    reelDataOk d = true → originOf origin = some o → arrival ≤ s.clock.seconds → 1 ≤ bay → bay ≤ 120 → s.bay bay = some b →
    s.reel d.id = none → s.reels.count < 512 → level = b.stack.length + 1 → level ≤ b.height → level ≤ 3 →
    b.inbound = 0 → s.topFree b = true →
    ∃ u : State, answered (.restock tag d origin arrival bay level) s 0x11 tag
        (be4 (min (arrival + 60 * s.restMinutes d.grade) counterMax)) (u.close s false) ∧
      u.reel d.id = some ⟨d.grade, d.width, d.diameter, d.caliper, d.mass, arrival,
        min (arrival + 60 * s.restMinutes d.grade) counterMax, o, .stored, .inBay bay level, none, none, none⟩ ∧
      u.bay bay = some { b with stack := b.stack ++ [d.id] } ∧ (∀ c, c ≠ bay → u.bay c = s.bay c) ∧
      (∀ r, r ≠ d.id → u.reel r = s.reel r) ∧ u.rest.watch = u.watchValue ∧ u.apart = s.apart ∧ u.orders = s.orders ∧
      u.vehicles = s.vehicles ∧ u.locks = s.locks ∧ u.positions = s.positions ∧ u.demands = s.demands) ∧
  (∀ (s : State) (tag r : Nat) (x : Reel), s.takes = true → 1 ≤ r → r ≤ reelIdMax → s.reel r = some x →
    (x.state = .incoming ∨ x.state = .stored) → x.tag = none →
    ∃ (u : State) (data : Bytes), answered (.remove tag r) s 0x13 tag data (u.close s false) ∧ u.reel r = none ∧ u.rest.watch = u.watchValue ∧
      u.apart = s.apart ∧ u.orders = s.orders ∧ u.vehicles = s.vehicles ∧ u.locks = s.locks ∧ u.positions = s.positions ∧
      u.demands = s.demands ∧ (x.place = none → u.bays = s.bays) ∧
      (∀ b l y, x.place = some (b, l) → s.bay b = some y →
        ReelLeft s u b r y ∧ ∀ c, c ≠ b → u.bay c = s.bay c)) ∧
  (∀ (s : State) (tag r : Nat) (x : Reel), s.takes = true → 1 ≤ r → r ≤ reelIdMax → s.reel r = some x →
    ((x.state ≠ .incoming ∧ x.state ≠ .stored) ∨ x.tag ≠ none) → refusedWith (.remove tag r) s 0x13 tag 4)

/-- RESTTIME sets the minutes of a grade, clamped to 4320, and refuses a grade out of range; a record made takes its rest-until from
the minutes as they stand (R12, R19). -/
def Obligations.RestTime : Prop :=
  ∀ (s : State) (tag g m : Nat), s.takes = true →
    (1 ≤ g → g ≤ 15 → answered (.resttime tag g m) s 0x14 tag (be2 (min m 4320))
      { s with rest := { s.rest with minutes := s.rest.minutes.insert g (min m 4320) } }) ∧
    (g = 0 ∨ 15 < g → refusedWith (.resttime tag g m) s 0x14 tag 2) ∧
    (∀ (arrival : Nat), ({ s with rest := { s.rest with minutes := s.rest.minutes.insert g (min m 4320) } } : State).restUntilFor
      arrival g = min (arrival + 60 * min m 4320) counterMax)

/-- The selection rule: among the reels on top of bays that are STORED, of the grade and width class, without an order, rested, and
with no drop pending on their bay, the one with the earliest arrival, the lower bay number between equals; none when there is none
(R26, R27). -/
def Obligations.SelectionRule : Prop :=
  ∀ (s : State) (g w : Nat) (fits : Nat → Nat → Reel → Prop), s.bays.wf = true →
    (∀ n r x, fits n r x ↔ ∃ b, s.bay n = some b ∧ b.stack.getLast? = some r ∧ s.reel r = some x ∧ x.state = .stored ∧
      x.grade = g ∧ x.width = w ∧ x.tag = none ∧ x.restUntil ≤ s.clock.seconds ∧ b.inbound = 0) →
    (s.select g w = none ↔ ∀ n r x, ¬fits n r x) ∧
    (∀ r, s.select g w = some r ↔ ∃ n x, fits n r x ∧
      ∀ n' r' x', fits n' r' x' → x.arrival < x'.arrival ∨ (x.arrival = x'.arrival ∧ n ≤ n'))

/-- The automatic bay choice: the lowest-numbered bay with room whose top reel has the grade and width class, else the lowest-numbered
empty bay with none promised, else the lowest-numbered bay with room; an excluded bay is passed over (R23, R25). -/
def Obligations.AutomaticBayChoice : Prop :=
  ∀ (s : State) (g w : Nat) (excluded : Option Nat) (room alike : Nat → Bay → Prop), s.bays.wf = true →
    (∀ n b, room n b ↔ s.bay n = some b ∧ b.stack.length + b.inbound < b.height ∧ some n ≠ excluded ∧
      (∀ r, b.stack.getLast? = some r → ∃ x, s.reel r = some x ∧ x.state = .stored ∧ x.tag = none)) →
    (∀ n b, alike n b ↔ room n b ∧ ∃ r x, b.stack.getLast? = some r ∧ s.reel r = some x ∧ x.grade = g ∧ x.width = w) →
    (∀ n b, alike n b → (∀ n' b', alike n' b' → n ≤ n') → s.autoBay g w excluded = some n) ∧
    (∀ n b, (∀ n' b', ¬alike n' b') → room n b → b.stack = [] → b.inbound = 0 →
      (∀ n' b', room n' b' → b'.stack = [] → b'.inbound = 0 → n ≤ n') → s.autoBay g w excluded = some n) ∧
    (∀ n b, (∀ n' b', ¬alike n' b') → (∀ n' b', room n' b' → ¬(b'.stack = [] ∧ b'.inbound = 0)) → room n b →
      (∀ n' b', room n' b' → n ≤ n') → s.autoBay g w excluded = some n) ∧
    ((∀ n b, ¬room n b) → s.autoBay g w excluded = none)

/-! ### Orders -/

/-- DELIVER for a position's reserved reel, a named reel fit for it, or the reel the selection rule gives its demand: the reel is
RESERVED for the position under the new tag, the order is made, the call-off is ORDERED and the Demand Queue entry leaves, with the
position's delivery item of the backlog. With no reel for the demand, the demand joins the queue, the call-off becomes WAIT_STOCK and
NOSTOCK is raised; a position that waits already keeps its entry. The urgency-reported flag is cleared where the call-off leaves NONE
(R28, R29, R32, R40, R49, R56, R98). That an URGENT DELIVER makes the butt orders in its way URGENT in its event is the model's choice
(log 24). -/
def Obligations.DeliverRequest : Prop :=
  ∀ (s : State) (tag p reel priority r b l : Nat) (q : Priority) (x : Reel), s.takes = true → 1 ≤ p → p ≤ 8 →
    reel ≤ reelIdMax → priorityOf priority = some q → (s.pos p).enabled = true → s.deliverOf p = none →
    s.ordersFull = false →
    (s.reel r = some x → x.location = .inBay b l →
      ((s.openReservation p = some r ∧ x.state = .reserved ∧ x.reservation = some p ∧ x.tag = none ∧ (reel = 0 ∨ reel = r)) ∨
        (s.openReservation p = none ∧ reel = r ∧ r ≠ 0 ∧ s.eligibleSelf r = true) ∨
        (s.openReservation p = none ∧ reel = 0 ∧
          ∃ d, (s.pos p).demand = some d ∧ s.select d.grade d.width = some r)) →
      ∃ u : State, answered (.deliver tag p reel priority) s 0x18 tag (be1 1 ++ be2 s.nextTag ++ be4 r ++ be1 b)
          (u.close s false) ∧
        u.order s.nextTag = some (s.newOrder ⟨.deliver, q, some r, .bay b l, .arm p none, some p, none⟩) ∧
        u.reel r = some { x with state := .reserved, reservation := some p, tag := some s.nextTag } ∧
        (∀ k, k ≠ r → u.reel k = s.reel k) ∧ u.demands = s.demands.filter (fun e => decide (e.position ≠ p)) ∧
        (u.pos p).callOff = ⟨.ordered, false, if (s.pos p).callOff.state = .none then false else (s.pos p).callOff.urgencyReported⟩ ∧
        u.notices = s.notices ∧
        (∀ t, t ≠ s.nextTag → u.order t = (s.order t).map fun o => { o with
          priority := if q = .urgent ∧ o.position = some p ∧ o.progress = 1 ∧ (o.kind = .ret ∨ o.kind = .clear) then .urgent
            else o.priority }) ∧
        u.orders.backlog = (s.orders.backlog.filter fun i => !(i.isDeliveryOf p)).map (fun
          | .delivery k r c => .delivery k r c
          | .disposal k a c e => .disposal k a c (if q = .urgent ∧ k = p then .urgent else e)) ∧
        (∀ k, k ≠ p → u.pos k = s.pos k) ∧ (u.pos p).core = (s.pos p).core ∧ u.bays = s.bays ∧ u.vehicles = s.vehicles ∧
        u.locks = s.locks ∧ u.vlink = s.vlink ∧ u.apart = s.apart) ∧
    (∀ d, reel = 0 → s.openReservation p = none → (s.pos p).demand = some d → s.select d.grade d.width = none →
      (s.demandEntry p = none →
        ∃ u : State, answered (.deliver tag p 0 priority) s 0x18 tag (be1 2 ++ be1 (s.demands.length + 1)) u ∧
          u.demands = s.demands ++ [⟨p, d.grade, d.width, s.clock.seconds⟩] ∧
          (u.pos p).callOff =
            ⟨.waitStock, false, if (s.pos p).callOff.state = .none then false else (s.pos p).callOff.urgencyReported⟩ ∧
          u.notices = (s.raise (.noStock p d.grade d.width)).notices ∧ (u.pos p).core = (s.pos p).core ∧
          (∀ k, k ≠ p → u.pos k = s.pos k) ∧ u.reels = s.reels ∧ u.orders = s.orders ∧ u.bays = s.bays ∧
          u.vehicles = s.vehicles ∧ u.locks = s.locks ∧ u.apart = s.apart) ∧
      (∀ earlier e later, s.demands = earlier ++ e :: later → (∀ i ∈ earlier, i.position ≠ p) → e.position = p →
        answered (.deliver tag p 0 priority) s 0x18 tag (be1 2 ++ be1 (earlier.length + 1)) s))

/-- RELOCATE, RETURN, CLEAR and PARK make their order with its effects on the store (R40, R57, R58, R59); a RETURN or CLEAR of a
position whose DELIVER is URGENT is URGENT (R55), takes its arm's item out of the backlog and sets its disposal to ORDERED. That the reply
of RETURN and CLEAR is the tag and then one byte, the number of the bay or of the node, is the model's choice (log 15). -/
def Obligations.OrderRequests : Prop :=
  ∀ (s : State) (tag priority : Nat) (q : Priority), s.takes = true → priorityOf priority = some q → s.ordersFull = false →
    (∀ (r bay b own l : Nat) (x : Reel) (y : Bay), 1 ≤ r → r ≤ reelIdMax → bay ≤ 120 → s.reel r = some x →
      x.location = .inBay own l → x.state = .stored → x.tag = none → s.bay own = some y → y.stack.getLast? = some r →
      bay ≠ own → (bay ≠ 0 → (s.bay bay).isSome = true) → s.targetBay bay x.grade x.width (some own) = some b →
      ∃ u : State, answered (.relocate tag r bay priority) s 0x19 tag (be2 s.nextTag ++ be1 b) (u.close s false) ∧
        Created s u ⟨.relocate, q, some r, .bay own l, .bay b 0, none, none⟩ ∧ u.positions = s.positions) ∧
    (∀ (p arm bay b r : Nat) (a : Arm) (x : Reel), 1 ≤ p → p ≤ 8 → bay ≤ 120 → armOf arm = some a →
      (s.pos p).arm a = some r → s.reel r = some x → x.state = .butt → x.tag = none →
      (bay ≠ 0 → (s.bay bay).isSome = true) → s.targetBay bay x.grade x.width none = some b →
      ∃ u : State, answered (.ret tag p arm bay priority) s 0x1A tag (be2 s.nextTag ++ be1 b) (u.close s false) ∧
        Created s u ⟨.ret, s.buttPriority p q, some r, .arm p (some a), .bay b 0, some p, none⟩ ∧
        u.pos p = (s.pos p).setDisposal a (some .ordered) ∧ (∀ k, k ≠ p → u.pos k = s.pos k) ∧
        u.orders.backlog = s.orders.backlog.filter fun i => !(i.isDisposalOf p a)) ∧
    (∀ (p arm n r : Nat) (a : Arm) (x : Reel), 1 ≤ p → p ≤ 8 → armOf arm = some a → (s.pos p).arm a = some r →
      s.reel r = some x → x.state = .butt → x.tag = none → s.nodeOfKind .waste = some n →
      ∃ u : State, answered (.clear tag p arm priority) s 0x1B tag (be2 s.nextTag ++ be1 n) (u.close s false) ∧
        Created s u ⟨.clear, s.buttPriority p q, some r, .arm p (some a), .node n, some p, none⟩ ∧
        u.pos p = (s.pos p).setDisposal a (some .ordered) ∧ (∀ k, k ≠ p → u.pos k = s.pos k) ∧
        u.orders.backlog = s.orders.backlog.filter fun i => !(i.isDisposalOf p a)) ∧
    (∀ (v node : Nat), 1 ≤ v → v ≤ 12 → 1 ≤ node → node ≤ 96 → s.nodes.has node = true → (s.veh v).state ≠ .absent →
      (s.veh v).order = none → s.parkNames v = false →
      ∃ u : State, answered (.park tag v node priority) s 0x1C tag (be2 s.nextTag) (u.close s false) ∧
        Created s u ⟨.park, q, none, .absent, .node node, none, some v⟩ ∧ u.positions = s.positions)

/-- A leg request: without a route the order is SUSPENDED(NO_ROUTE); with every zone it asks for free or its vehicle's own, the zones
are given together, the order is OFFERED and its GO queued; with a zone held by another, the order is HELD(ZONES). A carry leg to
an occupied standby arm is HELD(ARM); one to an empty standby arm takes that arm as its target and goes on as every other leg. A
granted wait is OFFERED (R42, R47, R76, R77). -/
def Obligations.LegRequest : Prop :=
  ∀ (s : State) (t v target : Nat) (o o₁ : Order), s.order t = some o → o.vehicle = some v →
    (s.veh v).state = .idle ∨ (s.veh v).state = .offered ∨ (s.veh v).state = .driving → s.targetNode o = some target →
    (((o.progress = 1 ∨ ∀ p a, o.destination ≠ .arm p a) ∧ o₁ = o) ∨
        (∃ p a, o.destination = .arm p a ∧ 2 ≤ o.progress ∧ (s.pos p).arm (s.pos p).standbyArm = none ∧
          o₁ = { o with targetArm := some (s.pos p).standbyArm }) →
      ((s.veh v).node ≠ target → s.route (s.veh v).node target = none →
        s.requestLeg t = (s.setOrder t { o₁ with
          state := .suspended, reason := some .noRoute, heldSince := none, legZones := [], goSent := false }).raise
            (.orderSuspended t .noRoute v (o.reel.getD 0))) ∧
      (∀ zs, ((s.veh v).node = target ∧ zs = []) ∨
          ((s.veh v).node ≠ target ∧ ∃ r, s.route (s.veh v).node target = some r ∧ r.zones = zs) →
        ((∀ z ∈ s.askedZones zs target, s.holder z = none ∨ s.holder z = some v) →
          (s.requestLeg t).order t = some { o₁ with
            state := .offered, reason := none, heldSince := none, legZones := zs
            legPassed := leadingPassed (s.veh v).zone zs, goSent := false } ∧
          (∀ k, k ≠ t → (s.requestLeg t).order k = s.order k) ∧
          (∀ z ∈ s.askedZones zs target, (s.requestLeg t).holder z = some v) ∧
          (∀ z, z ∉ s.askedZones zs target → (s.requestLeg t).holder z = s.holder z) ∧
          (s.requestLeg t).vlink = (s.enqueue (.go v t o.progress target o.action zs)).vlink ∧
          (s.requestLeg t).vehicles = s.vehicles ∧ (s.requestLeg t).reels = s.reels ∧
          (s.requestLeg t).positions = s.positions) ∧
        ((∃ z ∈ s.askedZones zs target, ∃ h, s.holder z = some h ∧ h ≠ v) →
          s.requestLeg t = s.setOrder t { o₁ with
            state := .heldZones, reason := none, heldSince := some s.clock.seconds, holdReported := false
            legZones := zs, legPassed := 0, goSent := false }))) ∧
    (∀ p a, o.destination = .arm p a → 2 ≤ o.progress → (s.pos p).arm (s.pos p).standbyArm ≠ none →
      s.requestLeg t = s.setOrder t { o with
        state := .heldArm, reason := none, heldSince := none, legZones := [], goSent := false }) ∧
    (o.state = .heldZones → (∀ z ∈ s.askedZones o.legZones target, s.holder z = none ∨ s.holder z = some v) →
      (∃ o', (s.grantOne t).order t = some o' ∧ o'.state = .offered ∧ o.sameTask o') ∧
      (∀ z ∈ s.askedZones o.legZones target, (s.grantOne t).holder z = some v) ∧
      (s.grantOne t).vlink = (s.enqueue (.go v t o.progress target o.action o.legZones)).vlink)

/-- A removed order leaves the list with its GO, its tag on the reel, its promise and its vehicle's binding; a RESERVED reel is STORED
again, a DELIVER's call-off returns to NONE, and its vehicle gives up every zone but the one it stands in, or stands IDLE where it
was STOPPED with its GO unsent (R53). The entry freed goes to the creation backlog: while the list has room, its oldest item leaves it
and is made into its order, a RETURN without a bay making none (R49). A converted order carries its reel to the bay chosen: it keeps its
kind, reel and progress, its old promise is withdrawn and the new one made, its reel's reservation goes, its vehicle gives up what its
leg had, and the new leg is requested (R54). That the cancel-pending mark is cleared by the conversion, and that the reason NO_SPACE
then reads VEHICLE until a leg is requested, is the model's choice (log 17), and so is it that the reasons BLOCKED_DROP and NO_ROUTE stay
until then (log 51). The bay chosen, the order's own promise counted as withdrawn, is the one the reel was last picked from while that has
room, else the automatic choice; with none the order is SUSPENDED for NO_SPACE (R23, R54). A delivery item that has become URGENT makes an
URGENT DELIVER (R49, R55); that it makes the butt orders in its way URGENT with it is the model's choice (log 24). -/
def Obligations.OrderRemovedOrConverted : Prop :=
  (∀ (s : State) (t : Nat) (o : Order), s.order t = some o → ∃ u : State, s.removeOrder t = u.fillBacklog ∧
    u.orders.backlog = s.orders.backlog ∧ u.order t = none ∧ (∀ k, k ≠ t → u.order k = s.order k) ∧
    (∀ f ∈ u.vlink.queue ++ u.vlink.waiting, ¬(f.isGo = true ∧ f.goTag = t)) ∧
    (∀ r x, o.reel = some r → s.reel r = some x →
      (x.state = .reserved → u.reel r = some { x with state := .stored, reservation := none, tag := none }) ∧
      (x.state ≠ .reserved → u.reel r = some { x with tag := none })) ∧
    (∀ r, o.reel ≠ some r → u.reel r = s.reel r) ∧
    (∀ r p a, o.reel = some r → (s.reel r).map (·.state) = some .butt → (s.reel r).map (·.location) = some (.onArm p a) →
      (u.pos p).disposal a = some .manual) ∧
    (∀ b l y, o.destination = .bay b l → s.bay b = some y → u.bay b = some { y with inbound := y.inbound - 1 }) ∧
    (∀ p, o.kind = .deliver → o.position = some p → (u.pos p).callOff.state = .none) ∧
    (∀ v, o.vehicle = some v → (s.veh v).order = some t →
      ((s.veh v).state = .stopped → (s.veh v).prior = some .offered → o.goSent = false →
        u.veh v = { s.veh v with state := .idle, prior := none, order := none }) ∧
      ((s.veh v).state ≠ .stopped ∨ (s.veh v).prior ≠ some .offered ∨ o.goSent = true →
        u.veh v = { s.veh v with order := none }) ∧
      ((s.veh v).state = .faulted ∨ (s.veh v).state = .lost → u.locks = s.locks) ∧
      ((s.veh v).state ≠ .faulted → (s.veh v).state ≠ .lost → s.locks.wf = true → ∀ z,
        (s.holder z = some v → some z ≠ s.standingZone v → u.holder z = none) ∧
        (s.holder z ≠ some v ∨ some z = s.standingZone v → u.holder z = s.holder z))) ∧
    (∀ v, (o.vehicle ≠ some v ∨ (s.veh v).order ≠ some t) → u.veh v = s.veh v) ∧ u.apart = s.apart) ∧
  (∀ s : State,
    (s.orders.backlog = [] ∨ s.ordersFull = true → s.fillBacklog = s) ∧
    (∀ i is, s.orders.backlog = i :: is → s.ordersFull = false →
      s.fillBacklog = ((s.setBacklog is).makeItem i).fillBacklog) ∧
    (∀ p r x q, s.reel r = some x → ∃ u : State, s.makeItem (.delivery p r q) = u ∧
      u.order s.nextTag = some (s.newOrder ⟨.deliver, q, some r, s.bayPlace r, .arm p none, some p, none⟩) ∧
      u.reel r = some { x with tag := some s.nextTag } ∧ (∀ k, k ≠ r → u.reel k = s.reel k) ∧
      (u.pos p).callOff = { (s.pos p).callOff with state := .ordered, ordersFull := false } ∧ u.demandEntry p = none ∧
      (∀ t, t ≠ s.nextTag → u.order t = (s.order t).map fun o => { o with
        priority := if q = .urgent ∧ o.position = some p ∧ o.progress = 1 ∧ (o.kind = .ret ∨ o.kind = .clear) then .urgent
          else o.priority }) ∧
      u.orders.backlog = s.orders.backlog.map (fun
        | .delivery k r c => .delivery k r c
        | .disposal k a c e => .disposal k a c (if q = .urgent ∧ k = p then .urgent else e))) ∧
    (∀ p a q r x, (s.pos p).arm a = some r → s.reel r = some x →
      (∀ b, s.autoBay x.grade x.width none = some b →
        Created s (s.makeItem (.disposal p a .ret q))
          ⟨.ret, s.buttPriority p q, some r, .arm p (some a), .bay b 0, some p, none⟩ ∧
        (s.makeItem (.disposal p a .ret q)).pos p = (s.pos p).setDisposal a (some .ordered)) ∧
      (s.autoBay x.grade x.width none = none →
        s.makeItem (.disposal p a .ret q) = s.setPos p ((s.pos p).setDisposal a (some .noBay))) ∧
      (∀ n, s.nodeOfKind .waste = some n →
        Created s (s.makeItem (.disposal p a .clear q))
          ⟨.clear, s.buttPriority p q, some r, .arm p (some a), .node n, some p, none⟩ ∧
        (s.makeItem (.disposal p a .clear q)).pos p = (s.pos p).setDisposal a (some .ordered)))) ∧
  (∀ (s own : State) (o : Order) (r : Nat) (x : Reel) (room : Nat → Prop), o.reel = some r → s.reel r = some x →
    own = (match o.destination with
      | .bay c _ => s.onBay c fun y => { y with inbound := y.inbound - 1 }
      | _ => s) →
    (∀ b, room b ↔ ∃ y, own.bay b = some y ∧ y.stack.length + y.inbound < y.height ∧
      ∀ q, y.stack.getLast? = some q → ∃ z, s.reel q = some z ∧ z.state = .stored ∧ z.tag = none) →
    (∀ b, x.lastBay = some b → room b → s.conversionBay o = some b) ∧
    ((∀ b, x.lastBay = some b → ¬room b) → s.conversionBay o = own.autoBay x.grade x.width none)) ∧
  (∀ (s : State) (t : Nat) (o : Order), s.order t = some o → s.conversionBay o = none → ∃ w : State,
    s.convert t = w.raise (.orderSuspended t .noSpace (o.vehicle.getD 0) (o.reel.getD 0)) ∧
    w.order t = some { o with
      state := .suspended, reason := some .noSpace, cancelPending := false, heldSince := none, legZones := [], legPassed := 0
      goSent := false } ∧
    (∀ k, k ≠ t → w.order k = s.order k) ∧ w.reels = s.reels ∧ w.bays = s.bays ∧ w.positions = s.positions ∧
    w.notices = s.notices) ∧
  (∀ (s : State) (t b : Nat) (o : Order), s.order t = some o → s.conversionBay o = some b →
    (∃ w : State, s.convert t = w.requestLeg t ∧
      w.order t = some { o with
        destination := .bay b 0, converted := true, targetArm := none, position := none, cancelPending := false
        reason := if o.reason = some .noSpace then some .vehicle else o.reason
        heldSince := none, legZones := [], legPassed := 0, goSent := false } ∧
      (∀ f ∈ w.vlink.queue ++ w.vlink.waiting, ¬(f.isGo = true ∧ f.goTag = t)) ∧
      (∀ v, o.vehicle = some v →
        ((s.veh v).state = .stopped → (s.veh v).prior = some .offered → o.goSent = false →
          w.veh v = { s.veh v with state := .idle, prior := none }) ∧
        ((s.veh v).state ≠ .stopped ∨ (s.veh v).prior ≠ some .offered ∨ o.goSent = true → w.veh v = s.veh v) ∧
        ((s.veh v).state = .faulted ∨ (s.veh v).state = .lost → w.locks = s.locks) ∧
        ((s.veh v).state ≠ .faulted → (s.veh v).state ≠ .lost → s.locks.wf = true → ∀ z,
          (s.holder z = some v → some z ≠ s.standingZone v → w.holder z = none) ∧
          (s.holder z ≠ some v ∨ some z = s.standingZone v → w.holder z = s.holder z)))) ∧
    (∃ o', (s.convert t).order t = some o' ∧ o'.converted = true ∧ o'.destination = .bay b 0 ∧ o'.position = none ∧
      o'.targetArm = none ∧ o'.cancelPending = false ∧ o'.kind = o.kind ∧ o'.reel = o.reel ∧ o'.progress = o.progress ∧
      o'.vehicle = o.vehicle) ∧
    (∀ y, (∀ c l, o.destination ≠ .bay c l) → s.bay b = some y →
      (s.convert t).bay b = some { y with inbound := y.inbound + 1 }) ∧
    (∀ l y, o.destination = .bay b l → s.bay b = some y →
      (s.convert t).bay b = some { y with inbound := y.inbound - 1 + 1 }) ∧
    (∀ c l y, o.destination = .bay c l → c ≠ b → s.bay c = some y →
      (s.convert t).bay c = some { y with inbound := y.inbound - 1 }) ∧
    (∀ c l y, o.destination = .bay c l → c ≠ b → s.bay b = some y →
      (s.convert t).bay b = some { y with inbound := y.inbound + 1 }) ∧
    (∀ r x, o.reel = some r → s.reel r = some x → ∃ y, (s.convert t).reel r = some y ∧ y.reservation = none ∧
      y.state = x.state ∧ (∀ v, x.location = .wasteBound v → y.location = .onVehicle v)) ∧
    (∀ p, o.kind = .deliver → o.position = some p → ((s.convert t).pos p).callOff.state = .none) ∧
    (∀ k, k ≠ t → (s.convert t).order k = s.order k) ∧ (s.convert t).apart = s.apart)

/-- CANCEL: a leg in flight, ACTIVE or OFFERED with its GO sent, is abandoned and the order CANCELLING; an order without a load is
removed; a loaded one is converted, or SUSPENDED(NO_SPACE) when no bay has room; a CANCELLING or converted order and one
SUSPENDED(NO_SPACE) is refused, as is a tag that is 0 or carried by no order (R52, R54, R60). Three points of it are the model's choice:
the state byte of a removed order, and the bay's place after the state (log 15), and that a vehicle with an ABANDON queued or
waiting gets no second one (log 39). -/
def Obligations.CancelRequest : Prop :=
  (∀ (s : State) (tag t : Nat), s.takes = true →
    (t = 0 ∨ 65535 < t → refusedWith (.cancel tag t) s 0x1D tag 2) ∧
    (1 ≤ t → t ≤ 65535 → s.order t = none → refusedWith (.cancel tag t) s 0x1D tag 3)) ∧
  ∀ (s : State) (tag t : Nat) (o : Order), s.takes = true → 1 ≤ t → t ≤ 65535 → s.order t = some o →
    (o.cancelRefused = true → refusedWith (.cancel tag t) s 0x1D tag 4) ∧
    (∀ v, o.cancelRefused = false → o.inFlight = true → o.vehicle = some v →
      answered (.cancel tag t) s 0x1D tag (be1 2 ++ be1 OrderState.cancelling.code)
        (((s.setOrder t { o with state := .cancelling, cancelPending := o.loaded }).enqueue
          (.abandon v t o.progress)).close s false)) ∧
    (o.cancelRefused = false → o.inFlight = false → o.loaded = false → o.sequence < s.orders.nextSequence →
      answered (.cancel tag t) s 0x1D tag (be1 1 ++ [Config.removedOrderState])
        ((s.removeOrder t).close s ((s.removeOrder t).freedVehicle o))) ∧
    (∀ b, o.cancelRefused = false → o.inFlight = false → o.loaded = true → s.conversionBay o = some b →
      answered (.cancel tag t) s 0x1D tag (be1 3 ++ orderStateByte (((s.convert t).close s false).order t) ++ be1 b)
        ((s.convert t).close s false)) ∧
    (o.cancelRefused = false → o.inFlight = false → o.loaded = true → s.conversionBay o = none →
      answered (.cancel tag t) s 0x1D tag (be1 4 ++ be1 OrderState.suspended.code) ((s.convert t).close s false) ∧
      ∃ o', (s.convert t).order t = some o' ∧ o'.state = .suspended ∧ o'.reason = some .noSpace) ∧
    (o.inFlight = true ↔ o.state = .active ∨ (o.state = .offered ∧ o.goSent = true))

/-- RESOLVE of a SUSPENDED order: RETRY asks for its leg again, a reel picked wrongly no longer counted as the load, or tries its
conversion again; ACCEPT of WRONG_REEL completes the fetch; CANCEL is that of R52, which removes an order without a load and converts a
loaded one, no leg of a SUSPENDED order being in flight. The reply carries the order's state, and
for CANCEL names the outcome. An order in another state, and a CANCEL that R52 refuses, is refused (R52, R61). Three
points of it are the model's choice: the state byte of a removed order (log 15), RANGE for an action outside 1 to 3 (log 38), and the
outcome behind the order's state in the reply to CANCEL (log 47). -/
def Obligations.ResolveRequest : Prop :=
  (∀ (s : State) (tag t a : Nat), s.takes = true →
    (t = 0 ∨ 65535 < t ∨ a = 0 ∨ 3 < a → refusedWith (.resolve tag t a) s 0x1E tag 2) ∧
    (1 ≤ t → t ≤ 65535 → 1 ≤ a → a ≤ 3 → s.order t = none → refusedWith (.resolve tag t a) s 0x1E tag 3)) ∧
  ∀ (s : State) (tag t : Nat) (o : Order), s.takes = true → 1 ≤ t → t ≤ 65535 → s.order t = some o →
    (∀ a, 1 ≤ a → a ≤ 3 → o.state ≠ .suspended → refusedWith (.resolve tag t a) s 0x1E tag 4) ∧
    (∀ v, o.state = .suspended → o.reason ≠ some .noSpace → o.vehicle = some v →
      ((s.veh v).state = .idle → ∀ u : State,
        u = ((if o.reason = some .wrongReel then s.setLoad v 0 false else s).setOrder t { o with reason := none }).requestLeg
          t →
        answered (.resolve tag t 1) s 0x1E tag (orderStateByte ((u.close s false).order t)) (u.close s false)) ∧
      ((s.veh v).state ≠ .idle → refusedWith (.resolve tag t 1) s 0x1E tag 4)) ∧
    (o.state = .suspended → o.reason = some .noSpace →
      (∀ b, s.conversionBay o = some b →
        answered (.resolve tag t 1) s 0x1E tag (orderStateByte (((s.convert t).close s false).order t))
          ((s.convert t).close s false)) ∧
      (s.conversionBay o = none → refusedWith (.resolve tag t 1) s 0x1E tag 5)) ∧
    (∀ v, o.state = .suspended → o.reason = some .wrongReel → o.vehicle = some v →
      answered (.resolve tag t 2) s 0x1E tag (orderStateByte (((s.completeFetch t v).close s false).order t))
        ((s.completeFetch t v).close s false)) ∧
    (o.state = .suspended → o.reason ≠ some .wrongReel → refusedWith (.resolve tag t 2) s 0x1E tag 4) ∧
    (o.state = .suspended → o.cancelRefused = true → refusedWith (.resolve tag t 3) s 0x1E tag 4) ∧
    (o.state = .suspended → o.cancelRefused = false → o.loaded = false → o.sequence < s.orders.nextSequence →
      answered (.resolve tag t 3) s 0x1E tag ([Config.removedOrderState] ++ be1 1)
        ((s.removeOrder t).close s ((s.removeOrder t).freedVehicle o))) ∧
    (∀ b, o.state = .suspended → o.cancelRefused = false → o.loaded = true → s.conversionBay o = some b →
      answered (.resolve tag t 3) s 0x1E tag (orderStateByte (((s.convert t).close s false).order t) ++ be1 3)
        ((s.convert t).close s false)) ∧
    (o.state = .suspended → o.cancelRefused = false → o.loaded = true → s.conversionBay o = none →
      answered (.resolve tag t 3) s 0x1E tag (be1 OrderState.suspended.code ++ be1 4) ((s.convert t).close s false))

/-- A completed fetch: the reel leaves its place for the vehicle and is IN_TRANSIT, the vehicle's verified load; the order's progress
is 2 (R4, R46). A reel fetched from a bay leaves that bay's stack, so that every STORED reel stays in exactly one (R1), and where it was
the top every other record is as before (R21). That a reel on which another has come to stand leaves it too, the reels above moving down one
level as R9 has it for REMOVE, is the model's choice (log 49). -/
def Obligations.FetchCompleted : Prop :=
  ∀ (s : State) (t v r : Nat) (o : Order) (x : Reel), s.order t = some o → o.reel = some r → s.reel r = some x →
    ((s.completeFetch t v).veh v).load = some r ∧ ((s.completeFetch t v).veh v).verified = true ∧
    (∃ o', (s.completeFetch t v).order t = some o' ∧ o'.progress = 2 ∧ o'.kind = o.kind ∧ o'.reel = some r) ∧
    (s.completeFetch t v).rest.watch = (s.completeFetch t v).watchValue ∧
    (∀ b l y, o.source = .bay b l → s.bay b = some y → ReelLeft s (s.completeFetch t v) b r y ∧
      (∀ lower, y.stack = lower ++ [r] → r ∉ lower →
        (s.completeFetch t v).bay b = some { y with stack := lower } ∧
        ∀ k, k ≠ r → (s.completeFetch t v).reel k = s.reel k) ∧
      (s.completeFetch t v).reel r = some { x with state := .inTransit, location := .onVehicle v, lastBay := some b }) ∧
    (∀ p a, o.source = .arm p (some a) →
      ((s.completeFetch t v).pos p).arm a = none ∧ ((s.completeFetch t v).pos p).disposal a = none ∧
      (s.completeFetch t v).reel r = some { x with
        state := .inTransit, location := if o.kind = .clear then .wasteBound v else .onVehicle v }) ∧
    (∀ n, o.source = .node n →
      (s.completeFetch t v).reel r = some { x with state := .inTransit, location := .onVehicle v }) ∧
    ((∀ b l, o.source ≠ .bay b l) → ∀ k, k ≠ r → (s.completeFetch t v).reel k = s.reel k) ∧
    (∀ c, (∀ l, o.source ≠ .bay c l) → (s.completeFetch t v).bay c = s.bay c) ∧ (s.completeFetch t v).apart = s.apart

/-- A completed order: its reel stands STORED on top of its bay, STAGED on its arm, or is deleted at a waste node; the order is gone,
its vehicle free and unloaded, a DELIVER's call-off NONE, ORDER_DONE is raised, and the entry freed goes to the creation backlog
(R5, R10, R24, R48, R49). -/
def Obligations.OrderCompleted : Prop :=
  ∀ (s : State) (t v : Nat) (o : Order), ∃ u : State, s.completeOrder t o v = u.fillBacklog ∧
    u.orders.backlog = s.orders.backlog ∧ u.order t = none ∧ (u.veh v).order = none ∧
    (∀ k, k ≠ t → u.order k = s.order k) ∧ (∀ k, k ≠ v → u.veh k = s.veh k) ∧
    u.notices = (s.raise (.orderDone t o.kind (o.reel.getD 0) v)).notices ∧
    (∀ r x, o.reel = some r → s.reel r = some x →
      (u.veh v).load = none ∧
      (∀ b l y, o.destination = .bay b l → s.bay b = some y →
        u.reel r = some { x with
          state := .stored, location := .inBay b (y.stack.length + 1), reservation := none, tag := none } ∧
        u.bay b = some { y with stack := y.stack ++ [r], inbound := y.inbound - 1 }) ∧
      (∀ p k a, o.destination = .arm p k → o.targetArm = some a →
        u.reel r = some { x with
          state := .staged, location := .onArm p a, reservation := none, tag := none } ∧
        (u.pos p).arm a = some r ∧ (u.pos p).callOff.state = .none ∧
        ((s.pos p).running = some (otherArm a) → (s.pos p).sequence = .noStandby → (u.pos p).sequence = .standby)) ∧
      (∀ n, o.destination = .node n → u.reel r = none)) ∧
    u.apart = s.apart

/-! ### Vehicles -/

/-- HALT of a vehicle under way, or IDLE with its GO not yet sent, stops it with its prior state and queues its HALT; every other vehicle
but an ABSENT one only has its HALT queued. HALT 0 does so for all, with one HALT-ALL. RESUME, refused with STATE under an emergency
stop or for a vehicle not STOPPED, queues a RESUME for one that was DRIVING, and the GO again for one that was OFFERED; RESUME 0 does so
for every STOPPED vehicle (R80, R82, R83). Four points of it are the model's choice: the reply of HALT 0 lists all
twelve slots (log 40), the replies of HALT 0 and RESUME 0 list the vehicles by ascending number (log 42), HALT 0 queues its HALT-ALL
after the stops (log 28), and a vehicle that has a frame of a kind queued or waiting gets no second one of that kind (log 39). An IDLE
vehicle whose GO is in transmission counts, by the model's choice too, as one with no GO queued (log 52). -/
def Obligations.HaltAndResume : Prop :=
  (∀ (s : State) (tag v : Nat), s.takes = true → 1 ≤ v → v ≤ 12 →
    ((s.veh v).state = .absent → refusedWith (.halt tag v) s 0x20 tag 4) ∧
    (∀ prior, ((s.veh v).state = .offered ∧ prior = .offered) ∨ ((s.veh v).state = .driving ∧ prior = .driving) →
      ∃ t : State, answered (.halt tag v) s 0x20 tag (be1 1 ++ be1 v ++ be1 (t.veh v).state.code) t ∧
        (t = ((s.setVeh v { s.veh v with state := .stopped, prior := some prior, offerMs := none }).queueHalt v).close s
          false)) ∧
    ((s.veh v).state = .idle → s.goQueued v = true →
      ∃ t : State, answered (.halt tag v) s 0x20 tag (be1 1 ++ be1 v ++ be1 (t.veh v).state.code) t ∧
        (t = (((s.withdrawGo v).setVeh v { s.veh v with
          state := .stopped, prior := some .offered, offerMs := none }).queueHalt v).close s false)) ∧
    ((s.veh v).state ∈ [.idle, .stopped, .faulted, .lost] → s.goQueued v = false ∨ (s.veh v).state ≠ .idle →
      ∃ data, answered (.halt tag v) s 0x20 tag data ((s.queueHalt v).close s false))) ∧
  (∀ (s : State) (v : Nat), s.vlink.queue.length < 16 → (s.queueHalt v).vlink.queue.contains (.halt v) = true ∨
    (s.queueHalt v).vlink.queue.contains (.halt 0) = true) ∧
  (∀ (s : State) (tag v : Nat), s.takes = true → 12 < v → refusedWith (.halt tag v) s 0x20 tag 2 ∧
    refusedWith (.resume tag v) s 0x21 tag 2) ∧
  (∀ (s : State) (tag : Nat), s.takes = true → ∃ t u : State, answered (.halt tag 0) s 0x20 tag (t.vehicleList allVehicles) t ∧
    t = (u.queueHaltAll).close s false ∧ u.apart = s.apart ∧ u.orders = s.orders ∧ u.locks = s.locks ∧
    ∀ v, 1 ≤ v → v ≤ 12 →
      ((s.veh v).state = .offered →
        u.veh v = { s.veh v with state := .stopped, prior := some .offered, offerMs := none }) ∧
      ((s.veh v).state = .driving →
        u.veh v = { s.veh v with state := .stopped, prior := some .driving, offerMs := none }) ∧
      ((s.veh v).state = .idle → u.goQueued v = false ∧
        (s.goQueued v = true → u.veh v = { s.veh v with state := .stopped, prior := some .offered, offerMs := none }) ∧
        (s.goQueued v = false → u.veh v = s.veh v)) ∧
      ((s.veh v).state ∈ [.absent, .stopped, .faulted, .lost] → u.veh v = s.veh v)) ∧
  (∀ (s : State) (tag v : Nat), s.takes = true → 1 ≤ v → v ≤ 12 →
    (s.estop.level = true ∨ (s.veh v).state ≠ .stopped → refusedWith (.resume tag v) s 0x21 tag 4) ∧
    (s.estop.level = false → (s.veh v).state = .stopped → ∀ t : State,
      ((s.veh v).prior = some .driving →
        t = ((s.setVeh v { s.veh v with state := .driving, prior := none }).enqueue (.resume v)).close s false →
        answered (.resume tag v) s 0x21 tag (be1 1 ++ be1 v ++ be1 (t.veh v).state.code) t) ∧
      (∀ n o target, (s.veh v).prior = some .offered → (s.veh v).order = some n → s.order n = some o →
        s.targetNode o = some target →
        t = (((s.setVeh v { s.veh v with state := .idle, prior := none }).setOrder n { o with goSent := false }).enqueue
            (.go v n o.progress target o.action o.legZones)).close s false →
        answered (.resume tag v) s 0x21 tag (be1 1 ++ be1 v ++ be1 (t.veh v).state.code) t))) ∧
  (∀ (s : State) (tag : Nat), s.takes = true →
    (s.estop.level = true → refusedWith (.resume tag 0) s 0x21 tag 4) ∧
    (s.estop.level = false → ∃ t u : State, answered (.resume tag 0) s 0x21 tag
        (t.vehicleList (allVehicles.filter fun v => decide ((s.veh v).state = .stopped))) t ∧ t = u.close s false ∧
      u.apart = s.apart ∧ u.locks = s.locks ∧
      ((∀ v, 1 ≤ v → v ≤ 12 → (s.veh v).state ≠ .stopped) → u = s) ∧
      ∀ v, 1 ≤ v → v ≤ 12 → ((s.veh v).state ≠ .stopped → u.veh v = s.veh v) ∧
        ((s.veh v).state = .stopped → (s.veh v).prior = some .driving →
          u.veh v = { s.veh v with state := .driving, prior := none } ∧
          .resume v ∈ u.vlink.queue ++ u.vlink.waiting) ∧
        ((s.veh v).state = .stopped → (s.veh v).prior = some .offered →
          u.veh v = { s.veh v with state := .idle, prior := none } ∧
          ∀ n o target, (s.veh v).order = some n → s.order n = some o → s.targetNode o = some target →
            u.goQueued v = true ∧ (s.goQueued v = false →
              .go v n o.progress target o.action o.legZones ∈ u.vlink.queue ++ u.vlink.waiting))))

/-- RETIRE removes the order bound to the vehicle, or the WAITING PARK that names it, from the Order List: one without a load as O25 states
of a removal; of one with a load the reel's record is deleted, the bay's promise falls and a DELIVER's call-off is NONE, with no
ORDER_DONE. It deletes the verified load, raises VEHICLE_LOST, frees the zones and empties the slot, and the reply carries the reel and the
order it ended; an ABSENT slot is refused (R51, R84). VEHCFG takes its four values clamped; a vehicle silent for the new heartbeat limit is
LOST, an offer past the new offer timeout makes its vehicle FAULTED with OFFER, and the holds are judged against the new zone wait limit
(R68, R69, R78, R86). The order of RETIRE's effects, the HALT last (log 28), and the order in which VEHCFG judges what is past its limits
(log 34) are the model's choices. -/
def Obligations.RetireAndVehcfg : Prop :=
  (∀ (s : State) (tag v : Nat), s.takes = true → 1 ≤ v → v ≤ 12 →
    ((s.veh v).state = .absent → refusedWith (.retire tag v) s 0x22 tag 4) ∧
    ((s.veh v).state ≠ .absent → ∃ w u : State,
      answered (.retire tag v) s 0x22 tag (be4 (s.veh v).retiredReel ++ opt2 (s.retiredOrder v)) (u.close s false) ∧
      (s.retiredOrder v = none ∨ (∃ n, s.retiredOrder v = some n ∧ s.order n = none) → w = s.withdrawFor v) ∧
      (∀ n o, s.retiredOrder v = some n → s.order n = some o → o.loaded = false → w = (s.withdrawFor v).removeOrder n) ∧
      (∀ n o, s.retiredOrder v = some n → s.order n = some o → o.loaded = true → ∃ x : State, w = x.fillBacklog ∧
        x.order n = none ∧ (∀ k, k ≠ n → x.order k = s.order k) ∧ x.orders.backlog = s.orders.backlog ∧
        (∀ r, o.reel = some r → x.reel r = none) ∧ (∀ r, o.reel ≠ some r → x.reel r = s.reel r) ∧
        (∀ b l y, o.destination = .bay b l → s.bay b = some y → x.bay b = some { y with inbound := y.inbound - 1 }) ∧
        (∀ b, (∀ l, o.destination ≠ .bay b l) → x.bay b = s.bay b) ∧
        (∀ p, o.kind = .deliver → o.position = some p → (x.pos p).callOff.state = .none) ∧
        (o.kind ≠ .deliver → x.positions = s.positions) ∧ x.notices = s.notices ∧ x.locks = s.locks ∧ x.apart = s.apart) ∧
      u = ((((if (s.veh v).retiredReel = 0 then w else (w.delReel (s.veh v).retiredReel).rewatch).raise
        (.vehicleLost v .retired (s.veh v).node (s.veh v).retiredReel)).keepZone v none).setVeh v
          Vehicle.absentSlot).queueHalt v) ∧
    ((s.veh v).state ≠ .absent → (∀ n o, s.order n = some o → o.vehicle = some v → s.retiredOrder v = some n) → ∃ t : State,
      answered (.retire tag v) s 0x22 tag (be4 (s.veh v).retiredReel ++ opt2 (s.retiredOrder v)) t ∧
      t.veh v = Vehicle.absentSlot ∧ (∀ z, t.holder z ≠ some v) ∧ t.apart = s.apart ∧
      (∀ n, s.retiredOrder v = some n → s.orders.backlog = [] → s.demands = [] → t.order n = none) ∧
      (∀ r, (s.veh v).load = some r → (s.veh v).verified = true → r ≠ 0 → t.reel r = none))) ∧
  (∀ (s : State) (tag a h b z : Nat) (c : VehicleConfig), s.takes = true →
    c = ⟨max 1 (min a 10), max 2 (min h 30), max 10 (min b 50), max 10 (min z 600)⟩ → ∃ t : State,
    answered (.vehcfg tag a h b z) s 0x24 tag
      (be1 (max 1 (min a 10)) ++ be1 (max 2 (min h 30)) ++ be1 (max 10 (min b 50)) ++ be2 (max 10 (min z 600))) t ∧
    t.vconfig = c ∧ t.link = s.link ∧ t.lines = s.lines ∧ t.webs = s.webs ∧ t.clock = s.clock ∧
    (∀ v, 1 ≤ v → v ≤ 12 → (s.veh v).state ≠ .absent → 1000 * c.heartbeat ≤ (s.veh v).silenceMs →
      (t.veh v).state = .lost) ∧
    (∀ v ms, 1 ≤ v → v ≤ 12 → (s.veh v).state = .offered → (s.veh v).offerMs = some ms → 1000 * c.offerTimeout ≤ ms →
      (s.veh v).silenceMs < 1000 * c.heartbeat → (t.veh v).state = .faulted ∧ (t.veh v).faultCode = some .offer) ∧
    ((∀ v, 1 ≤ v → v ≤ 12 → (s.veh v).silenceMs < 1000 * c.heartbeat ∧
        ∀ ms, (s.veh v).offerMs = some ms → ms < 1000 * c.offerTimeout) →
      t = ({ s with vconfig := c } : State).judgeHolds.close s (decide (c.lowBattery < s.vconfig.lowBattery)) ∧
      ∀ n o k, s.order n = some o → o.state = .heldZones → o.heldSince = some k → c.zoneWait < s.clock.seconds - k →
        ∃ o', t.order n = some o' ∧ o'.holdReported = true))

/-- JOIN of an ABSENT slot in RUN: at a defined node whose zone is free the vehicle is IDLE there, holds the zone and reports its load;
otherwise VEHICLE_FAULT with CONFLICT and a HALT. In CONFIG it is answered with a HALT. A JOIN of a vehicle that is not ABSENT
is a rejoin: it becomes FAULTED with LINK, its order loses the leg as `OfferAndSilence` states, and a HALT is queued; the node is taken where
its zone is free or its own, and else kept with a CONFLICT that names the holder; a load that differs from the verified one is kept with
code LOAD, and any other is taken and checked; and a battery that has risen to the low threshold calls the assignment arbiter
(R44, R65, R66, R67, R173). Three clauses are the model's choice: that the notice of an ABSENT slot's conflict, and the LINK of a rejoin, is
raised before its HALT is queued (log 28); that the CONFLICT of an ABSENT slot names load 0 and not the load reported, and that of a rejoin the node recorded, and holder 0 for a node not
defined (log 46); and that a load that differs raises a VEHICLE_FAULT of its own after the one with LINK (log 53). -/
def Obligations.JoinFrame : Prop :=
  ∀ (s : State) (v node load battery : Nat), 1 ≤ v → v ≤ 12 →
    (∀ z, s.link.phase = .run → (s.veh v).state = .absent → s.nodeZone node = some z → s.holder z = none →
      ∃ u : State, exec (.join v node load battery) s = .next (u.close s false).transmit ∧
        u.veh v = { Vehicle.absentSlot with
          state := .idle, node := node, zone := some z, battery := min battery 100
          load := if load = 0 then none else some load, verified := s.loadMatches v load && decide (load ≠ 0) } ∧
        (∀ k, k ≠ v → u.veh k = s.veh k) ∧ u.holder z = some v ∧ (∀ y, y ≠ z → u.holder y = s.holder y) ∧
        u.orders = s.orders ∧ u.reels = s.reels ∧ u.bays = s.bays ∧ u.positions = s.positions ∧ u.vlink = s.vlink ∧
        u.notices = s.notices ∧ u.apart = s.apart) ∧
    (∀ h, s.link.phase = .run → (s.veh v).state = .absent →
      ((s.nodeZone node = none ∧ h = 0) ∨ ∃ z, s.nodeZone node = some z ∧ s.holder z = some h) →
      exec (.join v node load battery) s =
        .next (((s.raise (.vehicleFault v .conflict node 0 0 h 0 0)).queueHalt v).close s false).transmit) ∧
    (s.link.phase = .config → exec (.join v node load battery) s = .next ((s.queueHalt v).close s false).transmit) ∧
    (∀ (x : Vehicle) (w₀ w w₁ : State) (taken differs : Bool) (h stand : Nat) (zone : Option Nat), s.link.phase = .run →
      x = s.veh v → x.state ≠ .absent →
      w₀ = ((s.setVeh v { x with
        silenceMs := 0, sinceFrameMs := 0, state := .faulted, prior := none, faultCode := some .link, offerMs := none
        leg := none }).withdrawFor v).raise (.vehicleFault v .link x.node (x.load.getD 0) (x.order.getD 0) 0 0 0) →
      w = (if x.state = .faulted ∨ x.state = .lost then w₀ else w₀.loseLeg v).queueHalt v →
      (taken = true ↔ ∃ z, s.nodeZone node = some z ∧ (w.holder z = none ∨ w.holder z = some v)) →
      (∀ z, taken = false → s.nodeZone node = some z → w.holder z = some h) → (s.nodeZone node = none → h = 0) →
      w₁ = (if taken = true then w
        else w.raise (.vehicleFault v .conflict x.node (x.load.getD 0) ((w.veh v).order.getD 0) h 0 0)) →
      (stand, zone) = (if taken = true then (node, s.nodeZone node) else (x.node, x.zone)) →
      (differs = true ↔ x.verified = true ∧ x.load ≠ none ∧ x.load ≠ some load) →
      ∃ t u : State, exec (.join v node load battery) s = .next t.transmit ∧
        t = u.close s (decide (x.battery < s.vconfig.lowBattery) && decide (s.vconfig.lowBattery ≤ min battery 100)) ∧
        u.veh v = ⟨.faulted, none, some (if differs = true then .load else .link), stand, zone,
          if x.verified = true ∧ x.load ≠ none then x.load else if load = 0 then none else some load,
          if x.verified = true ∧ x.load ≠ none then true else w.loadMatches v load && decide (load ≠ 0),
          min battery 100, (w.veh v).order, none, 0, 0, none⟩ ∧
        ((w.veh v).order = x.order ∨ (w.veh v).order = none) ∧ (∀ k, k ≠ v → u.veh k = w.veh k) ∧
        (∀ z, u.holder z = if taken = true ∧ s.nodeZone node = some z then some v else w.holder z) ∧
        u.notices = (if differs = true then
          w₁.raise (.vehicleFault v .load stand (x.load.getD 0) ((w.veh v).order.getD 0) 0 (x.load.getD 0) load) else w₁).notices ∧
        u.orders = w.orders ∧ u.reels = w.reels ∧ u.bays = w.bays ∧ u.positions = w.positions ∧ u.vlink = w.vlink ∧
        (t.veh v).state = .faulted ∧ (t.veh v).faultCode = some (if differs = true then .load else .link) ∧
        (t.veh v).battery = min battery 100 ∧ (t.veh v).leg = none ∧ (t.veh v).offerMs = none ∧ (t.veh v).silenceMs = 0 ∧
        (t.veh v).sinceFrameMs = 0 ∧ (t.veh v).prior = none ∧ t.apart = s.apart)

/-- A TAKE for the current leg makes an OFFERED vehicle DRIVING, or a STOPPED one's prior state DRIVING, and its OFFERED order ACTIVE
(R43, R71); a PASS of the next zone frees the zone left and moves the vehicle on, and one of another zone is a ROUTE fault (R72). -/
def Obligations.TakeAndPass : Prop :=
  ∀ (s : State) (v : Nat), 1 ≤ v → v ≤ 12 → (s.veh v).state ≠ .absent → (s.veh v).state ≠ .lost →
    (∀ t i, (s.veh v).onLeg t i = true → (s.veh v).state = .offered →
      exec (.take v t i) s = .next (((s.setVeh v { s.veh v with
        silenceMs := 0, sinceFrameMs := 0, state := .driving, offerMs := none }).activate t).close s false).transmit) ∧
    (∀ t i, (s.veh v).onLeg t i = true → (s.veh v).state = .stopped → (s.veh v).prior = some .offered →
      exec (.take v t i) s = .next (((s.setVeh v { s.veh v with
        silenceMs := 0, sinceFrameMs := 0, prior := some .driving }).activate t).close s false).transmit) ∧
    (∀ t i, (s.veh v).onLeg t i = false → exec (.take v t i) s = .next ((s.heardFrom v).close s false).transmit) ∧
    (∀ t o, s.order t = some o → (s.activate t).order t =
      some { o with state := if o.state = .offered then .active else o.state }) ∧
    (∀ z, (s.veh v).moves = true → s.nextZone (s.veh v) = some z →
      ∃ u : State, exec (.pass v z) s = .next (u.close s false).transmit ∧
        u.veh v = { s.veh v with
          silenceMs := 0, sinceFrameMs := 0, zone := some z, node := 0
          leg := (s.veh v).leg.map fun l => { l with passed := l.passed + 1 } } ∧
        (∀ k, k ≠ v → u.veh k = s.veh k) ∧
        (∀ y, s.holder y = some v → (s.veh v).zone = some y → s.locks.wf = true → u.holder y = none) ∧
        (∀ y, (s.veh v).zone ≠ some y → u.holder y = s.holder y) ∧ u.orders = s.orders ∧ u.reels = s.reels ∧
        u.notices = s.notices ∧ u.vlink = s.vlink ∧ u.apart = s.apart) ∧
    (∀ z, (s.veh v).moves = false ∨ s.nextZone (s.veh v) ≠ some z →
      exec (.pass v z) s = .next (((s.heardFrom v).faultVehicle v .route true).close s false).transmit)

/-- A DONE for the current leg, at a node whose zone the vehicle holds, and at the leg's target when OK: the vehicle is IDLE at the node
with that zone alone, and the result goes to its order: a fetch or an order completes, or the order is suspended with WRONG_REEL,
EMPTY_PICK or BLOCKED_DROP (a drop on an arm that has become occupied is blocked), or goes back to WAITING. A CANCELLING order is removed
without its load, converted with one, and completed where its last leg was done all the same. Elsewhere, a
node that is not defined among it, it is a ROUTE fault; a DONE that does not match the leg counts as a heartbeat and no more (R46, R48,
R50, R53, R54, R73). -/
def Obligations.DoneFrame : Prop :=
  (∀ (s : State) (v t i node read : Nat) (d : DoneResult), 1 ≤ v → v ≤ 12 →
    (s.veh v).state ≠ .absent → (s.veh v).state ≠ .lost →
    ((s.veh v).state.onDuty = false ∨ (s.veh v).onLeg t i = false →
      exec (.done v t i d node read) s = .next ((s.heardFrom v).close s false).transmit) ∧
    ((s.veh v).state.onDuty = true → (s.veh v).onLeg t i = true → s.nodeZone node = none →
      exec (.done v t i d node read) s = .next (((s.heardFrom v).faultVehicle v .route true).close s false).transmit)) ∧
  ∀ (s : State) (v t i node read z : Nat) (d : DoneResult) (l : Leg) (s₁ : State), 1 ≤ v → v ≤ 12 →
    (s.veh v).state.onDuty = true → (s.veh v).leg = some l → l.tag = t → l.index = i → s.nodeZone node = some z →
    s₁ = (s.setVeh v { s.veh v with
      silenceMs := 0, sinceFrameMs := 0, state := .idle, prior := none, offerMs := none, leg := none, node := node
      zone := some z }).keepZone v (some z) →
    (s.holder z ≠ some v ∨ (d = .ok ∧ node ≠ l.target) →
      exec (.done v t i d node read) s = .next (((s.heardFrom v).faultVehicle v .route true).close s false).transmit) ∧
    (s.holder z = some v → (d = .ok → node = l.target) →
      (s.order t = none → exec (.done v t i d node read) s = .next (s₁.close s false).transmit) ∧
      (∀ o, s.order t = some o → o.state ≠ .cancelling →
        (d = .ok → o.kind ≠ .park → o.progress = 1 → o.reel = some read →
          exec (.done v t i d node read) s = .next ((s₁.completeFetch t v).close s false).transmit) ∧
        (d = .ok → o.kind ≠ .park → o.progress = 1 → o.reel ≠ some read →
          exec (.done v t i d node read) s = .next (((s₁.setLoad v read false).suspend t o .wrongReel v).close s false).transmit) ∧
        (d = .ok → o.kind = .park ∨ (o.progress ≠ 1 ∧ s.armOccupied o = false) →
          exec (.done v t i d node read) s = .next ((s₁.completeOrder t o v).close s false).transmit) ∧
        (d = .ok → o.kind ≠ .park → o.progress ≠ 1 → s.armOccupied o = true →
          exec (.done v t i d node read) s = .next ((s₁.suspend t o .blockedDrop v).close s false).transmit) ∧
        (d = .empty ∨ d = .blocked → o.kind ≠ .park → o.progress = 1 →
          exec (.done v t i d node read) s = .next (((s₁.setLoad v 0 false).suspend t o .emptyPick v).close s false).transmit) ∧
        (d = .empty ∨ d = .blocked → o.kind = .park ∨ o.progress ≠ 1 →
          exec (.done v t i d node read) s = .next ((s₁.suspend t o .blockedDrop v).close s false).transmit) ∧
        (d = .abandoned → o.loaded = false →
          exec (.done v t i d node read) s = .next (((s₁.setOrder t o.backToWaiting).unbind v).close s false).transmit) ∧
        (d = .abandoned → o.loaded = true →
          exec (.done v t i d node read) s = .next ((s₁.requestLeg t).close s false).transmit)) ∧
      (∀ o, s.order t = some o → o.state = .cancelling →
        (o.kind = .park →
          (d = .ok → exec (.done v t i d node read) s = .next ((s₁.completeOrder t o v).close s false).transmit) ∧
          (d ≠ .ok → exec (.done v t i d node read) s = .next ((s₁.removeOrder t).close s false).transmit)) ∧
        (o.kind ≠ .park → o.progress = 1 →
          (d = .ok → o.reel = some read → ∀ u : State,
            u = ((((s₁.takeReel o read v).rewatch.onVeh v fun x => { x with load := some read, verified := true }).setOrder t
              { o with progress := 2 }).convert t) →
            (∀ p a, o.source = .arm p a →
              exec (.done v t i d node read) s = .next ((u.wakeHeldArm p).close s false).transmit) ∧
            ((∀ p a, o.source ≠ .arm p a) → exec (.done v t i d node read) s = .next (u.close s false).transmit)) ∧
          (d = .ok → o.reel ≠ some read →
            exec (.done v t i d node read) s = .next (((s₁.setLoad v read false).removeOrder t).close s false).transmit) ∧
          (d = .empty ∨ d = .blocked →
            exec (.done v t i d node read) s = .next (((s₁.setLoad v 0 false).removeOrder t).close s false).transmit) ∧
          (d = .abandoned → exec (.done v t i d node read) s = .next ((s₁.removeOrder t).close s false).transmit)) ∧
        (o.kind ≠ .park → o.progress ≠ 1 →
          (d = .ok → s.armOccupied o = false →
            exec (.done v t i d node read) s = .next ((s₁.completeOrder t o v).close s false).transmit) ∧
          (d ≠ .ok ∨ s.armOccupied o = true →
            exec (.done v t i d node read) s = .next ((s₁.convert t).close s false).transmit))))

/-- ALIVE sets the battery and the node of its zone, a node outside it being a ROUTE fault; READY makes a FAULTED vehicle at a node IDLE
with its own zone alone; a FAULT frame makes the vehicle FAULTED with its code and no leg, and its order loses
the leg as `OfferAndSilence` states. A LOST vehicle heard is FAULTED with
LINK, and an ABSENT one is answered with a HALT (R66, R68, R70, R74, R81). That a FAULT frame with code LOAD names 0 as the reported
reel of its notice is the model's choice (log 41), and so is it that a FAULT frame of a LOST vehicle leaves it with code LINK and not its
own, as any frame but a JOIN does (log 18). -/
def Obligations.AliveFaultReady : Prop :=
  ∀ (s : State) (v : Nat), 1 ≤ v → v ≤ 12 →
    ((s.veh v).state = .absent → ∀ f : VehicleInput, (∀ n r b, f ≠ .join n r b) →
      exec (frameCommand v f) s = .next ((s.queueHalt v).close s false).transmit) ∧
    ((s.veh v).state = .lost → ∀ f : VehicleInput, (∀ n r b, f ≠ .join n r b) →
      exec (frameCommand v f) s = .next (((s.heardFrom v).faultVehicle v .link true).close s false).transmit) ∧
    ((s.veh v).state ≠ .absent → (s.veh v).state ≠ .lost →
      (∀ b node x, x = ({ s.veh v with silenceMs := 0, sinceFrameMs := 0, battery := min b 100 } : Vehicle) →
        ∀ force, force = (decide ((s.veh v).battery < s.vconfig.lowBattery) &&
          decide (s.vconfig.lowBattery ≤ min b 100)) →
        (node = 0 → (s.veh v).state ∈ [.driving, .stopped, .faulted] →
          exec (.alive v b node) s = .next ((s.setVeh v { x with node := 0 }).close s force).transmit) ∧
        (node = 0 → (s.veh v).state ∈ [.idle, .offered] →
          exec (.alive v b node) s = .next ((s.setVeh v x).close s force).transmit) ∧
        (∀ z, node ≠ 0 → s.nodeZone node = some z → (s.veh v).zone = some z →
          exec (.alive v b node) s = .next ((s.setVeh v { x with node := node }).close s force).transmit) ∧
        (node ≠ 0 → (s.nodeZone node = none ∨ s.nodeZone node ≠ (s.veh v).zone) →
          exec (.alive v b node) s = .next (((s.setVeh v x).faultVehicle v .route true).close s force).transmit)) ∧
      (∀ c, ∃ t : State, exec (.fault v c) s = .next t.transmit ∧ (t.veh v).state = .faulted ∧
        (t.veh v).faultCode = some (faultCodeOf c) ∧ (t.veh v).leg = none ∧ (t.veh v).offerMs = none ∧
        (t.veh v).prior = none ∧ t.apart = s.apart ∧
        ((s.veh v).order = none → t.notices = (s.raise (.vehicleFault v (faultCodeOf c) (s.veh v).node ((s.veh v).load.getD 0) 0 0
          (if c = .load then (s.veh v).load.getD 0 else 0) 0)).notices)) ∧
      (∀ (c : ReportedFault) (u : State), u = (((s.setVeh v { s.veh v with
          silenceMs := 0, sinceFrameMs := 0, state := .faulted, prior := none, faultCode := some (faultCodeOf c), offerMs := none
          leg := none }).withdrawFor v).raise (.vehicleFault v (faultCodeOf c) (s.veh v).node ((s.veh v).load.getD 0)
          ((s.veh v).order.getD 0) 0 (if c = .load then (s.veh v).load.getD 0 else 0) 0)) →
        ((s.veh v).state ≠ .faulted → exec (.fault v c) s = .next ((u.loseLeg v).close s false).transmit) ∧
        ((s.veh v).state = .faulted → exec (.fault v c) s = .next (u.close s false).transmit)) ∧
      (∀ z, (s.veh v).state = .faulted → (s.veh v).node ≠ 0 → s.nodeZone (s.veh v).node = some z →
        (s.veh v).order = none →
        exec (.ready v) s = .next (((s.keepZone v (some z)).setVeh v { s.veh v with
          silenceMs := 0, sinceFrameMs := 0, state := .idle, faultCode := none, zone := some z }).close s false).transmit) ∧
      (∀ z t o, (s.veh v).state = .faulted → (s.veh v).node ≠ 0 → s.nodeZone (s.veh v).node = some z →
        (s.veh v).order = some t → s.order t = some o → o.state = .suspended → o.reason = some .vehicle →
        exec (.ready v) s = .next ((((s.keepZone v (some z)).setVeh v { s.veh v with
          silenceMs := 0, sinceFrameMs := 0, state := .idle, faultCode := none, zone := some z }).requestLeg t).close s false).transmit) ∧
      ((s.veh v).state ≠ .faulted → exec (.ready v) s = .next ((s.heardFrom v).close s false).transmit))

/-- A whole frame of the vehicle link is its command, every field as it travelled; one of no kind, length or code of the table, or of no
vehicle, is discarded and counted, and so is one whose check fails, the bytes behind its sync byte being taken again as if they had just
arrived, with those that follow (R81, R166, R167, R168, R192). That VEHICLE_FRAME_DISCARDED carries bytes, and acts as the command of a good
frame among them (log 7), and that the discarded-frame count saturates (log 37), are the model's choices. -/
def Obligations.VehicleFramesRead : Prop :=
  ∀ (s : State) (v kind : Nat) (payload : Bytes), s.vlink.rx.held = [] → s.vlink.rx.gapMs = 0 → v < 256 → kind < 256 →
    payload.length ≤ 240 →
    (∀ f, readVehicle kind payload = some f → 1 ≤ v → v ≤ 12 →
      exec (.vehicleFrameDiscarded (vehicleLinkFrame kind v payload)) s = exec (frameCommand v f) s) ∧
    (readVehicle kind payload = none ∨ v = 0 ∨ 12 < v →
      exec (.vehicleFrameDiscarded (vehicleLinkFrame kind v payload)) s = .next ({ s with vlink := { s.vlink with
        rx := ⟨[], 0⟩, discarded := satAdd s.vlink.discarded 1 } } : State).transmit) ∧
    (∀ (len : Byte) (body more : Bytes) (u : State), len.toNat ≤ 240 → body.length = 4 + len.toNat →
      crcBytes (len :: body.take (2 + len.toNat)) ≠ body.drop (2 + len.toNat) →
      u = { s with vlink := { s.vlink with rx := ⟨[], 0⟩, discarded := satAdd s.vlink.discarded 1 } } →
      exec (.vehicleFrameDiscarded (syncByte :: len :: (body ++ more))) s =
        exec (.vehicleFrameDiscarded (len :: (body ++ more))) u.transmit ∧
      (syncByte ≠ len → syncByte ∉ body →
        exec (.vehicleFrameDiscarded (syncByte :: len :: body)) s = .next u.transmit)) ∧
    (∀ n r b, n < 256 → r < 4294967296 → b < 256 →
      readVehicle 0x11 (be1 n ++ be4 r ++ be1 b) = some (.join n r b)) ∧
    (∀ t i n r, t < 65536 → i < 256 → n < 256 → r < 4294967296 →
      readVehicle 0x12 (be2 t ++ be1 i) = some (.take t i) ∧ readVehicle 0x13 (be1 n) = some (.pass n) ∧
      readVehicle 0x14 (be2 t ++ be1 i ++ be1 0 ++ be1 n ++ be4 r) = some (.done t i .ok n r) ∧
      readVehicle 0x14 (be2 t ++ be1 i ++ be1 1 ++ be1 n ++ be4 r) = some (.done t i .empty n r) ∧
      readVehicle 0x14 (be2 t ++ be1 i ++ be1 2 ++ be1 n ++ be4 r) = some (.done t i .blocked n r) ∧
      readVehicle 0x14 (be2 t ++ be1 i ++ be1 3 ++ be1 n ++ be4 r) = some (.done t i .abandoned n r) ∧
      readVehicle 0x15 (be1 i ++ be1 n) = some (.alive i n) ∧ readVehicle 0x16 (be1 1) = some (.fault .drive) ∧
      readVehicle 0x16 (be1 2) = some (.fault .battery) ∧ readVehicle 0x16 (be1 3) = some (.fault .obstacle) ∧
      readVehicle 0x16 (be1 4) = some (.fault .load) ∧
      readVehicle 0x17 [] = some .ready)

/-- The vehicle link's transmitter and its outbound queue. A GO sent to its vehicle, IDLE and still bound to the order that awaits it, makes
it OFFERED with the leg and starts its offer timer; the next frame of the queue then begins, the oldest waiting frame taking its place,
and while the emergency stop is asserted no GO begins. A frame joins at the tail, or waits when the queue is full. A HALT goes behind the
HALTs at the head; into a full queue it displaces the youngest GO, whose order gives up its grant's zones and is WAITING again or asks
for its leg anew, or else sends the youngest frame that is no HALT back to the waiting line. HALT-ALL removes the HALTs and takes the
head (R43, R69, R79, R80). The model's choices: a GO whose order has gone, has another vehicle, or has a newer GO queued changes nothing
when it has been sent, and a displaced CANCELLING order goes on as with no leg in flight (log 9); a vehicle that has a frame of a kind
queued or waiting gets no second one of that kind (log 39); HALT-ALL takes its place before waiting frames move up (log 50). -/
def Obligations.VehicleTransmitter : Prop :=
  (∀ (s : State) (v t i n : Nat) (a : GoAction) (zs : List Nat) (bs : Bytes) (o : Order),
    s.vlink.tx = some ⟨.go v t i n a zs, bs⟩ → (s.veh v).state = .idle → (s.veh v).order = some t → s.order t = some o →
    (o.state = .offered ∨ o.state = .cancelling) → o.goSent = false → s.goQueued v = false →
    ∃ u : State, exec .vehicleFrameSent s = .next u ∧ u.order t = some { o with goSent := true } ∧
      u.veh v = { s.veh v with state := .offered, leg := some ⟨t, i, n, zs, o.legPassed⟩, offerMs := some 0 } ∧
      (∀ k, k ≠ v → u.veh k = s.veh k) ∧ (∀ k, k ≠ t → u.order k = s.order k) ∧ u.locks = s.locks ∧ u.reels = s.reels ∧
      u.notices = s.notices) ∧
  (∀ (s : State) (x : VehicleTx), s.vlink.tx = some x →
    (∀ v t i n a zs o, x.frame = .go v t i n a zs → s.order t = some o → (s.veh v).state = .idle → (s.veh v).order = some t →
      (o.state = .offered ∨ o.state = .cancelling) → o.goSent = false → s.goQueued v = true) →
    exec .vehicleFrameSent s = exec .vehicleFrameSent { s with vlink := { s.vlink with tx := none } }) ∧
  (∀ (s : State) (f : VehicleFrame) (fs : List VehicleFrame), s.vlink.tx = none → s.vlink.queue = f :: fs →
    s.vlink.waiting = [] → (s.estop.level = false ∨ f.isGo = false) →
    exec .vehicleFrameSent s = .next { s with vlink := { s.vlink with tx := some ⟨f, f.bytes⟩, queue := fs } }) ∧
  (∀ (s : State) (f w : VehicleFrame) (fs ws : List VehicleFrame), s.vlink.tx = none → s.vlink.queue = f :: fs →
    s.vlink.waiting = w :: ws → fs.length = 15 → (s.estop.level = false ∨ f.isGo = false) →
    exec .vehicleFrameSent s = .next { s with vlink := { s.vlink with tx := some ⟨f, f.bytes⟩, queue := fs ++ [w], waiting := ws } }) ∧
  (∀ s : State, s.vlink.tx = none → s.vlink.queue = [] → exec .vehicleFrameSent s = .next s) ∧
  (∀ (s u : State) (x : VehicleTx), s.estop.level = true → exec .vehicleFrameSent s = .next u → u.vlink.tx = some x →
    x.frame.isGo = false) ∧
  (∀ (s : State) (q w : List VehicleFrame), ∃ moved, (s.setFrames q w).vlink.queue = q ++ moved ∧
    w = moved ++ (s.setFrames q w).vlink.waiting ∧ (moved = [] ∨ (q ++ moved).length ≤ 16) ∧
    ((s.setFrames q w).vlink.waiting = [] ∨ 16 ≤ (q ++ moved).length)) ∧
  (∀ (s : State) (f : VehicleFrame),
    ((∀ g ∈ s.vlink.queue ++ s.vlink.waiting, g.slot ≠ f.slot) →
      (s.vlink.waiting = [] → s.vlink.queue.length < 16 →
        s.enqueue f = { s with vlink := { s.vlink with queue := s.vlink.queue ++ [f] } }) ∧
      (16 ≤ s.vlink.queue.length →
        s.enqueue f = { s with vlink := { s.vlink with waiting := s.vlink.waiting ++ [f] } })) ∧
    ((∃ g ∈ s.vlink.queue ++ s.vlink.waiting, g.slot = f.slot) → s.enqueue f = s)) ∧
  (∀ (s : State) (v : Nat), .halt v ∈ s.vlink.queue ∨ .halt 0 ∈ s.vlink.queue → s.queueHalt v = s) ∧
  (∀ (s : State) (v : Nat) (hs rest : List VehicleFrame), .halt v ∉ s.vlink.queue → .halt 0 ∉ s.vlink.queue →
    s.vlink.queue = hs ++ rest → (∀ h ∈ hs, h.isHalt = true) → (∀ f ∈ rest, f.isHalt = false) →
    (s.vlink.queue.length < 16 → s.queueHalt v = s.setFrames (hs ++ .halt v :: rest) s.vlink.waiting) ∧
    (s.vlink.queue.length = 16 →
      (∀ w t i n a zs pre post, rest = pre ++ .go w t i n a zs :: post → (∀ f ∈ post, f.isGo = false) →
        s.queueHalt v = ({ s with vlink := { s.vlink with queue := hs ++ .halt v :: (pre ++ post) } } : State).displaced t) ∧
      (∀ pre g, rest = pre ++ [g] → (∀ f ∈ rest, f.isGo = false) → s.queueHalt v =
        { s with vlink := { s.vlink with queue := hs ++ .halt v :: pre, waiting := g :: s.vlink.waiting } }))) ∧
  (∀ (s : State) (kept : List VehicleFrame), kept = s.vlink.queue.filter (fun f => !f.isHalt) →
    (kept.length < 16 → s.queueHaltAll = s.setFrames (.halt 0 :: kept) s.vlink.waiting) ∧
    (kept.length = 16 →
      (∀ w t i n a zs pre post, kept = pre ++ .go w t i n a zs :: post → (∀ f ∈ post, f.isGo = false) →
        s.queueHaltAll = ({ s with vlink := { s.vlink with queue := .halt 0 :: (pre ++ post) } } : State).displaced t) ∧
      (∀ pre g, kept = pre ++ [g] → (∀ f ∈ kept, f.isGo = false) → s.queueHaltAll =
        { s with vlink := { s.vlink with queue := .halt 0 :: pre, waiting := g :: s.vlink.waiting } }))) ∧
  (∀ (s u : State) (t v : Nat) (o : Order), s.order t = some o → o.vehicle = some v →
    u = s.keepZone v (s.standingZone v) →
    (o.state ≠ .cancelling → o.loaded = false → s.displaced t = (u.setOrder t o.backToWaiting).unbind v) ∧
    (o.state ≠ .cancelling → o.loaded = true → s.displaced t = u.requestLeg t) ∧
    (o.state = .cancelling → o.loaded = false → s.displaced t = u.removeOrder t) ∧
    (o.state = .cancelling → o.loaded = true → s.displaced t = u.convert t))

/-- An offer not taken in time makes the vehicle FAULTED with OFFER; silence to the heartbeat limit makes it LOST. Its order loses its
leg: without a load it goes back to WAITING, or is removed when it was CANCELLING; with one it is SUSPENDED(VEHICLE), and converted when
its cancellation is pending, SUSPENDED(NO_SPACE) when no bay has room; one SUSPENDED for another reason keeps it (R51, R54, R66, R68,
R69). Three points of it are the model's choice: the HALT is queued last (log 28), a timeout of a vehicle that has no such timer running
only ends an event (log 3), and the ORDER_SUSPENDED of an order without a load names the vehicle that it has lost (log 55). -/
def Obligations.OfferAndSilence : Prop :=
  (∀ (s : State) (v : Nat), 1 ≤ v → v ≤ 12 →
    ((s.veh v).state = .offered → ∃ t : State, exec (.offerTimeout v) s = .next t.transmit ∧ (t.veh v).state = .faulted ∧
      (t.veh v).faultCode = some .offer ∧ (t.veh v).leg = none ∧ (t.veh v).offerMs = none ∧ t.apart = s.apart) ∧
    ((s.veh v).state = .offered → ∀ u : State,
      u = (((s.setVeh v { s.veh v with
        state := .faulted, prior := none, faultCode := some .offer, offerMs := none, leg := none }).withdrawFor v).raise
          (.vehicleFault v .offer (s.veh v).node ((s.veh v).load.getD 0) ((s.veh v).order.getD 0) 0 0 0)) →
      exec (.offerTimeout v) s = .next (((u.loseLeg v).queueHalt v).close s false).transmit) ∧
    ((s.veh v).state ≠ .offered → exec (.offerTimeout v) s = .next (s.close s false).transmit) ∧
    ((s.veh v).state ≠ .absent → (s.veh v).state ≠ .lost → ∃ t : State, exec (.silenceTimeout v) s = .next t.transmit ∧
      (t.veh v).state = .lost ∧ (t.veh v).leg = none ∧ (t.veh v).offerMs = none ∧ (t.veh v).load = (s.veh v).load ∧
      t.apart = s.apart) ∧
    ((s.veh v).state ≠ .absent → (s.veh v).state ≠ .lost → ∀ u : State,
      u = (((s.setVeh v { s.veh v with state := .lost, offerMs := none, leg := none }).withdrawFor v).raise
        (.vehicleLost v .silent (s.veh v).node ((s.veh v).load.getD 0))) →
      ((s.veh v).state ≠ .faulted →
        exec (.silenceTimeout v) s = .next (((u.loseLeg v).queueHalt v).close s false).transmit) ∧
      ((s.veh v).state = .faulted → exec (.silenceTimeout v) s = .next ((u.queueHalt v).close s false).transmit)) ∧
    ((s.veh v).state = .absent ∨ (s.veh v).state = .lost →
      exec (.silenceTimeout v) s = .next (s.close s false).transmit)) ∧
  ∀ (s : State) (v : Nat),
    ((s.veh v).order = none → s.loseLeg v = s) ∧
    (∀ t o, (s.veh v).order = some t → s.order t = some o →
      (o.loaded = false → o.state ≠ .cancelling → ∃ o', (s.loseLeg v).order t = some o' ∧ o' = o.backToWaiting) ∧
      (o.loaded = false → o.state ≠ .cancelling → s.loseLeg v =
        ((s.setOrder t o.backToWaiting).setVeh v { s.veh v with order := none }).raise
          (.orderSuspended t .vehicle v (o.reel.getD 0))) ∧
      (o.loaded = false → o.state = .cancelling → s.loseLeg v = s.removeOrder t) ∧
      (o.loaded = true → o.state ≠ .suspended → o.cancelPending = false → ∃ o', (s.loseLeg v).order t = some o' ∧
        o'.state = .suspended ∧ o'.reason = some .vehicle ∧ o'.vehicle = o.vehicle) ∧
      (o.loaded = true → o.state ≠ .suspended → ∀ u : State,
        u = (s.setOrder t { o with
          state := .suspended, reason := some .vehicle, heldSince := none, legZones := [], legPassed := 0
          goSent := false }).raise (.orderSuspended t .vehicle v (o.reel.getD 0)) →
        (o.cancelPending = false → s.loseLeg v = u) ∧ (o.cancelPending = true → s.loseLeg v = u.convert t)) ∧
      (o.loaded = true → o.state ≠ .suspended → o.cancelPending = true → o.vehicle = some v →
        (s.veh v).state = .faulted ∨ (s.veh v).state = .lost →
        (∀ b, s.conversionBay o = some b → ∃ o', (s.loseLeg v).order t = some o' ∧ o'.state = .suspended ∧
          o'.reason = some .vehicle ∧ o'.converted = true ∧ o'.destination = .bay b 0 ∧ o'.vehicle = some v) ∧
        (s.conversionBay o = none → ∃ o', (s.loseLeg v).order t = some o' ∧ o'.state = .suspended ∧
          o'.reason = some .noSpace ∧ o'.destination = o.destination)) ∧
      (o.loaded = true → o.state = .suspended → s.loseLeg v = s))

/-! ### The passes that end an event -/

/-- The passes that end an event. The grant pass takes the HELD(ZONES) orders, the assignment arbiter the WAITING ones, each once, by
priority and then by creation sequence (R44, R77); the arbiter gives an order the vehicle free for it with the shortest route
length, the lower number between equals, and a PARK its own named vehicle (R44, R45); the Demand Queue's pass takes the demands oldest
first and gives each the reel the selection rule finds, with a DELIVER, a backlog item or RAISED (R33, R34, R49). None of them changes
anything else: an order keeps its task and changes only while it waits, a vehicle only by an order bound to it while it is IDLE, no zone
is taken from its holder, no queued frame is lost. The order of the three passes is the model's choice (log 10), and so is that a position
with a DELIVER in the backlog gets no second one there (log 39). -/
def Obligations.PassesThatEndAnEvent : Prop :=
  (∀ (s pre : State) (force : Bool),
    (s.close pre force).apart = s.apart ∧ (s.close pre force).bays = s.bays ∧ (s.close pre force).notices = s.notices ∧
    (∀ t o, s.order t = some o → ∃ o', (s.close pre force).order t = some o' ∧ o.sameTask o' ∧
      (o.state ≠ .waiting → o.state ≠ .heldZones → o' = o)) ∧
    (∀ v, ∃ order, (s.close pre force).veh v = { s.veh v with order := order } ∧
      ((s.veh v).state ≠ .idle → order = (s.veh v).order)) ∧
    (∀ z v, s.holder z = some v → (s.close pre force).holder z = some v) ∧
    (∀ f ∈ s.vlink.queue ++ s.vlink.waiting,
      f ∈ (s.close pre force).vlink.queue ++ (s.close pre force).vlink.waiting) ∧
    (∀ r, s.reel r = none → (s.close pre force).reel r = none) ∧
    (∀ r x, s.reel r = some x → ∃ y, (s.close pre force).reel r = some y ∧ (x.state ≠ .stored → y = x) ∧
      y = { x with state := y.state, reservation := y.reservation, tag := y.tag }) ∧
    (∀ p, ((s.close pre force).pos p).core = (s.pos p).core) ∧ (s.close pre force).demands.Sublist s.demands ∧
    (s.demands = [] → (s.close pre force).reels = s.reels ∧ (s.close pre force).positions = s.positions)) ∧
  (∀ s pre u : State, u = (s.demands.foldl State.serveDemand s.grantPass) →
    s.close pre true = u.assignPass ∧ (assignmentDue pre u = true → s.close pre false = u.assignPass) ∧
    (assignmentDue pre u = false → s.close pre false = u) ∧
    (u.orders.table.wf = true → (assignmentDue pre u = true ↔
      (∃ t o, u.order t = some o ∧ o.state = .waiting ∧
        ∀ x, pre.order t = some x → x.state = .waiting → x.sequence ≠ o.sequence) ∨
      (∃ v, 1 ≤ v ∧ v ≤ 12 ∧ (u.veh v).state = .idle ∧ (u.veh v).order = none ∧
        ((pre.veh v).state ≠ .idle ∨ (pre.veh v).order ≠ none))))) ∧
  (∀ (s : State) (ahead : Nat → Nat → Prop), s.orders.table.wf = true →
    (∀ a b, ahead a b ↔ ∀ x y, s.order a = some x → s.order b = some y →
      (x.priority = y.priority → x.sequence ≤ y.sequence) ∧ (x.priority ≠ y.priority → x.priority = .urgent)) →
    (∃ ts : List Nat, s.grantPass = ts.foldl State.grantOne s ∧ ts.Nodup ∧ ts.Pairwise ahead ∧
      ∀ t, t ∈ ts ↔ ∃ o, s.order t = some o ∧ o.state = .heldZones) ∧
    (∃ ts : List Nat, s.assignPass = ts.foldl State.assignOne s ∧ ts.Nodup ∧ ts.Pairwise ahead ∧
      ∀ t, t ∈ ts ↔ ∃ o, s.order t = some o ∧ o.state = .waiting)) ∧
  (∀ (s : State) (t target : Nat) (o : Order) (fit : Nat → Nat → Prop), s.order t = some o → o.state = .waiting →
    s.targetNode o = some target → s.orders.table.wf = true →
    (∀ v d, fit v d ↔ 1 ≤ v ∧ v ≤ 12 ∧ (s.veh v).state = .idle ∧ (s.veh v).order = none ∧ (s.veh v).load = none ∧
      s.vconfig.lowBattery ≤ (s.veh v).battery ∧
      (∀ n x, s.order n = some x → x.kind = .park → x.state = .waiting → x.vehicle ≠ some v) ∧
      (((s.veh v).node = target ∧ d = 0) ∨
        ((s.veh v).node ≠ target ∧ ∃ r, s.route (s.veh v).node target = some r ∧ r.length = d))) →
    (o.kind ≠ .park →
      (∀ v d, fit v d → (∀ u e, fit u e → d < e ∨ (d = e ∧ v ≤ u)) → s.assignOne t =
        ((s.setOrder t { o with vehicle := some v }).setVeh v { s.veh v with order := some t }).requestLeg t) ∧
      ((∀ v d, ¬fit v d) → s.assignOne t = s)) ∧
    (∀ v, o.kind = .park → o.vehicle = some v →
      ((s.veh v).state = .idle → (s.veh v).order = none →
        ((s.veh v).node = target ∨ (s.route (s.veh v).node target).isSome = true) → s.assignOne t =
          ((s.setOrder t { o with vehicle := some v }).setVeh v { s.veh v with order := some t }).requestLeg t) ∧
      ((s.veh v).state ≠ .idle ∨ (s.veh v).order ≠ none ∨
        ((s.veh v).node ≠ target ∧ s.route (s.veh v).node target = none) → s.assignOne t = s))) ∧
  (∀ (s : State) (e : DemandEntry), (s.select e.grade e.width = none → s.serveDemand e = s) ∧
    (∀ r y, s.select e.grade e.width = some r → s.reel r = some y → ∃ u : State, s.serveDemand e = u ∧
      u.demands = s.demands.filter (fun k => decide (k.position ≠ e.position)) ∧
      (∀ k, k ≠ r → u.reel k = s.reel k) ∧ (∀ k, k ≠ e.position → u.pos k = s.pos k) ∧
      ((s.handling 7).mode = .report ∨ (s.handling 7).mode = .off →
        u.reel r = some { y with state := .reserved, reservation := some e.position } ∧ u.orders = s.orders ∧
        (u.pos e.position).callOff.state = .raised) ∧
      ((s.handling 7).mode = .auto ∨ (s.handling 7).mode = .both → s.ordersFull = false →
        u.reel r = some { y with state := .reserved, reservation := some e.position, tag := some s.nextTag } ∧
        u.order s.nextTag = some (s.newOrder
          ⟨.deliver, .normal, some r, s.bayPlace r, .arm e.position none, some e.position, none⟩) ∧
        (u.pos e.position).callOff.state = .ordered) ∧
      ((s.handling 7).mode = .auto ∨ (s.handling 7).mode = .both → s.ordersFull = true →
        u.reel r = some { y with state := .reserved, reservation := some e.position } ∧
        ((∀ i ∈ s.orders.backlog, i.isDeliveryOf e.position = false) →
          u.orders = { s.orders with backlog := s.orders.backlog ++ [.delivery e.position r .normal] }) ∧
        ((∃ i ∈ s.orders.backlog, i.isDeliveryOf e.position = true) → u.orders = s.orders) ∧
        (u.pos e.position).callOff.state = .waitStock ∧ (u.pos e.position).callOff.ordersFull = true)))

/-! ### The web gauge -/

/-- T_s at a speed window of a WEB position (R97). -/
def Obligations.TimeToSplice : Prop :=
  ∀ (s : State) (p n : Nat), 1 ≤ p → p ≤ 8 → (s.pos p).enabled = true → (s.pos p).isWeb = true →
    ∃ t : State, exec (.speedWindow p n) s = .next t.transmit ∧ (t.pos p).gauge.speed = 10 * (s.pos p).gauge.windowCounts ∧
      (10 * (s.pos p).gauge.windowCounts < 100 →
        (t.pos p).gauge.timeToSplice = 65535 ∧ (t.pos p).gauge.flagZ = true) ∧
      (100 ≤ 10 * (s.pos p).gauge.windowCounts →
        (t.pos p).gauge.timeToSplice = min 65535 ((s.pos p).gauge.remaining / (10 * (s.pos p).gauge.windowCounts)) ∧
        (t.pos p).gauge.flagZ = false)

/-- A speed window: both speeds; then the call-off, which a due position reports as RAISED, serves with a DELIVER of the selected reel or,
with the list full, with a backlog item, or puts in the Demand Queue; then the urgency test, which reports a DELIVER outstanding at a
short time to splice once and, where the source reacts, makes it and the butt orders in its way URGENT; then the match test, which
starts and stops the match timer in ACCEL and sends MATCHED and ARMED back to ACCEL (R49, R55, R91, R98, R99, R101, R115, R116). A call-off
raised clears the urgency-reported flag and raises CALLOFF with the state it reached, after NOSTOCK where no reel was found; URGENT follows
where a DELIVER or a backlog item then stands at a short time to splice (R32, R98, R99, R101). That
the urgency test acts in FAILED as in every other state is the model's choice (log 44), and so is that a position with a DELIVER in the
backlog gets no second one there (log 39). -/
def Obligations.SpeedWindow : Prop :=
  ∀ (s : State) (p n : Nat) (x : Position) (g : Gauge) (fits called : Prop), 1 ≤ p → p ≤ 8 → x = s.pos p → x.enabled = true →
    g = (x.window n).gauge → (fits ↔ 100 ≤ g.speed ∧
      (max g.standbySpeed g.speed - min g.standbySpeed g.speed) * 1000 ≤ x.params.matchTolerance * g.speed) →
    (called ↔ x.demand ≠ none ∧ x.isWeb = true ∧ s.standbyClear p = true ∧ s.deliverOf p = none ∧ x.callOff.state = .none ∧
      (g.timeToSplice ≤ x.params.leadTime ∨ g.remaining ≤ x.params.callOffLength)) →
    ∃ u : State, exec (.speedWindow p n) s = .next (u.close s false).transmit ∧ (u.pos p).gauge = g ∧
      g.speed = 10 * x.gauge.windowCounts ∧ g.standbySpeed = 10 * n ∧ g.windowCounts = 0 ∧
      g.remaining = x.gauge.remaining ∧ g.estimate = x.gauge.estimate ∧ (∀ k, k ≠ p → u.pos k = s.pos k) ∧
      (u.pos p).outputs = x.outputs ∧ (u.pos p).running = x.running ∧
      (x.sequence = .accel → (u.pos p).sequence = .accel ∧ (fits → (u.pos p).splice.matchMs = some (x.splice.matchMs.getD 0)) ∧
        (¬fits → (u.pos p).splice.matchMs = none)) ∧
      (x.sequence = .matched ∨ x.sequence = .armed → (fits → (u.pos p).sequence = x.sequence) ∧
        (¬fits → (u.pos p).sequence = .accel)) ∧
      (x.sequence ∉ [.accel, .matched, .armed] → (u.pos p).sequence = x.sequence ∧ (u.pos p).splice = x.splice) ∧
      (¬called → (u.pos p).callOff.state = x.callOff.state ∧ (u.pos p).callOff.ordersFull = x.callOff.ordersFull ∧
        u.reels = s.reels ∧ u.demands = s.demands ∧ u.bays = s.bays) ∧
      (∀ d, called → x.demand = some d →
        ((s.handling 7).mode = .report ∨ (s.handling 7).mode = .off → (u.pos p).callOff.state = .raised) ∧
        ((s.handling 7).mode = .auto ∨ (s.handling 7).mode = .both →
          (s.select d.grade d.width = none → (u.pos p).callOff.state = .waitStock ∧
            (s.demandEntry p = none → u.demands = s.demands ++ [⟨p, d.grade, d.width, s.clock.seconds⟩]) ∧
            (s.demandEntry p ≠ none → u.demands = s.demands)) ∧
          (∀ r y, s.select d.grade d.width = some r → s.reel r = some y →
            (s.ordersFull = false → (u.pos p).callOff.state = .ordered ∧ u.reel r = some { y with
              state := .reserved, reservation := some p, tag := some s.nextTag }) ∧
            (s.ordersFull = true → (u.pos p).callOff.state = .waitStock ∧ (u.pos p).callOff.ordersFull = true ∧
              u.reel r = some { y with state := .reserved, reservation := some p } ∧
              (x.params.urgentMargin < g.timeToSplice →
                ((∀ i ∈ s.orders.backlog, i.isDeliveryOf p = false) → u.orders = { s.orders with
                  backlog := s.orders.backlog ++ [.delivery p r .normal] }) ∧
                ((∃ i ∈ s.orders.backlog, i.isDeliveryOf p = true) → u.orders = s.orders)))))) ∧
      (∀ (d : Demand) (c : CallOffState) (full late hurried : Bool) (tag : Nat) (w : State), called → x.demand = some d →
        s.orders.table.wf = true →
        (c, full, tag) = (if (s.handling 7).mode = .report ∨ (s.handling 7).mode = .off then (.raised, false, 0)
          else if s.select d.grade d.width = none then (.waitStock, false, 0)
          else if s.ordersFull = true then (.waitStock, true, 0) else (.ordered, false, s.nextTag)) →
        (late = true ↔ g.timeToSplice ≤ x.params.urgentMargin ∧
          (c = .ordered ∨ full = true ∨ ∃ r q, .delivery p r q ∈ s.orders.backlog)) →
        (hurried = true ↔ late = true ∧ ((s.handling 6).mode = .auto ∨ (s.handling 6).mode = .both)) →
        w = (if c = .waitStock ∧ full = false then s.raise (.noStock p d.grade d.width) else s).raise
          (.callOff p d.grade d.width g.remaining g.timeToSplice c full tag) →
        (u.pos p).callOff = ⟨c, full, late⟩ ∧
        u.notices = (if late = true then w.raise (.urgent p g.timeToSplice tag) else w).notices ∧
        (c = .raised → u.reels = s.reels ∧ u.demands = s.demands) ∧ (c = .waitStock → full = false → u.reels = s.reels) ∧
        (∀ r, c ≠ .raised → s.select d.grade d.width = some r → ∀ k, k ≠ r → u.reel k = s.reel k) ∧
        (∀ r, c = .ordered → s.select d.grade d.width = some r → u.order tag = some { s.newOrder
          ⟨.deliver, .normal, some r, s.bayPlace r, .arm p none, some p, none⟩ with
          priority := if hurried = true then .urgent else .normal }) ∧
        (∀ t, (c = .ordered → t ≠ tag) → u.order t = (s.order t).map fun o => { o with
          priority := if hurried = true ∧ o.position = some p ∧ o.progress = 1 ∧ (o.kind = .ret ∨ o.kind = .clear) then .urgent
            else o.priority })) ∧
      (∀ due : Prop, ¬called → s.orders.table.wf = true →
        (due ↔ x.isWeb = true ∧ g.timeToSplice ≤ x.params.urgentMargin ∧ x.callOff.urgencyReported = false ∧
          (s.deliverOf p ≠ none ∨ ∃ r q, .delivery p r q ∈ s.orders.backlog)) →
        (¬due → u.orders = s.orders ∧ u.notices = s.notices ∧ (u.pos p).callOff = x.callOff) ∧
        (due → (u.pos p).callOff = { x.callOff with urgencyReported := true } ∧
          u.notices = (s.raise (.urgent p g.timeToSplice ((s.deliverOf p).getD 0))).notices ∧
          ((s.handling 6).mode = .report ∨ (s.handling 6).mode = .off → u.orders = s.orders) ∧
          ((s.handling 6).mode = .auto ∨ (s.handling 6).mode = .both →
            (∀ t o, s.order t = some o → u.order t = some { o with
              priority := if s.deliverOf p = some t ∨ (o.position = some p ∧ o.progress = 1 ∧ (o.kind = .ret ∨ o.kind = .clear))
                then .urgent else o.priority }) ∧
            u.orders.backlog = s.orders.backlog.map (fun
              | .delivery k r q => .delivery k r (if k = p then .urgent else q)
              | .disposal k a c q => .disposal k a c (if k = p then .urgent else q)))))

/-- A web count of a WEB position: L_rem falls by one and the counts since the mark and of the window rise; READY, MATCHED, ARMED, FIRING
and CONFIRM take the transitions their lengths then call for; and a countdown that runs out before FIRING is a late splice
(R91, R93, R112, R113, R117, R118, R119, R122). That SPLICE_MISSED names the state before the event's transitions is the model's
choice (log 20). -/
def Obligations.WebCount : Prop :=
  ∀ (s : State) (p : Nat) (x : Position), 1 ≤ p → p ≤ 8 → x = s.pos p → x.enabled = true → x.isWeb = true →
    ∃ t : State, exec (.webCount p) s = .next t.transmit ∧ (∀ k, k ≠ p → t.pos k = s.pos k) ∧ t.reels = s.reels ∧
      t.orders = s.orders ∧ t.bays = s.bays ∧ t.vehicles = s.vehicles ∧ t.lines = s.lines ∧ t.webs = s.webs ∧
      t.link = s.link ∧ t.clock = s.clock ∧ (t.pos p).running = x.running ∧ (t.pos p).params = x.params ∧
      (t.pos p).gauge = { x.gauge with
        windowCounts := x.gauge.windowCounts + 1, remaining := x.gauge.remaining - 1
        deltaL := min 65535 (x.gauge.deltaL + 1) } ∧
      (x.sequence ∈ [.noStandby, .standby, .accel, .failed] → (t.pos p).sequence = x.sequence) ∧
      (x.sequence = .ready → (s.mayDrive p (x.gauge.remaining - 1) = true → (t.pos p).sequence = .accel ∧
          (t.pos p).outputs.accel x.standbyArm = true ∧ (t.pos p).splice.matchMs = none) ∧
        (s.mayDrive p (x.gauge.remaining - 1) = false → (t.pos p).sequence = .ready)) ∧
      (x.sequence = .matched → (x.params.armLength < x.gauge.remaining - 1 → (t.pos p).sequence = .matched) ∧
        (x.gauge.remaining - 1 ≤ x.params.armLength → x.params.fireLength < x.gauge.remaining - 1 →
          (t.pos p).sequence = .armed) ∧
        (x.gauge.remaining - 1 ≤ x.params.armLength → x.gauge.remaining - 1 ≤ x.params.fireLength →
          (t.pos p).sequence = .firing)) ∧
      (x.sequence = .armed → (x.params.fireLength < x.gauge.remaining - 1 → (t.pos p).sequence = .armed) ∧
        (x.gauge.remaining - 1 ≤ x.params.fireLength → (t.pos p).sequence = .firing ∧ (t.pos p).outputs.paste = true ∧
          (t.pos p).splice.pasteMs = some 0 ∧ (t.pos p).splice.sincePaste = 0 ∧ (t.pos p).splice.latch = false ∧
          ((t.pos p).splice.cutStarted = decide (x.params.pasteToCut = 0)))) ∧
      (x.sequence = .firing → (t.pos p).sequence = .firing ∧
        (t.pos p).splice.sincePaste = min 65535 (x.splice.sincePaste + 1) ∧
        (x.splice.cutStarted = false → x.params.pasteToCut ≤ min 65535 (x.splice.sincePaste + 1) →
          (t.pos p).outputs.cut = true ∧ (t.pos p).splice.cutMs = some 0 ∧ (t.pos p).splice.cutStarted = true) ∧
        (x.splice.cutStarted = true ∨ min 65535 (x.splice.sincePaste + 1) < x.params.pasteToCut →
          (t.pos p).outputs = x.outputs)) ∧
      (x.sequence = .confirm → (min 65535 (x.splice.sinceConfirm + 1) < x.params.confirmLength →
          (t.pos p).sequence = .confirm ∧ (t.pos p).splice.sinceConfirm = min 65535 (x.splice.sinceConfirm + 1)) ∧
        (x.params.confirmLength ≤ min 65535 (x.splice.sinceConfirm + 1) → (t.pos p).sequence = .failed ∧
          (t.pos p).splice.cause = some .noConfirm ∧ (t.pos p).outputs = ⟨false, false, false, false, true⟩)) ∧
      (x.gauge.remaining = 1 → x.sequence ∈ [.noStandby, .standby, .ready, .accel, .matched, .armed] →
        x.splice.missed = false → (t.pos p).outputs.webEnd = true ∧ (t.pos p).splice.missed = true ∧
        t.notices = (s.raise (.spliceMissed p x.runningReel x.sequence x.standbyReel)).notices)

/-- A revolution mark of a WEB position: the first after a measurement start only opens the count; every other measures the diameter, and
the sample is rejected, confirms or updates the estimate; the fourth rejection in a row reseeds it and raises DIAMETER with the diameter
before and after. L_rem is recomputed from the diameter, a countdown that this brings to 0 before FIRING is a late splice, and READY,
MATCHED and ARMED take the transitions the new length calls for (R93, R94, R95, R96, R112, R113, R117, R122). That SPLICE_MISSED follows
DIAMETER and names the state before the transitions is the model's choice (log 20). -/
def Obligations.RevolutionMark : Prop :=
  ∀ (s : State) (p e m : Nat) (x : Position) (g : Gauge) (clamp : Nat → Nat) (length : Nat → Nat), 1 ≤ p → p ≤ 8 →
    x = s.pos p → g = x.gauge → x.isWeb = true → g.estimate = some e → m = (g.deltaL * 160000 + 15708) / 31416 →
    (∀ k, clamp k = max (16 * x.params.coreDiameter) (min k 24000)) →
    (∀ d, length d = if d ≤ x.params.spliceDiameter then 0 else
      (d * d - x.params.spliceDiameter * x.params.spliceDiameter) * 7854 / (10 * g.caliper)) →
    ∃ t : State, exec (.revolutionMark p) s = .next t.transmit ∧ (∀ k, k ≠ p → t.pos k = s.pos k) ∧ (t.pos p).mark = ⟨true, 0⟩ ∧
      t.reels = s.reels ∧ t.orders = s.orders ∧ t.lines = s.lines ∧ t.webs = s.webs ∧
      (∀ (reseeds late : Bool) (w : State),
        (reseeds = true ↔ g.markPending = false ∧ (e + 32 < m ∨ (m ≤ e ∧ e < (e - m) * 8)) ∧ 3 ≤ g.rejections) →
        (late = true ↔ g.remaining ≠ 0 ∧ (t.pos p).gauge.remaining = 0 ∧ x.splice.missed = false ∧
          x.sequence ∈ [.noStandby, .standby, .ready, .accel, .matched, .armed]) →
        w = (if reseeds = true then s.raise (.diameter p x.runningReel ((e + 8) / 16) ((clamp m + 8) / 16)) else s) →
        t.notices = (if late = true then w.raise (.spliceMissed p x.runningReel x.sequence x.standbyReel) else w).notices ∧
        (t.pos p).outputs.webEnd = (x.outputs.webEnd || late) ∧ (t.pos p).splice.missed = (x.splice.missed || late)) ∧
      (x.sequence ∉ [.ready, .matched, .armed] → (t.pos p).sequence = x.sequence) ∧
      (x.sequence = .ready → (s.mayDrive p (t.pos p).gauge.remaining = true → (t.pos p).sequence = .accel ∧
          (t.pos p).outputs.accel x.standbyArm = true ∧ (t.pos p).splice.matchMs = none) ∧
        (s.mayDrive p (t.pos p).gauge.remaining = false → (t.pos p).sequence = .ready)) ∧
      (x.sequence = .matched → (x.params.armLength < (t.pos p).gauge.remaining → (t.pos p).sequence = .matched) ∧
        ((t.pos p).gauge.remaining ≤ x.params.armLength → x.params.fireLength < (t.pos p).gauge.remaining →
          (t.pos p).sequence = .armed) ∧
        ((t.pos p).gauge.remaining ≤ x.params.armLength → (t.pos p).gauge.remaining ≤ x.params.fireLength →
          (t.pos p).sequence = .firing)) ∧
      (x.sequence = .armed → (x.params.fireLength < (t.pos p).gauge.remaining → (t.pos p).sequence = .armed) ∧
        ((t.pos p).gauge.remaining ≤ x.params.fireLength → (t.pos p).sequence = .firing ∧ (t.pos p).outputs.paste = true ∧
          (t.pos p).splice.pasteMs = some 0)) ∧
      (g.markPending = true → (t.pos p).gauge = { g with markPending := false, deltaL := 0 }) ∧
      (g.markPending = false →
        (e < m → m ≤ e + 32 → (t.pos p).gauge = { g with deltaL := 0, rejections := 0, flagH := false }) ∧
        (m ≤ e → (e - m) * 8 ≤ e → (t.pos p).gauge = { g with
          deltaL := 0, rejections := 0, flagH := false, estimate := some (clamp (e - (e - m) / 4))
          flagC := decide (clamp (e - (e - m) / 4) ≠ e - (e - m) / 4)
          remaining := length ((clamp (e - (e - m) / 4) + 8) / 16) }) ∧
        ((e + 32 < m ∨ (m ≤ e ∧ e < (e - m) * 8)) →
          (g.rejections < 3 → (t.pos p).gauge = { g with
            deltaL := 0, rejections := g.rejections + 1, flagH := true }) ∧
          (3 ≤ g.rejections → (t.pos p).gauge = { g with
            deltaL := 0, rejections := 0, flagH := false, flagS := true, estimate := some (clamp m)
            flagC := decide (clamp m ≠ m), remaining := length ((clamp m + 8) / 16) })))

/-! ### The flying splice -/

/-- The timers of a splice: the match hold makes ACCEL MATCHED (and ARMED or FIRING where the lengths already call for it), the end of the
later of the paste and cut pulses enters CONFIRM, a firing without a cut fails with NO_CUT, and a confirm window without an edge
fails with NO_CONFIRM, both raising SPLICE_FAILED (R115, R117, R118, R119, R121). -/
def Obligations.SpliceTimers : Prop :=
  ∀ (s : State) (p : Nat) (x : Position), 1 ≤ p → p ≤ 8 → x = s.pos p → x.enabled = true →
    (x.sequence = .accel → x.splice.matchMs.isSome = true → ∀ y : Position,
      y = { x with sequence := .matched, splice := { x.splice with matchMs := none } } →
      (x.params.armLength < x.gauge.remaining → exec (.matchHoldExpiry p) s = .next (s.setPos p y).transmit) ∧
      (x.gauge.remaining ≤ x.params.armLength → x.params.fireLength < x.gauge.remaining →
        exec (.matchHoldExpiry p) s = .next (s.setPos p { y with sequence := .armed }).transmit) ∧
      (x.gauge.remaining ≤ x.params.armLength → x.gauge.remaining ≤ x.params.fireLength →
        exec (.matchHoldExpiry p) s = .next (s.setPos p y.fired).transmit)) ∧
    (x.sequence = .firing → x.splice.pasteMs.isSome = true → ∀ y : Position,
      y = { x with outputs := { x.outputs with paste := false }, splice := { x.splice with pasteMs := none } } →
      (x.splice.cutStarted = false ∨ x.splice.cutMs ≠ none →
        exec (.pasteEnd p) s = .next ((s.setPos p y).close s false).transmit) ∧
      (x.splice.cutStarted = true → x.splice.cutMs = none → x.splice.latch = false →
        exec (.pasteEnd p) s = .next ((s.setPos p y.confirming).close s false).transmit) ∧
      (x.splice.cutStarted = true → x.splice.cutMs = none → x.splice.latch = true →
        exec (.pasteEnd p) s = .next (((s.setPos p y.confirming).swap p .confirm).close s false).transmit)) ∧
    (x.sequence = .firing → x.splice.cutMs.isSome = true → ∀ y : Position,
      y = { x with outputs := { x.outputs with cut := false }, splice := { x.splice with cutMs := none } } →
      (x.splice.pasteMs ≠ none → exec (.cutEnd p) s = .next ((s.setPos p y).close s false).transmit) ∧
      (x.splice.pasteMs = none → x.splice.latch = false →
        exec (.cutEnd p) s = .next ((s.setPos p y.confirming).close s false).transmit) ∧
      (x.splice.pasteMs = none → x.splice.latch = true →
        exec (.cutEnd p) s = .next (((s.setPos p y.confirming).swap p .confirm).close s false).transmit)) ∧
    (x.sequence = .firing → x.splice.cutStarted = false →
      exec (.firingTimeout p) s = .next ((s.setPos p (x.failedBy .noCut)).raise
        (.spliceFailed p .noCut x.runningReel x.standbyReel x.gauge.remaining)).transmit) ∧
    (x.sequence = .confirm →
      exec (.confirmWindowExpiry p) s = .next ((s.setPos p (x.failedBy .noConfirm)).raise
        (.spliceFailed p .noConfirm x.runningReel x.standbyReel x.gauge.remaining)).transmit)

/-- A confirm edge in FIRING is latched; in CONFIRM it completes the splice: the old reel is a BUTT at the reported diameter, the other arm
runs, its gauge starts from its record, its accelerate outputs are off, the splice count rises, the web opens SPLICE linked to the run's
new record, and SPLICEFIX of the standby arm does the same (R6, R7, R92, R120, R128, R138, R148, R160). The 64th record is the
aggregate, into which every later splice goes (R161). The butt's paper goes into an ACTIVE run (R103, R159); the BUTT source in AUTO and
BOTH makes its RETURN or, below the return diameter, its CLEAR, or a backlog item with the list full, or reports NO_BAY (R49, R102). BUTT is
raised with the disposal reached, with the order's tag for ORDERED, and SPLICE_DONE after it (R102, R120, R185). Three clauses are the model's
choice: that an arm with a disposal in the backlog gets no second one there (log 39); that the BUTT notice names the butt paper outside an
ACTIVE run too (log 27); and that the SPLICE_MISSED of a new reel whose L_rem starts at 0 (R122) comes last and names NO_STANDBY
(log 20). -/
def Obligations.SwapOfReels : Prop :=
  (∀ (s : State) (p : Nat), 1 ≤ p → p ≤ 8 →
    ((s.pos p).sequence = .firing → exec (.confirmEdge p) s = .next ((s.setPos p { s.pos p with
      confirm := ⟨true, 0⟩, splice := { (s.pos p).splice with latch := true } }).close s false).transmit) ∧
    ((s.pos p).sequence = .confirm → exec (.confirmEdge p) s = .next (((s.setPos p { s.pos p with
      confirm := ⟨true, 0⟩ }).swap p .confirm).close s false).transmit) ∧
    ((s.pos p).sequence ∉ [.firing, .confirm] → exec (.confirmEdge p) s = .next ((s.setPos p { s.pos p with
      confirm := ⟨true, 0⟩ }).close s false).transmit)) ∧
  (∀ (s : State) (p old new d : Nat) (a : Arm) (by_ : SettledBy) (x : Position) (y z : Reel) (run : Run), x = s.pos p →
    x.running = some a → x.arm a = some old → x.arm (otherArm a) = some new → old ≠ new → s.reel old = some y →
    s.reel new = some z → d = x.gauge.diameter → run = (s.line (lineOfPosition p)).run →
    (∃ y', (s.swap p by_).reel old = some y' ∧ y'.state = .butt ∧ y'.diameter = d ∧ y'.origin = .returned) ∧
    (s.swap p by_).reel new = some { z with state := .running } ∧ ((s.swap p by_).pos p).running = some (otherArm a) ∧
    ((s.swap p by_).pos p).sequence = .noStandby ∧ ((s.swap p by_).pos p).outputs.accelA = false ∧
    ((s.swap p by_).pos p).outputs.accelB = false ∧ ((s.swap p by_).pos p).splice.latch = false ∧
    ((s.swap p by_).pos p).splice.count = min (x.splice.count + 1) counterMax ∧
    (∀ est rem, est = max (16 * x.params.coreDiameter) (min (16 * z.diameter) 24000) →
      rem = (if (est + 8) / 16 ≤ x.params.spliceDiameter then 0
        else (((est + 8) / 16) * ((est + 8) / 16) - x.params.spliceDiameter * x.params.spliceDiameter) * 7854 / (10 * z.caliper)) →
      ((s.swap p by_).pos p).gauge = { x.gauge with
        estimate := some est, remaining := rem, rejections := 0, flagH := false, flagC := decide (est ≠ 16 * z.diameter)
        flagS := false, flagZ := false, markPending := true, deltaL := 0, caliper := z.caliper } ∧
      ((s.swap p by_).pos p).outputs.webEnd = decide (rem = 0) ∧ ((s.swap p by_).pos p).splice.missed = decide (rem = 0) ∧
      ∃ status tag, ((s.swap p by_).pos p).disposal a = some status ∧
        (status = .ordered → ∃ y', (s.swap p by_).reel old = some y' ∧ y'.tag = some tag) ∧ (status ≠ .ordered → tag = 0) ∧
        ∀ done : State, done = (s.raise (.butt p a old d
            (if x.params.returnDiameter ≤ d ∨ d ≤ x.params.coreDiameter then 0
              else (d * d - x.params.coreDiameter * x.params.coreDiameter) * 7854 / (10 * y.caliper)) status tag)).raise
            (.spliceDone p old d new z.diameter by_) →
          (s.swap p by_).notices =
            (if rem = 0 then done.raise (.spliceMissed p new .noStandby old) else done).notices) ∧
    (run.state = .active → (s.swap p by_).web p = (s.web p).opened .splice (s.line (lineOfPosition p)).spliceSlot
        (some (min (run.splices.length + 1) 64)) ∧
      (run.splices.length < 63 → ((s.swap p by_).line (lineOfPosition p)).run.splices =
        run.splices ++ [⟨p, old, new, s.clock.seconds, run.gross, 0, by_, 1⟩]) ∧
      (run.splices.length = 63 → ((s.swap p by_).line (lineOfPosition p)).run.splices =
        run.splices ++ [⟨0, 0, 0, s.clock.seconds, run.gross, 0, by_, 1⟩]) ∧
      (∀ rs r, run.splices = rs ++ [r] → rs.length = 63 → ((s.swap p by_).line (lineOfPosition p)).run.splices =
        rs ++ [{ r with
          splices := min (r.splices + 1) counterMax, time := s.clock.seconds, gross := run.gross, settledBy := by_ }]) ∧
      ((s.swap p by_).line (lineOfPosition p)).run.buttPaper = min counterMax (run.buttPaper +
        if x.params.returnDiameter ≤ d ∨ d ≤ x.params.coreDiameter then 0
        else (d * d - x.params.coreDiameter * x.params.coreDiameter) * 7854 / (10 * y.caliper))) ∧
    (run.state ≠ .active → (s.swap p by_).web p = (s.web p).opened .splice (s.line (lineOfPosition p)).spliceSlot none ∧
      ((s.swap p by_).line (lineOfPosition p)).run = run) ∧
    ButtAnswered s (s.swap p by_) p a old d y (if x.params.returnDiameter ≤ d then .ret else .clear))

/-- PREPARED, SPLICENOW and SPLICEFIX: a STAGED reel is PREPARED and a WEB position in STANDBY goes to READY, and on to ACCEL when due;
MATCHED goes through ARMED into FIRING; a FAILED position keeps its old web in its resting state, and with a PREPARED reel goes on to ACCEL
when due, or takes the swap (R90, R112, R113, R126, R127, R128). -/
def Obligations.SpliceRequests : Prop :=
  ∀ (s : State) (tag p arm : Nat) (a : Arm) (x : Position), s.takes = true → 1 ≤ p → p ≤ 8 → x = s.pos p → x.enabled = true →
    armOf arm = some a →
    (∀ r y, x.arm a = some r → s.reel r = some y → y.state = .staged → x.running ≠ some a → ∃ t : State,
      answered (.prepared tag p arm) s 0x2F tag (be4 r ++ be1 (t.pos p).sequence.code) t ∧
      t.reel r = some { y with state := .prepared } ∧ (∀ k, k ≠ r → t.reel k = s.reel k) ∧
      (∀ k, k ≠ p → t.pos k = s.pos k) ∧ t.orders = s.orders ∧ t.notices = s.notices ∧
      (x.isWeb = true → x.sequence = .standby → s.mayDrive p x.gauge.remaining = false → (t.pos p).sequence = .ready) ∧
      (x.isWeb = true → x.sequence = .standby → s.mayDrive p x.gauge.remaining = true → (t.pos p).sequence = .accel ∧
        (t.pos p).outputs.accel x.standbyArm = true) ∧
      (x.isWeb = false ∨ x.sequence ≠ .standby → t.pos p = x)) ∧
    (s.armState p a ≠ some .staged ∨ x.running = some a → refusedWith (.prepared tag p arm) s 0x2F tag 4) ∧
    (x.sequence = .matched → answered (.splicenow tag p) s 0x30 tag (be4 x.gauge.remaining) (s.setPos p x.fired)) ∧
    (x.sequence ≠ .matched → refusedWith (.splicenow tag p) s 0x30 tag 4) ∧
    (x.sequence ≠ .failed → refusedWith (.splicefix tag p arm) s 0x31 tag 4) ∧
    (x.sequence = .failed → x.running = some a → ∃ t : State,
      answered (.splicefix tag p arm) s 0x31 tag (be1 (armCode x.running) ++ be1 (t.pos p).sequence.code) t ∧
      (t.pos p).running = some a ∧ (t.pos p).splice.cause = none ∧ t.reels = s.reels ∧ t.webs = s.webs ∧ t.orders = s.orders ∧
      t.notices = s.notices ∧ (∀ k, k ≠ p → t.pos k = s.pos k) ∧ (t.pos p).gauge = x.gauge ∧ (t.pos p).callOff = x.callOff ∧
      (t.pos p).outputs.webEnd = x.outputs.webEnd ∧
      ((t.pos p).sequence ≠ .accel → t.pos p = { x with
        sequence := (t.pos p).sequence, splice := { x.splice with cause := none } }) ∧
      (s.armState p x.standbyArm = some .prepared → s.mayDrive p x.gauge.remaining = true → (t.pos p).sequence = .accel ∧
        (t.pos p).outputs.accel x.standbyArm = true ∧ (t.pos p).splice.matchMs = none) ∧
      (s.armState p x.standbyArm = some .staged → (t.pos p).sequence = .standby) ∧
      (s.armState p x.standbyArm = some .prepared → s.mayDrive p x.gauge.remaining = false →
        (t.pos p).sequence = .ready) ∧
      (s.armState p x.standbyArm ∉ [some .staged, some .prepared] → (t.pos p).sequence = .noStandby)) ∧
    (x.sequence = .failed → x.running = some (otherArm a) → ∃ (u : State) (y : Position), y = (u.close s false).pos p ∧
      answered (.splicefix tag p arm) s 0x31 tag (be1 (armCode y.running) ++ be1 y.sequence.code ++ be2 x.gauge.diameter ++
        be1 (optCode Disposal.code ((u.pos p).disposal (otherArm a)))) (u.close s false) ∧
      u = (s.setPos p { x with splice := { x.splice with cause := none } }).swap p .fix)

/-! ### Position requests -/

/-- POSCFG stores the parameters clamped to their ranges and recomputes L_rem of a WEB position, after checks of the clamped values in
order; DEMAND sets or clears the demand, rewriting a waiting entry in its place or withdrawing the call-off, with a reservation
that has no order released; an outstanding DELIVER goes on (R36, R88, R96, R104, R105). Two points of DEMAND are the model's choice: its
reply always carries a queue place, 0 for a demand that does not wait (log 15); and a demand equal to the one set withdraws the call-off
and releases the reservation as any other does (log 23). -/
def Obligations.PoscfgAndDemand : Prop :=
  (∀ (s : State) (tag p : Nat) (raw q : Params) (x : Position), s.takes = true → 1 ≤ p → p ≤ 8 → x = s.pos p →
    x.enabled = true → q = clampParams raw →
    (x.sequence ∉ [.noWeb, .noStandby, .standby, .ready] → refusedWith (.poscfg tag p raw) s 0x28 tag 4) ∧
    (x.sequence ∈ [.noWeb, .noStandby, .standby, .ready] →
      (∀ n, ((n = 1 ∧ q.spliceDiameter < q.coreDiameter + 20) ∨
          (n = 2 ∧ q.coreDiameter + 20 ≤ q.spliceDiameter ∧ q.armLength < q.fireLength) ∨
          (n = 3 ∧ q.coreDiameter + 20 ≤ q.spliceDiameter ∧ q.fireLength ≤ q.armLength ∧ q.accelLength < q.armLength) ∨
          (n = 4 ∧ q.coreDiameter + 20 ≤ q.spliceDiameter ∧ q.fireLength ≤ q.armLength ∧ q.armLength ≤ q.accelLength ∧
            q.leadTime < q.urgentMargin) ∨
          (n = 5 ∧ q.coreDiameter + 20 ≤ q.spliceDiameter ∧ q.fireLength ≤ q.armLength ∧ q.armLength ≤ q.accelLength ∧
            q.urgentMargin ≤ q.leadTime ∧ x.isWeb = true ∧ ∃ e, x.gauge.estimate = some e ∧ e < 16 * q.coreDiameter)) →
        exec (.poscfg tag p raw) s = .next (s.pushReply ⟨0xA8, tag, be1 6 ++ (paramBytes q ++ be1 n)⟩).transmit) ∧
      (q.coreDiameter + 20 ≤ q.spliceDiameter → q.fireLength ≤ q.armLength → q.armLength ≤ q.accelLength →
        q.urgentMargin ≤ q.leadTime → (∀ e, x.isWeb = true → x.gauge.estimate = some e → 16 * q.coreDiameter ≤ e) →
        ∃ t : State, answered (.poscfg tag p raw) s 0x28 tag (paramBytes q) t ∧ (t.pos p).params = q ∧
          (∀ k, k ≠ p → t.pos k = s.pos k) ∧ t.reels = s.reels ∧ t.orders = s.orders ∧
          (x.isWeb = true → (t.pos p).gauge.remaining = paperLength x.gauge.diameter q.spliceDiameter x.gauge.caliper) ∧
          (x.isWeb = false → (t.pos p).gauge = x.gauge)))) ∧
  (∀ (s : State) (tag p g w : Nat) (raw : Params), s.takes = true →
    (p = 0 ∨ 8 < p → refusedWith (.poscfg tag p raw) s 0x28 tag 2 ∧ refusedWith (.demand tag p g w) s 0x29 tag 2) ∧
    (1 ≤ p → p ≤ 8 → (s.pos p).enabled = false →
      refusedWith (.poscfg tag p raw) s 0x28 tag 4 ∧ refusedWith (.demand tag p g w) s 0x29 tag 4)) ∧
  (∀ raw : Params, clampParams raw = {
    spliceDiameter := max 100 (min raw.spliceDiameter 400), coreDiameter := max 70 (min raw.coreDiameter 150)
    returnDiameter := max (max 100 (min raw.spliceDiameter 400)) (min raw.returnDiameter 1500)
    accelLength := max 50000 (min raw.accelLength 2000000), armLength := max 5000 (min raw.armLength 2000000)
    fireLength := max 500 (min raw.fireLength 50000), pasteToCut := min raw.pasteToCut 5000
    confirmLength := max 500 (min raw.confirmLength 20000), pastePulse := max 20 (min raw.pastePulse 500)
    cutPulse := max 20 (min raw.cutPulse 500), matchTolerance := max 1 (min raw.matchTolerance 50)
    matchHold := max 200 (min raw.matchHold 5000), leadTime := max 60 (min raw.leadTime 3600)
    callOffLength := max 100000 (min raw.callOffLength 20000000), urgentMargin := max 30 (min raw.urgentMargin 3600)
    tensionSetpoint := max 100 (min raw.tensionSetpoint 4000) }) ∧
  (∀ (s : State) (tag p g w : Nat) (d : Option Demand), s.takes = true → 1 ≤ p → p ≤ 8 → (s.pos p).enabled = true →
    (1 ≤ g ∧ g ≤ 15 ∧ 1 ≤ w ∧ w ≤ 4 ∧ d = some ⟨g, w⟩) ∨ (g = 0 ∧ w = 0 ∧ d = none) →
    ∃ u t : State, t = u.close s false ∧ answered (.demand tag p g w) s 0x29 tag
        (be1 g ++ be1 w ++ be1 (t.pos p).callOff.state.code ++ flagByte (t.pos p).callOff.ordersFull ++ be1 (t.queuePlace p)) t ∧
      (u.pos p).demand = d ∧ (u.pos p).core = { (s.pos p).core with demand := d } ∧ (∀ k, k ≠ p → u.pos k = s.pos k) ∧
      (s.deliverOf p ≠ none → (u.pos p).callOff = (s.pos p).callOff ∧ u.reels = s.reels ∧ u.demands = s.demands ∧
        u.orders = s.orders) ∧
      (∀ r y, s.deliverOf p = none → s.openReservation p = some r → s.reel r = some y →
        u.reel r = some { y with state := .stored, reservation := none, tag := none } ∧
        (∀ k, k ≠ r → u.reel k = s.reel k) ∧ (u.pos p).callOff.state = .none ∧
        u.orders = { s.orders with backlog := s.orders.backlog.filter fun i => !(i.isDeliveryOf p) } ∧
        u.demands = s.demands.filter fun e => decide (e.position ≠ p)) ∧
      (s.deliverOf p = none → s.openReservation p = none → u.reels = s.reels ∧ u.orders = s.orders ∧
        (d ≠ none → (u.pos p).callOff = (s.pos p).callOff ∧
          u.demands = s.demands.map fun e => if e.position = p then { e with grade := g, width := w } else e) ∧
        (d = none → (u.pos p).callOff.state = .none ∧
          u.demands = s.demands.filter fun e => decide (e.position ≠ p)))) ∧
  (∀ (s : State) (tag p g w : Nat), s.takes = true → 1 ≤ p → p ≤ 8 → (s.pos p).enabled = true →
    (g = 0 ∧ w ≠ 0) ∨ 15 < g ∨ (g ≠ 0 ∧ w = 0) ∨ 4 < w → refusedWith (.demand tag p g w) s 0x29 tag 2)

/-- THREAD starts a web on an arm with a STAGED or PREPARED reel: the reel is RUNNING, its gauge starts from its record, the sequence takes
the resting state of the other arm, and the web is STEADY with a blank record; it is refused while WEB or while the press runs
(R90, R92, R106, R134, R146). -/
def Obligations.ThreadStartsAWeb : Prop :=
  ∀ (s : State) (tag p arm r : Nat) (a : Arm) (x : Position) (y : Reel), s.takes = true → 1 ≤ p → p ≤ 8 → x = s.pos p →
    x.enabled = true → armOf arm = some a → x.arm a = some r → x.arm (otherArm a) ≠ some r → s.reel r = some y →
    (x.running ≠ none ∨ (s.line (lineOfPosition p)).press.level = true → refusedWith (.thread tag p arm) s 0x2A tag 4) ∧
    (x.running = none → (s.line (lineOfPosition p)).press.level = false → y.state ∉ [.staged, .prepared] →
      refusedWith (.thread tag p arm) s 0x2A tag 4) ∧
    (x.running = none → (s.line (lineOfPosition p)).press.level = false → y.state ∈ [.staged, .prepared] →
      ∃ (data : Bytes) (u : State), answered (.thread tag p arm) s 0x2A tag data (u.close s false) ∧
        u.reel r = some { y with state := .running } ∧ (u.pos p).running = some a ∧
        (u.pos p).gauge.estimate = some (max (16 * x.params.coreDiameter) (min (16 * y.diameter) 24000)) ∧
        (u.pos p).gauge.caliper = y.caliper ∧ (u.pos p).gauge.markPending = true ∧ (u.pos p).gauge.rejections = 0 ∧
        u.web p = { Web.blank with kind := .steady } ∧
        (s.armState p (otherArm a) = some .staged → (u.pos p).sequence = .standby) ∧
        (s.armState p (otherArm a) = some .prepared → (u.pos p).sequence = .ready) ∧
        (s.armState p (otherArm a) ∉ [some .staged, some .prepared] → (u.pos p).sequence = .noStandby) ∧
        (∀ k, k ≠ p → u.pos k = s.pos k ∧ u.web k = s.web k) ∧ u.orders = s.orders ∧ u.lines = s.lines)

/-- LOADREEL places a known STORED reel or a new one STAGED on an empty arm, and ends the call-off of a WEB position; UNLOAD stops a web:
its gauge is at the NO_WEB readings, its call-off ended with its queue entry, its reservation and its backlog item, its reel a BUTT at the
reported diameter, for which the BUTT source asks a RETURN or a CLEAR as at the swap, and BUTT is raised with the disposal reached; BUTTOFF
deletes a butt without an order and frees its arm (R9, R10, R30, R49, R90, R91, R100, R102, R103, R107, R108, R109). Four clauses are the
model's choice: that mark pending, the delta-L count and the caliper stand at false, 0 and 0 in NO_WEB (log 21); the layout of UNLOAD's reply
(log 15); that reply and notice name the butt paper outside an ACTIVE run too (log 27); and that an arm with a disposal in the backlog gets
no second one there (log 39). -/
def Obligations.LoadUnloadButtoff : Prop :=
  (∀ (s : State) (tag p arm : Nat) (a : Arm) (d : ReelData) (x : Position), s.takes = true → 1 ≤ p → p ≤ 8 → x = s.pos p →
    x.enabled = true → armOf arm = some a → reelIdOk d.id = true →
    (x.arm a ≠ none → ((s.reel d.id).isSome = true ∨ reelDataOk d = true) →
      refusedWith (.loadreel tag p arm d) s 0x2B tag 4) ∧
    (x.arm a = none → s.reel d.id = none → reelDataOk d = false → refusedWith (.loadreel tag p arm d) s 0x2B tag 2) ∧
    (x.arm a = none → s.reel d.id = none → reelDataOk d = true → 512 ≤ s.reels.count →
      refusedWith (.loadreel tag p arm d) s 0x2B tag 5) ∧
    (∀ y, x.arm a = none → s.reel d.id = some y → y.state ≠ .stored ∨ y.tag ≠ none →
      refusedWith (.loadreel tag p arm d) s 0x2B tag 4) ∧
    (x.arm a = none → s.reel d.id = none → reelDataOk d = true → s.reels.count < 512 →
      ∃ (data : Bytes) (u : State), answered (.loadreel tag p arm d) s 0x2B tag (be4 d.id ++ data) (u.close s false) ∧
        u.reel d.id = some ⟨d.grade, d.width, d.diameter, d.caliper, d.mass, s.clock.seconds,
          min (s.clock.seconds + 60 * s.restMinutes d.grade) counterMax, .intake, .staged, .onArm p a, none, none, none⟩ ∧
        (u.pos p).arm a = some d.id ∧ (x.isWeb = true → x.sequence = .noStandby → (u.pos p).sequence = .standby) ∧
        (x.isWeb = false ∨ x.sequence ≠ .noStandby → (u.pos p).sequence = x.sequence) ∧
        (x.isWeb = true → (u.pos p).callOff.state = .none) ∧ (x.isWeb = false → (u.pos p).callOff = x.callOff) ∧
        (∀ k, k ≠ p → u.pos k = s.pos k) ∧ u.bays = s.bays) ∧
    (∀ y, x.arm a = none → s.reel d.id = some y → y.state = .stored → y.tag = none → s.canonical = true →
      ∃ (data : Bytes) (u : State), answered (.loadreel tag p arm d) s 0x2B tag (be4 d.id ++ data) (u.close s false) ∧
        u.reel d.id = some { y with state := .staged, location := .onArm p a } ∧ (u.pos p).arm a = some d.id ∧
        (x.isWeb = true → x.sequence = .noStandby → (u.pos p).sequence = .standby) ∧
        (x.isWeb = false ∨ x.sequence ≠ .noStandby → (u.pos p).sequence = x.sequence) ∧
        (x.isWeb = true → (u.pos p).callOff.state = .none) ∧ (∀ k, k ≠ p → u.pos k = s.pos k) ∧
        (∀ b l z, y.location = .inBay b l → s.bay b = some z →
          u.bay b = some { z with stack := z.stack.filter fun k => decide (k ≠ d.id) }))) ∧
  (∀ (s : State) (tag p r : Nat) (a : Arm) (x : Position) (y : Reel), s.takes = true → 1 ≤ p → p ≤ 8 → x = s.pos p →
    x.enabled = true → x.running = some a → x.arm a = some r → s.reel r = some y →
    ((s.line (lineOfPosition p)).press.level = true ∨ x.sequence ∉ [.noStandby, .standby, .ready] →
      refusedWith (.unload tag p) s 0x2C tag 4) ∧
    ((s.line (lineOfPosition p)).press.level = false → x.sequence ∈ [.noStandby, .standby, .ready] → y.reservation ≠ some p →
      ∀ d paper, d = x.gauge.diameter → paper = (if x.params.returnDiameter ≤ d ∨ d ≤ x.params.coreDiameter then 0
        else (d * d - x.params.coreDiameter * x.params.coreDiameter) * 7854 / (10 * y.caliper)) →
      ∃ (status : Disposal) (order : Nat) (u w : State),
        answered (.unload tag p) s 0x2C tag (be4 r ++ be2 d ++ be1 status.code ++ be4 paper) (u.close s false) ∧
        (u.pos p).disposal a = some status ∧ (status = .ordered → ∃ y', u.reel r = some y' ∧ y'.tag = some order) ∧
        (status ≠ .ordered → order = 0) ∧ u.notices = (s.raise (.butt p a r d paper status order)).notices ∧
        ButtAnswered w u p a r d y (if x.params.returnDiameter ≤ d then .ret else .clear) ∧
        (∀ q z, s.openReservation p = some q → s.reel q = some z →
          w.reel q = some { z with state := .stored, reservation := none, tag := none }) ∧
        (∀ q, s.openReservation p ≠ some q → w.reel q = s.reel q) ∧
        w.orders = { s.orders with backlog := if s.openReservation p = none then s.orders.backlog
          else s.orders.backlog.filter fun i => !(i.isDeliveryOf p) } ∧
        w.demands = s.demands.filter (fun e => decide (e.position ≠ p)) ∧ w.bays = s.bays ∧ w.nodes = s.nodes ∧
        w.clock = s.clock ∧ w.notices = s.notices ∧ u.demands = w.demands ∧ (∀ q, q ≠ r → u.reel q = w.reel q) ∧
        (u.line (lineOfPosition p)).run.buttPaper = (if (s.line (lineOfPosition p)).run.state = .active then
          min counterMax ((s.line (lineOfPosition p)).run.buttPaper + paper) else (s.line (lineOfPosition p)).run.buttPaper) ∧
        (u.pos p).running = none ∧ (u.pos p).sequence = .noWeb ∧
        (u.pos p).gauge = { Gauge.reset with
          speed := x.gauge.speed, standbySpeed := x.gauge.standbySpeed, windowCounts := x.gauge.windowCounts } ∧
        (u.pos p).outputs.webEnd = false ∧ u.web p = Web.blank ∧ (u.pos p).callOff.state = .none ∧ (∀ k, k ≠ p → u.pos k = s.pos k ∧ u.web k = s.web k) ∧
        (∃ y', u.reel r = some y' ∧ y'.state = .butt ∧ y'.diameter = d ∧ y'.origin = .returned))) ∧
  (∀ (s : State) (tag p arm r : Nat) (a : Arm) (y : Reel), s.takes = true → 1 ≤ p → p ≤ 8 → (s.pos p).enabled = true →
    armOf arm = some a → (s.pos p).arm a = some r → s.reel r = some y →
    (y.state ≠ .butt ∨ y.tag ≠ none → refusedWith (.buttoff tag p arm) s 0x2D tag 4) ∧
    (y.state = .butt → y.tag = none → ∃ u : State, answered (.buttoff tag p arm) s 0x2D tag (be4 r ++ be2 y.diameter)
      (u.close s false) ∧ u.reel r = none ∧ (u.pos p).arm a = none ∧ (u.pos p).disposal a = none ∧
      (∀ k, k ≠ r → u.reel k = s.reel k) ∧ (∀ k, k ≠ p → u.pos k = s.pos k) ∧
      u.orders.backlog = s.orders.backlog.filter fun i => !(i.isDisposalOf p a)))

/-! ### Counting -/

/-- A copy event outside the gate raises only that count; inside it, the copy is counted into gross and into one class: DIVERT while the
divert input is active, else GOOD when no running web exceeds its threshold, START when one that does is in START, SPLICE with the
link of the lowest-numbered in SPLICE, TENSION otherwise; a copy tested on a web that is not fresh is one on held values; the copy that
reaches the target raises TARGET. The maxima of the line's webs are then cleared, and while the press runs their envelopes advance by one
copy, one that reaches its length going to STEADY; nothing of the hall changes (R132, R133, R136, R137, R149, R156, R157, R158). -/
def Obligations.CopyEvent : Prop :=
  ∀ (s : State) (l : Nat) (x : Line) (beyond : Nat → Prop), 1 ≤ l → l ≤ 2 → x = s.line l →
    (∀ w, beyond w ↔ w ∈ positionsOfLine l ∧ (s.pos w).isWeb = true ∧
      s.threshold l w < if (s.web w).fresh then (s.web w).maximum else (s.web w).deviation.getD 0) →
    ∃ t : State, exec (.copyEvent l) s = .next t.transmit ∧ t.hall = s.hall ∧ (t.line l).copy = ⟨true, 0⟩ ∧
      (∀ k, k ≠ l → t.line k = s.line k) ∧
      (∀ w, (s.pos w).isWeb = false ∨ w ∉ positionsOfLine l → t.web w = s.web w) ∧
      (∀ w y, w ∈ positionsOfLine l → (s.pos w).isWeb = true → y = { s.web w with maximum := 0, fresh := false } →
        (x.press.level = false ∨ (s.web w).kind ∉ [.start, .splice] → t.web w = y) ∧
        (x.press.level = true → (s.web w).kind ∈ [.start, .splice] →
          (∀ k e, (s.web w).slot = some k → s.slot k = some e → e.length = (s.web w).index + 1 →
            t.web w = { y with kind := .steady, index := 0, slot := none, link := none }) ∧
          (∀ k e, (s.web w).slot = some k → s.slot k = some e → e.length ≠ (s.web w).index + 1 →
            t.web w = { y with index := (s.web w).index + 1 }))) ∧
      (s.gateOpen l = false → (t.line l).outside = min (x.outside + 1) counterMax ∧ (t.line l).run = x.run ∧
        (t.line l).heldCopies = x.heldCopies ∧ t.notices = s.notices) ∧
      (s.gateOpen l = true → (t.line l).outside = x.outside ∧
        (x.divert.level = false → (∃ w ∈ positionsOfLine l, (s.pos w).isWeb = true ∧ (s.web w).fresh = false) →
          (t.line l).heldCopies = min (x.heldCopies + 1) counterMax) ∧
        ((x.divert.level = true ∨ ∀ w ∈ positionsOfLine l, (s.pos w).isWeb = true → (s.web w).fresh = true) →
          (t.line l).heldCopies = x.heldCopies) ∧
        (x.run.gross = counterMax → (t.line l).run = { x.run with frozen := true } ∧ t.notices = s.notices) ∧
        (x.run.gross < counterMax → (t.line l).run.gross = x.run.gross + 1 ∧
          (x.divert.level = true → (t.line l).run.wasteDivert = min (x.run.wasteDivert + 1) counterMax) ∧
          (x.divert.level = false → (∀ w, ¬beyond w) → (t.line l).run.good = min (x.run.good + 1) counterMax ∧
            (x.run.target ≠ 0 → x.run.good + 1 = x.run.target → x.run.reached = none →
              (t.line l).run.reached = some ⟨s.clock.seconds, x.run.gross + 1⟩ ∧
              t.notices = (s.raise (.target l x.run.number x.run.target (x.run.good + 1) (x.run.gross + 1))).notices)) ∧
          (x.divert.level = true ∨ (∃ w, beyond w) ∨ x.run.target = 0 ∨ x.run.good + 1 ≠ x.run.target ∨ x.run.reached ≠ none →
            (t.line l).run.reached = x.run.reached ∧ t.notices = s.notices) ∧
          (x.divert.level = false → (∃ w, beyond w ∧ (s.web w).kind = .start) →
            (t.line l).run.wasteStart = min (x.run.wasteStart + 1) counterMax) ∧
          (∀ w r, x.divert.level = false → (∀ v, beyond v → (s.web v).kind ≠ .start) → beyond w → (s.web w).kind = .splice →
            (s.web w).link = some r →
            (∀ v, beyond v → v < w → ¬((s.web v).kind = .splice ∧ (s.web v).link ≠ none)) →
            (t.line l).run.wasteSplice = min (x.run.wasteSplice + 1) counterMax ∧
            (t.line l).run.splices = chargeRecord r x.run.splices) ∧
          (x.divert.level = false → (∃ w, beyond w) →
            (∀ v, beyond v → (s.web v).kind ≠ .start ∧ ¬((s.web v).kind = .splice ∧ (s.web v).link ≠ none)) →
            (t.line l).run.wasteTension = min (x.run.wasteTension + 1) counterMax)))

/-- The level inputs, and the filter before every input: a sample of the accepted level clears the run count, an opposite one raises it, and
the one that reaches the filter's count is the accepted change, to active or to inactive. DIVERT changes its level alone; press running to active opens START
on the running webs of the line and may start READY positions; to inactive it takes ACCEL, MATCHED and ARMED back to READY
(R113, R123, R129, R130, R131, R147). -/
def Obligations.LevelInputs : Prop :=
  (∀ (s : State) (l : Nat) (b : Bool), 1 ≤ l → l ≤ 2 → (s.line l).divert.level ≠ b →
    exec (.divertChange l b) s = .next (s.setLine l { s.line l with divert := ⟨b, 0⟩ }).transmit) ∧
  (∀ (s : State) (l : Nat), 1 ≤ l → l ≤ 2 → (s.line l).press.level = false → ∃ t : State,
    exec (.pressRunningRise l) s = .next t.transmit ∧ t.line l = { s.line l with press := ⟨true, 0⟩ } ∧
    (∀ w, w ∈ positionsOfLine l → (s.pos w).isWeb = true →
      t.web w = (s.web w).opened .start (s.line l).startSlot none) ∧
    (∀ w, w ∉ positionsOfLine l ∨ (s.pos w).isWeb = false → t.web w = s.web w) ∧
    (∀ p, p ∈ positionsOfLine l → (s.pos p).sequence = .ready → (s.pos p).gauge.remaining ≤ (s.pos p).params.accelLength →
      s.estop.level = false → (t.pos p).sequence = .accel ∧ (t.pos p).outputs.accel (s.pos p).standbyArm = true) ∧
    (∀ p, p ∉ positionsOfLine l → t.pos p = s.pos p) ∧ t.reels = s.reels ∧ t.orders = s.orders ∧ t.link = s.link) ∧
  (∀ (s : State) (l : Nat), 1 ≤ l → l ≤ 2 → (s.line l).press.level = true → ∃ t : State,
    exec (.pressRunningFall l) s = .next t.transmit ∧ t.line l = { s.line l with press := ⟨false, 0⟩ } ∧ t.webs = s.webs ∧
    (∀ p, p ∈ positionsOfLine l → (s.pos p).sequence ∈ [.accel, .matched, .armed] → t.pos p = { s.pos p with
      sequence := .ready, outputs := { (s.pos p).outputs with accelA := false, accelB := false }
      splice := { (s.pos p).splice with matchMs := none } }) ∧
    (∀ p, p ∉ positionsOfLine l ∨ (s.pos p).sequence ∉ [.accel, .matched, .armed] → t.pos p = s.pos p) ∧
    t.reels = s.reels ∧ t.orders = s.orders ∧ t.notices = s.notices) ∧
  (∀ (s : State) (i : FieldInput) (high : Bool), inputExists i = true →
    ((s.filter i).level = inputActive i high → exec (.inputFilterSample i high) s =
      .next (s.setFilter i ⟨(s.filter i).level, 0⟩).transmit) ∧
    ((s.filter i).level ≠ inputActive i high → (s.filter i).run + 1 < s.filterCount i →
      exec (.inputFilterSample i high) s = .next (s.setFilter i ⟨(s.filter i).level, (s.filter i).run + 1⟩).transmit) ∧
    ((s.filter i).level = false → inputActive i high = true → s.filterCount i ≤ (s.filter i).run + 1 →
      exec (.inputFilterSample i high) s = exec (match i with
        | .copy l => .copyEvent l
        | .divert l => .divertChange l true
        | .pressRunning l => .pressRunningRise l
        | .revolutionMark p => .revolutionMark p
        | .spliceConfirm p => .confirmEdge p
        | .emergencyStop => .estopAsserted) s) ∧
    ((s.filter i).level = true → inputActive i high = false → s.filterCount i ≤ (s.filter i).run + 1 →
      exec (.inputFilterSample i high) s = (match i with
        | .copy _ | .revolutionMark _ | .spliceConfirm _ => .next (s.setFilter i ⟨false, 0⟩).transmit
        | .divert l => exec (.divertChange l false) s
        | .pressRunning l => exec (.pressRunningFall l) s
        | .emergencyStop => exec .estopReleased s))) ∧
  (∀ i : FieldInput, inputActive i true = true ∨ ∃ l, i = .copy l ∧ inputActive i false = true) ∧
  (∀ l, inputActive (.copy l) false = true ∧ inputActive (.copy l) true = false) ∧
  (∀ (i : FieldInput) (high : Bool), (∀ l, i ≠ .copy l) → inputActive i high = high)

/-- The emergency stop asserted queues HALT-ALL, stops every vehicle under way with its prior state, withdraws every RESUME, raises ESTOP and
takes ACCEL, MATCHED and ARMED back to READY; released, READY positions whose conditions hold go to ACCEL (R79, R124). That the HALT-ALL is
queued before the RESUMEs are withdrawn, so that a notice it brings about precedes the ESTOP, is the model's choice (log 54). -/
def Obligations.EmergencyStop : Prop :=
  (∀ s : State, s.estop.level = false → ∃ u w : State, exec .estopAsserted s = .next (u.close s false).transmit ∧
    u = w.raise (.estop true) ∧ w.notices = ({ s with estop := ⟨true, 0⟩ } : State).queueHaltAll.notices ∧
    ((s.vlink.queue.filter fun f => !f.isHalt).length < 16 → u.notices = (s.raise (.estop true)).notices) ∧
    u.estop = ⟨true, 0⟩ ∧ u.vlink.queue.contains (.halt 0) = true ∧
    (∀ f ∈ u.vlink.queue ++ u.vlink.waiting, f.isResume = false) ∧
    (∀ v, 1 ≤ v → v ≤ 12 → ((s.veh v).state = .offered → (u.veh v).state = .stopped ∧ (u.veh v).prior = some .offered) ∧
      ((s.veh v).state = .driving → (u.veh v).state = .stopped ∧ (u.veh v).prior = some .driving)) ∧
    (∀ p, 1 ≤ p → p ≤ 8 → (s.pos p).sequence ∈ [.accel, .matched, .armed] → (u.pos p).sequence = .ready ∧
      (u.pos p).outputs.accelA = false ∧ (u.pos p).outputs.accelB = false) ∧
    (∀ p, 1 ≤ p → p ≤ 8 → (s.pos p).sequence ∉ [.accel, .matched, .armed] → (u.pos p).sequence = (s.pos p).sequence ∧
      (u.pos p).outputs = (s.pos p).outputs) ∧ u.lines = s.lines ∧ u.webs = s.webs) ∧
  (∀ s : State, s.estop.level = true → ∃ u : State, exec .estopReleased s = .next (u.close s false).transmit ∧
    u.estop = ⟨false, 0⟩ ∧ u.notices = (s.raise (.estop false)).notices ∧ u.vehicles = s.vehicles ∧ u.vlink = s.vlink ∧
    (∀ p, 1 ≤ p → p ≤ 8 → (s.pos p).sequence = .ready → (s.pos p).gauge.remaining ≤ (s.pos p).params.accelLength →
      s.pressRunning (lineOfPosition p) = true → (u.pos p).sequence = .accel ∧
      (u.pos p).outputs.accel (s.pos p).standbyArm = true))

/-- A conversion interval has the channel of the first position above the last one converted, and of the lowest one when none is above,
among the positions in FIRING or CONFIRM when there are any and else among the WEB positions; when no position is WEB no conversion is
made. CONVERSION_INTERVAL_START starts such an interval. The end of a conversion delivers the sample to the web, with its deviation
against the setpoint, while the position is WEB, and discards it otherwise; the position becomes the last one converted, and the channel of
the next interval is chosen in the same event (R134, R135). Two clauses are the model's choice: a sample with no conversion in progress
changes nothing (log 3), and an interval that starts during a conversion leaves it to end on its channel (log 25). -/
def Obligations.SamplerConversion : Prop :=
  (∀ (s : State) (n : Nat), ∃ c, s.channelAfter n c ∧ ∀ d, s.channelAfter n d → d = c) ∧
  (∀ (s : State) (c : Option Nat), s.sampler.converting = none → s.channelAfter s.sampler.last c →
    exec .conversionIntervalStart s = .next { s with sampler := ⟨s.sampler.last, c⟩ }) ∧
  (∀ (s : State) (w n sp dev : Nat) (c : Option Nat), s.sampler.converting = some w → sp = (s.pos w).params.tensionSetpoint →
    dev = min 255 ((max n sp - min n sp) * 200 / sp + if (max n sp - min n sp) * 200 % sp = 0 then 0 else 1) → 0 < sp →
    s.channelAfter w c →
    ((s.pos w).isWeb = true → exec (.tensionSampleDelivered n) s = .next (({ s with sampler := ⟨w, c⟩ } : State).setWeb w
      { s.web w with
        sample := some n, deviation := some dev, maximum := max (s.web w).maximum dev, fresh := true, ageMs := 0 })) ∧
    ((s.pos w).isWeb = false → exec (.tensionSampleDelivered n) s = .next { s with sampler := ⟨w, c⟩ })) ∧
  (∀ (s : State) (n : Nat), s.sampler.converting = none → exec (.tensionSampleDelivered n) s = .next s) ∧
  (∀ (s : State) (w : Nat), s.sampler.converting = some w → exec .conversionIntervalStart s = .next s)

/-- LINECFG sets a line's steady level and filter count, each clamped to its range, in any state of the line; the filters and the steady
classification use them from then on, pin reset sets 8 and 4, and RESTART keeps both (R139). -/
def Obligations.LineConfiguration : Prop :=
  (∀ (s t : State) (tag l a b : Nat), s.takes = true → 1 ≤ l → l ≤ 2 →
    t = s.setLine l { s.line l with steady := min a 31, filterCount := max 2 (min b 8) } →
    answered (.linecfg tag l a b) s 0x38 tag (be1 (min a 31) ++ be1 (max 2 (min b 8))) t ∧
    t.filterCount (.copy l) = max 2 (min b 8) ∧ t.filterCount (.divert l) = max 2 (min b 8) ∧
    t.filterCount (.pressRunning l) = max 2 (min b 8) ∧
    (∀ w, (s.web w).kind = .steady → t.threshold l w = min a 31)) ∧
  (∀ (s : State) (r : LinkRate) (l : Nat), ((s.pinReset r).line l).steady = 8 ∧ ((s.pinReset r).line l).filterCount = 4 ∧
    (s.restarted.line l).steady = (s.line l).steady ∧ (s.restarted.line l).filterCount = (s.line l).filterCount)

/-- ENVSET writes or clears a slot no ACTIVE run selects and no web opened from, its offset clamped to −8 to 7, and a changed slot loses its
selections, which the reply lists, and nothing else changes; ENVSEL selects FULL slots whose signatures match, the START selection checked before the SPLICE
selection. Within a slot's length every index lies in one segment, whose level runs between its two level numbers, and the threshold is
the level with the offset, held in 0..31 (R141 to R145, R151, R152). That the reply of ENVSET lists the dropped selections by line, START
before SPLICE, is the model's choice (log 42). -/
def Obligations.Envelopes : Prop :=
  (∀ (s : State) (tag k : Nat) (offset : Int) (e : Envelope), s.takes = true → 1 ≤ k → k ≤ 4 → e.codes.length = 12 →
    e.levels.length = 12 → (∀ c ∈ e.codes, c ≤ 15) → (∀ c ∈ e.levels, c ≤ 31) → e.offset = max (-8) (min offset 7) →
    (s.slotSelected k = true ∨ s.slotOpened k = true →
      refusedWith (.envset tag k 1 e.codes e.levels offset) s 0x3A tag 4 ∧ refusedWith (.envset tag k 2 [] [] 0) s 0x3A tag 4) ∧
    (s.slotSelected k = false → s.slotOpened k = false → ∀ dropped : List Bytes,
      dropped = ([1, 2].flatMap fun l => (if (s.line l).startSlot = k then [be1 l ++ be1 2] else []) ++
        if (s.line l).spliceSlot = k then [be1 l ++ be1 3] else []) →
      (∃ t : State, answered (.envset tag k 1 e.codes e.levels offset) s 0x3A tag
          (be1 1 ++ [BitVec.ofInt 8 e.offset] ++ be2 e.signature ++ be2 e.length ++
            listBytes (if s.slot k = some e then [] else dropped)) t ∧
        SlotChanged s t k (some e)) ∧
      (∃ (off : Byte) (length : Nat) (t : State), answered (.envset tag k 2 [] [] 0) s 0x3A tag
          (be1 0 ++ [off] ++ be2 0 ++ be2 length ++ listBytes (if s.slot k = none then [] else dropped)) t ∧
        SlotChanged s t k none))) ∧
  (∀ (s : State) (tag k action : Nat) (codes levels : List Nat) (offset : Int), s.takes = true →
    k = 0 ∨ 4 < k ∨ (action ≠ 1 ∧ action ≠ 2) ∨ (action = 1 ∧ ((∃ c ∈ codes, 15 < c) ∨ ∃ c ∈ levels, 31 < c)) →
    refusedWith (.envset tag k action codes levels offset) s 0x3A tag 2) ∧
  (∀ (s : State) (tag l a sa b sb : Nat), s.takes = true → l = 0 ∨ 2 < l ∨ 4 < a ∨ 4 < b →
    refusedWith (.envsel tag l a sa b sb) s 0x3B tag 2) ∧
  (∀ (s : State) (tag l a sa b sb : Nat) (fine : Nat → Nat → Prop), s.takes = true → 1 ≤ l → l ≤ 2 → a ≤ 4 → b ≤ 4 →
    (∀ k n, fine k n ↔ k = 0 ∨ ∃ e, s.slot k = some e ∧ e.signature = n) →
    (fine a sa → fine b sb → ∃ data, answered (.envsel tag l a sa b sb) s 0x3B tag data
      (s.setLine l { s.line l with startSlot := a, spliceSlot := b })) ∧
    (∀ k n, (k = a ∧ n = sa) ∨ (fine a sa ∧ k = b ∧ n = sb) → k ≠ 0 →
      (s.slot k = none → refusedWith (.envsel tag l a sa b sb) s 0x3B tag 4) ∧
      (∀ e, s.slot k = some e → e.signature ≠ n → refusedWith (.envsel tag l a sa b sb) s 0x3B tag 7))) ∧
  (∀ (e : Envelope) (n : Nat), e.codes.length = 12 → e.levels.length = 12 → (∀ c ∈ e.codes, c ≤ 15) → n < e.length →
    ∃ g, e.segment n = some g ∧ 1 ≤ g.number ∧ g.number ≤ 12 ∧ g.start ≤ n ∧ n < g.start + g.duration ∧
      g.start = ((e.codes.take (g.number - 1)).map durationOf).sum ∧
      g.duration = durationOf (e.codes.getD (g.number - 1) 0) ∧
      (g.number = 1 → e.levelIn g n = e.levels.getD 0 0) ∧
      (g.number ≠ 1 → e.levelIn g n = (e.levels.getD (g.number - 2) 0 : Int) +
        Int.tdiv (((e.levels.getD (g.number - 1) 0 : Int) - e.levels.getD (g.number - 2) 0) * (n - g.start : Int)) g.duration) ∧
      (g.number ≠ 1 →
        (min (e.levelNumber (g.number - 1)) (e.levelNumber g.number) : Int) ≤ e.levelIn g n ∧
        e.levelIn g n ≤ (max (e.levelNumber (g.number - 1)) (e.levelNumber g.number) : Int)) ∧
      ((e.thresholdAt n : Int) = max 0 (min 31 (e.levelIn g n + e.offset))))

/-- RUNSTART opens a run with every counter 0 and the links of the line's webs cleared, and is refused while one is ACTIVE; RUNEND closes the
ACTIVE run, its counters kept, and its reply carries the record (R154, R155, R162, R163). -/
def Obligations.Runs : Prop :=
  ∀ (s : State) (tag l n g : Nat), s.takes = true → 1 ≤ l → l ≤ 2 →
    (n = 0 ∨ counterMax < n ∨ counterMax < g → refusedWith (.runstart tag l n g) s 0x40 tag 2) ∧
    ((s.line l).run.state = .active → 1 ≤ n → n ≤ counterMax → g ≤ counterMax → refusedWith (.runstart tag l n g) s 0x40 tag 4) ∧
    ((s.line l).run.state ≠ .active → 1 ≤ n → n ≤ counterMax → g ≤ counterMax → ∃ t : State,
      answered (.runstart tag l n g) s 0x40 tag (be4 n ++ be4 g ++ be4 s.clock.seconds) t ∧ t.hall = s.hall ∧
      t.line l = { s.line l with run := { Run.reset with
        number := n, state := .active, target := g, startTime := some s.clock.seconds } } ∧
      (∀ k, k ≠ l → t.line k = s.line k) ∧ (∀ w, w ∈ positionsOfLine l → t.web w = { s.web w with link := none }) ∧
      (∀ w, w ∉ positionsOfLine l → t.web w = s.web w)) ∧
    ((s.line l).run.state ≠ .active → refusedWith (.runend tag l) s 0x41 tag 4) ∧
    (∀ run, (s.line l).run.state = .active → run = { (s.line l).run with state := .ended, endTime := some s.clock.seconds } →
      answered (.runend tag l) s 0x41 tag run.bytes (s.setLine l { s.line l with run := run }))

/-! ### Invariants of every step -/

/-- Every step keeps every table in its canonical form, and with it the bounds: at most 4 requests, 4 port replies, 8 replies, 32 notices, 512
reel records, 32 orders and 1024 routes (R1, R38, R170, R172, R175, R187). It keeps the bounds of the other lists: 16 frames in the
outbound queue and 36 in its waiting line, of each kind at most one for a vehicle (R80); 8 demands in the Demand Queue, one for a
position (R31); and 24 items in the creation backlog, one DELIVER for a position and one disposal for an arm (R49). And no transmitter
stands free while a frame it may send waits in a queue (R79, R80, R172, R189). That a second frame or item of a kind is not added is the
model's choice (log 39). -/
def Obligations.TablesStayBounded : Prop :=
  ∀ s t : State, s.canonical = true → step s = .next t →
    t.canonical = true ∧ (s.bounded = true → t.bounded = true) ∧ (s.listed → t.listed) ∧ (s.sending → t.sending)

/-- Every step keeps the outputs of every position in agreement with its splice sequence: no accelerate output for the running arm or outside
ACCEL to CONFIRM, paste and cut only in FIRING with their timers running, NO_WEB exactly while no arm runs (R89, R111, R114, R118,
R121). -/
def Obligations.OutputsStaySound : Prop := ∀ s t : State, s.sound → step s = .next t → t.sound

/-- Every step keeps the books: each line's gross count is the sum of its five classes, and the charges of its splice records add up to its
SPLICE waste (R156, R157). -/
def Obligations.BooksStayBalanced : Prop := ∀ s t : State, s.balanced → step s = .next t → t.balanced

/-- The state after power-on meets the invariants that every step keeps. -/
def Obligations.ResetMeetsTheInvariants : Prop :=
  State.reset.canonical = true ∧ State.reset.bounded = true ∧ State.reset.sound ∧ State.reset.balanced ∧
    State.reset.listed ∧ State.reset.sending ∧ State.reset.pending = []
end

