-- ==== Sys2Proof/Laws/Table.lean ====
section
/-!
SUPPORT. What the reads of a table give after its updates, and that every table operation keeps the canonical form.
-/

namespace Sys2Proof

theorem Table.findIn_insertIn_same {α : Type} (k : Nat) (v : α) (es : List (Nat × α)) :
    Table.findIn k (Table.insertIn k v es) = some v := by
  induction es with
  | nil => simp [insertIn, findIn]
  | cons e es ih =>
    unfold insertIn
    split
    · simp [findIn]
    · split
      · simp [findIn]
      · rename_i h
        simp [findIn, Ne.symm h, ih]

theorem Table.findIn_insertIn_other {α : Type} {j k : Nat} (h : j ≠ k) (v : α) (es : List (Nat × α)) :
    Table.findIn j (Table.insertIn k v es) = Table.findIn j es := by
  induction es with
  | nil => simp [insertIn, findIn, h.symm]
  | cons e es ih =>
    unfold insertIn
    split
    · simp [findIn, h.symm]
    · split
      · rename_i hk
        subst hk
        simp [findIn, h.symm]
      · simp [findIn, ih]

/-- A read after a write to the same number gives the entry written. -/
@[simp] theorem Table.find_insert_same {α : Type} (t : Table α) (k : Nat) (v : α) : (t.insert k v).find k = some v :=
  Table.findIn_insertIn_same k v t.entries

/-- A write leaves every other number alone. -/
theorem Table.find_insert_other {α : Type} (t : Table α) {j k : Nat} (h : j ≠ k) (v : α) :
    (t.insert k v).find j = t.find j := Table.findIn_insertIn_other h v t.entries

theorem Table.findIn_eraseIn_same {α : Type} (k : Nat) (es : List (Nat × α)) :
    Table.findIn k (Table.eraseIn k es) = none := by
  induction es with
  | nil => rfl
  | cons e es ih =>
    unfold eraseIn
    split
    · exact ih
    · rename_i h
      simp [findIn, h, ih]

theorem Table.findIn_eraseIn_other {α : Type} {j k : Nat} (h : j ≠ k) (es : List (Nat × α)) :
    Table.findIn j (Table.eraseIn k es) = Table.findIn j es := by
  induction es with
  | nil => rfl
  | cons e es ih =>
    unfold eraseIn
    split
    · rename_i hk
      rw [ih]
      simp [findIn, hk, h.symm]
    · simp [findIn, ih]

/-- A second write to a number replaces the first. -/
@[simp] theorem Table.insert_insert {α : Type} (t : Table α) (k : Nat) (v w : α) : (t.insert k v).insert k w = t.insert k w := by
  have key : ∀ es : List (Nat × α), Table.insertIn k w (Table.insertIn k v es) = Table.insertIn k w es := by
    intro es
    induction es with
    | nil => simp [insertIn]
    | cons e es ih =>
      simp only [insertIn]
      split
      · simp [insertIn]
      · split
        · simp [insertIn]
        · rename_i h1 h2
          simp [insertIn, h1, h2, ih]
  show Table.mk _ = Table.mk _
  rw [show (t.insert k v).entries = Table.insertIn k v t.entries from rfl, key]

/-- An erased number has no entry. -/
@[simp] theorem Table.find_erase_same {α : Type} (t : Table α) (k : Nat) : (t.erase k).find k = none :=
  Table.findIn_eraseIn_same k t.entries

/-- An erasure leaves every other number alone. -/
theorem Table.find_erase_other {α : Type} (t : Table α) {j k : Nat} (h : j ≠ k) : (t.erase k).find j = t.find j :=
  Table.findIn_eraseIn_other h t.entries

/-- The numbers of a rising list from `b` on are above any lower bound of `b`. -/
theorem Table.risesFrom_insertIn {α : Type} (k : Nat) (v : α) :
    ∀ (es : List (Nat × α)) (b : Option Nat), Table.risesFrom b es = true → (∀ n, b = some n → n < k) →
      Table.risesFrom b (Table.insertIn k v es) = true
  | [], none, _, _ => rfl
  | [], some n, _, hb => by simp [insertIn, risesFrom, hb n rfl]
  | e :: es, b, hr, hb => by
    have htail : Table.risesFrom (some e.1) es = true := by
      cases b <;> simp [risesFrom] at hr
      · exact hr
      · exact hr.2
    unfold insertIn
    split
    · rename_i hlt
      cases b with
      | none => simp [risesFrom, hlt, htail]
      | some n => simp [risesFrom, hb n rfl, hlt, htail]
    · split
      · rename_i hk
        cases b with
        | none => simpa [risesFrom, hk] using htail
        | some n => simpa [risesFrom, hb n rfl, hk] using ⟨hk ▸ hb n rfl, htail⟩
      · rename_i h1 h2
        have hlt : e.1 < k := by omega
        have ih := Table.risesFrom_insertIn k v es (some e.1) htail (fun n hn => by cases hn; exact hlt)
        cases b with
        | none => simpa [risesFrom] using ih
        | some n =>
          simp [risesFrom] at hr
          simp [risesFrom, hr.1, ih]

/-- An insertion keeps the canonical form. -/
theorem Table.wf_insert {α : Type} (t : Table α) (k : Nat) (v : α) (h : t.wf = true) : (t.insert k v).wf = true :=
  Table.risesFrom_insertIn k v t.entries none h (fun _ hn => by cases hn)

/-- A rising list without its first entry rises from any lower bound. -/
theorem Table.risesFrom_eraseIn {α : Type} (k : Nat) :
    ∀ (es : List (Nat × α)) (b : Option Nat), Table.risesFrom b es = true → Table.risesFrom b (Table.eraseIn k es) = true
  | [], b, h => by cases b <;> rfl
  | e :: es, b, h => by
    have weaken : ∀ (fs : List (Nat × α)) (m : Nat) (c : Option Nat), (∀ n, c = some n → n < m) →
        Table.risesFrom (some m) fs = true → Table.risesFrom c fs = true := by
      intro fs m c hc hf
      cases fs with
      | nil => cases c <;> rfl
      | cons f fs =>
        simp [risesFrom] at hf
        cases c with
        | none => simp [risesFrom, hf.2]
        | some n => simp [risesFrom, hf.2, lt_trans (hc n rfl) hf.1]
    have htail : Table.risesFrom (some e.1) es = true := by
      cases b <;> simp [risesFrom] at h
      · exact h
      · exact h.2
    have hb : ∀ n, b = some n → n < e.1 := by
      intro n hn
      subst hn
      simp [risesFrom] at h
      exact h.1
    unfold eraseIn
    split
    · exact weaken _ e.1 b hb (Table.risesFrom_eraseIn k es (some e.1) htail)
    · have ih := Table.risesFrom_eraseIn k es (some e.1) htail
      cases b with
      | none => simpa [risesFrom] using ih
      | some n => simp [risesFrom, hb n rfl, ih]

/-- An erasure keeps the canonical form. -/
theorem Table.wf_erase {α : Type} (t : Table α) (k : Nat) (h : t.wf = true) : (t.erase k).wf = true :=
  Table.risesFrom_eraseIn k t.entries none h

/-- A change of every entry keeps the canonical form. -/
theorem Table.wf_mapEntries {α β : Type} (t : Table α) (f : Nat → α → β) (h : t.wf = true) : (t.mapEntries f).wf = true := by
  have key : ∀ (es : List (Nat × α)) (b : Option Nat), Table.risesFrom b es = true →
      Table.risesFrom b (es.map fun e => (e.1, f e.1 e.2)) = true := by
    intro es
    induction es with
    | nil => intro b _; cases b <;> rfl
    | cons e es ih =>
      intro b hb
      cases b <;> simp [risesFrom] at hb ⊢
      · exact ih _ hb
      · exact ⟨hb.1, ih _ hb.2⟩
  exact key t.entries none h

/-- The entry under a number after a change of every entry. -/
theorem Table.find_mapEntries {α β : Type} (t : Table α) (f : Nat → α → β) (k : Nat) :
    (t.mapEntries f).find k = (t.find k).map (f k) := by
  have key : ∀ es : List (Nat × α), Table.findIn k (es.map fun e => (e.1, f e.1 e.2)) = (Table.findIn k es).map (f k) := by
    intro es
    induction es with
    | nil => rfl
    | cons e es ih =>
      by_cases h : e.1 = k
      · subst h
        simp [findIn]
      · simp [findIn, h, ih]
  exact key t.entries

/-- A part of a rising list rises from any lower bound of the list. -/
theorem Table.risesFrom_filter {α : Type} (f : Nat × α → Bool) :
    ∀ (es : List (Nat × α)) (b : Option Nat), Table.risesFrom b es = true → Table.risesFrom b (es.filter f) = true
  | [], b, h => by cases b <;> rfl
  | e :: es, b, h => by
    have htail : Table.risesFrom (some e.1) es = true := by
      cases b <;> simp [risesFrom] at h
      · exact h
      · exact h.2
    have ih := Table.risesFrom_filter f es
    by_cases hf : f e = true
    · rw [List.filter_cons_of_pos hf]
      cases b with
      | none => simpa [risesFrom] using ih _ htail
      | some n =>
        simp only [risesFrom, Bool.and_eq_true] at h ⊢
        exact ⟨h.1, ih _ htail⟩
    · rw [List.filter_cons_of_neg hf]
      have h' := ih _ htail
      cases b with
      | none =>
        revert h'
        cases es.filter f with
        | nil => simp [risesFrom]
        | cons g gs => simp [risesFrom]
      | some n =>
        simp only [risesFrom, Bool.and_eq_true, decide_eq_true_eq] at h
        revert h'
        cases es.filter f with
        | nil => simp [risesFrom]
        | cons g gs =>
          simp only [risesFrom, Bool.and_eq_true, decide_eq_true_eq]
          exact fun h' => ⟨lt_trans h.1 h'.1, h'.2⟩

/-- A table cut down keeps the canonical form. -/
theorem Table.wf_filter {α : Type} (t : Table α) (f : Nat × α → Bool) (h : t.wf = true) :
    (Table.mk (t.entries.filter f)).wf = true := Table.risesFrom_filter f t.entries none h

theorem Table.length_insertIn_le {α : Type} (k : Nat) (v : α) (es : List (Nat × α)) :
    (Table.insertIn k v es).length ≤ es.length + 1 := by
  induction es with
  | nil => simp [insertIn]
  | cons e es ih =>
    unfold insertIn
    split
    · simp
    · split
      · simp
      · simpa using ih

/-- An insertion adds at most one entry. -/
theorem Table.count_insert_le {α : Type} (t : Table α) (k : Nat) (v : α) : (t.insert k v).count ≤ t.count + 1 :=
  Table.length_insertIn_le k v t.entries

theorem Table.findIn_none_of_rises {α : Type} {k : Nat} :
    ∀ (es : List (Nat × α)) (n : Nat), k ≤ n → Table.risesFrom (some n) es = true → Table.findIn k es = none
  | [], _, _, _ => rfl
  | e :: es, n, hk, h => by
    simp only [risesFrom, Bool.and_eq_true, decide_eq_true_eq] at h
    have hne : e.1 ≠ k := by omega
    simp only [findIn, hne, if_false]
    exact Table.findIn_none_of_rises es e.1 (by omega) h.2

theorem Table.length_insertIn_of_find {α : Type} {k : Nat} (v : α) :
    ∀ (es : List (Nat × α)) (b : Option Nat), Table.risesFrom b es = true → (Table.findIn k es).isSome = true →
      (Table.insertIn k v es).length = es.length
  | [], _, _, h => by simp [findIn] at h
  | e :: es, b, hr, h => by
    have htail : Table.risesFrom (some e.1) es = true := by
      cases b <;> simp [risesFrom] at hr
      · exact hr
      · exact hr.2
    unfold insertIn
    split
    · rename_i hlt
      have hne : e.1 ≠ k := by omega
      simp only [findIn, hne, if_false] at h
      rw [Table.findIn_none_of_rises es e.1 (by omega) htail] at h
      simp at h
    · split
      · simp
      · rename_i hne
        simp only [findIn, Ne.symm hne, if_false] at h
        simpa using Table.length_insertIn_of_find v es (some e.1) htail h

/-- A write to a number in use adds no entry. -/
theorem Table.count_insert_of_find {α : Type} (t : Table α) {k : Nat} (v : α) (hw : t.wf = true)
    (h : (t.find k).isSome = true) : (t.insert k v).count = t.count :=
  Table.length_insertIn_of_find v t.entries none hw h

/-- An erasure adds no entry. -/
theorem Table.count_erase_le {α : Type} (t : Table α) (k : Nat) : (t.erase k).count ≤ t.count := by
  unfold erase count
  show (Table.eraseIn k t.entries).length ≤ t.entries.length
  induction t.entries with
  | nil => simp [eraseIn]
  | cons e es ih =>
    unfold eraseIn
    split
    · simp only [List.length_cons]
      omega
    · simpa using ih

end Sys2Proof
end

