-- ==== Sys2Proof/Laws/Bays.lean ====
section
/-!
SUPPORT. What a reel that leaves a bay's stack does to the store (R4, R9, R21): `State.leaveBay_left` says all of it once, for REMOVE,
LOADREEL and the picks.
-/

namespace Sys2Proof.Machine

theorem State.onReel_reel_same {s : State} {r : Nat} {f : Reel → Reel} {x : Reel} (h : s.reel r = some x) :
    (s.onReel r f).reel r = some (f x) := by
  simp only [State.onReel, h]
  exact Table.findIn_insertIn_same r (f x) _

theorem State.onReel_reel_other {s : State} {r q : Nat} {f : Reel → Reel} (h : q ≠ r) : (s.onReel r f).reel q = s.reel q := by
  unfold State.onReel
  split
  · exact Table.find_insert_other _ h _
  · rfl

@[simp] theorem State.onReel_bay (s : State) (r : Nat) (f : Reel → Reel) (b : Nat) : (s.onReel r f).bay b = s.bay b := by
  unfold State.onReel
  split <;> rfl

/-! ### The levels of a list of reels -/

@[simp] theorem relevel_bay (b l : Nat) (rs : List Nat) (s : State) (c : Nat) : (relevel b l rs s).bay c = s.bay c := by
  induction rs generalizing s l with
  | nil => rfl
  | cons r rs ih => exact (ih (l + 1) _).trans (by simp)

theorem relevel_reel_other {b l : Nat} {rs : List Nat} {s : State} {q : Nat} (h : q ∉ rs) :
    (relevel b l rs s).reel q = s.reel q := by
  induction rs generalizing s l with
  | nil => rfl
  | cons r rs ih =>
    rw [List.mem_cons, not_or] at h
    exact (ih h.2).trans (State.onReel_reel_other h.1)

theorem relevel_reel {b l : Nat} {rs : List Nat} {s : State} {i q : Nat} {z : Reel} (hn : rs.Nodup) (hi : rs[i]? = some q)
    (hz : s.reel q = some z) : (relevel b l rs s).reel q = some { z with location := .inBay b (l + i) } := by
  induction rs generalizing s l i with
  | nil => simp at hi
  | cons r rs ih =>
    rw [List.nodup_cons] at hn
    cases i with
    | zero =>
      obtain rfl : r = q := by simpa using hi
      exact (relevel_reel_other hn.1).trans (State.onReel_reel_same hz)
    | succ i =>
      have hi : rs[i]? = some q := by simpa using hi
      have hq : q ≠ r := fun e => hn.1 (e ▸ List.mem_of_getElem? hi)
      rw [show l + (i + 1) = l + 1 + i by omega]
      exact ih hn.2 hi ((State.onReel_reel_other hq).trans hz)

/-! ### The reels below and above one -/

theorem reelsBelow_eq {r : Nat} {lower upper : List Nat} (h : r ∉ lower) : reelsBelow r (lower ++ r :: upper) = lower := by
  unfold reelsBelow
  rw [List.takeWhile_append_of_pos (fun q hq => by simpa using fun e : q = r => h (e ▸ hq))]
  simp

theorem reelsAbove_eq {r : Nat} {lower upper : List Nat} (h : r ∉ lower) :
    reelsAbove r (lower ++ r :: upper) = upper.filter fun q => decide (q ≠ r) := by
  unfold reelsAbove
  rw [List.dropWhile_append_of_pos (fun q hq => by simpa using fun e : q = r => h (e ▸ hq))]
  simp

theorem mem_reelsAbove {r q : Nat} {stack : List Nat} (h : q ∈ reelsAbove r stack) :
    ∃ lower upper, stack = lower ++ r :: upper ∧ q ∈ upper := by
  induction stack with
  | nil => simp [reelsAbove] at h
  | cons k ks ih =>
    by_cases hk : k = r
    · subst hk
      exact ⟨[], ks, rfl, by simp [reelsAbove] at h; exact h.1⟩
    · have e : reelsAbove r (k :: ks) = reelsAbove r ks := by simp [reelsAbove, hk]
      obtain ⟨lower, upper, rfl, m⟩ := ih (e ▸ h)
      exact ⟨k :: lower, upper, rfl, m⟩

/-- A reel that leaves a bay at any level: the stack without it, the reels above it one level lower, every other record as before
(R4, R9, R21). -/
theorem State.leaveBay_left {s : State} {b : Nat} {y : Bay} (r : Nat) (h : s.bay b = some y) : ReelLeft s (s.leaveBay b r) b r y := by
  simp only [State.leaveBay, h]
  refine ⟨?_, fun lower upper i q z e hn hi hz => ?_, fun q hq k => ?_⟩
  · rw [relevel_bay]
    exact Table.findIn_insertIn_same b _ _
  · rw [e] at hn
    rw [e]
    have hl : r ∉ lower := fun m => List.disjoint_of_nodup_append hn m (by simp)
    have hu : (r :: upper).Nodup := (List.nodup_append.1 hn).2.1
    have hf : upper.filter (fun q => decide (q ≠ r)) = upper :=
      List.filter_eq_self.2 fun q m => by simpa using fun e : q = r => (List.nodup_cons.1 hu).1 (e ▸ m)
    rw [reelsBelow_eq hl, reelsAbove_eq hl, hf, show lower.length + i + 1 = lower.length + 1 + i by omega]
    exact relevel_reel (List.nodup_cons.1 hu).2 hi hz
  · refine relevel_reel_other fun m => ?_
    obtain ⟨lower, upper, e, m⟩ := mem_reelsAbove m
    exact k lower upper e m

end Sys2Proof.Machine
end

