-- ==== Sys2Proof/Laws/State.lean ====
section
/-!
SUPPORT. One lemma per field per update of the state, true by unfolding, so that no later proof unfolds a record update.
-/

namespace Sys2Proof.Machine

/-! ### `State.setPos` -/

@[simp] theorem State.setPos_pending (s : State) (p : Nat) (x : Position) : (s.setPos p x).pending = s.pending := rfl
@[simp] theorem State.setPos_link (s : State) (p : Nat) (x : Position) : (s.setPos p x).link = s.link := rfl
@[simp] theorem State.setPos_clock (s : State) (p : Nat) (x : Position) : (s.setPos p x).clock = s.clock := rfl
@[simp] theorem State.setPos_nodes (s : State) (p : Nat) (x : Position) : (s.setPos p x).nodes = s.nodes := rfl
@[simp] theorem State.setPos_routes (s : State) (p : Nat) (x : Position) : (s.setPos p x).routes = s.routes := rfl
@[simp] theorem State.setPos_reels (s : State) (p : Nat) (x : Position) : (s.setPos p x).reels = s.reels := rfl
@[simp] theorem State.setPos_rest (s : State) (p : Nat) (x : Position) : (s.setPos p x).rest = s.rest := rfl
@[simp] theorem State.setPos_bays (s : State) (p : Nat) (x : Position) : (s.setPos p x).bays = s.bays := rfl
@[simp] theorem State.setPos_demands (s : State) (p : Nat) (x : Position) : (s.setPos p x).demands = s.demands := rfl
@[simp] theorem State.setPos_orders (s : State) (p : Nat) (x : Position) : (s.setPos p x).orders = s.orders := rfl
@[simp] theorem State.setPos_vehicles (s : State) (p : Nat) (x : Position) : (s.setPos p x).vehicles = s.vehicles := rfl
@[simp] theorem State.setPos_locks (s : State) (p : Nat) (x : Position) : (s.setPos p x).locks = s.locks := rfl
@[simp] theorem State.setPos_vlink (s : State) (p : Nat) (x : Position) : (s.setPos p x).vlink = s.vlink := rfl
@[simp] theorem State.setPos_vconfig (s : State) (p : Nat) (x : Position) : (s.setPos p x).vconfig = s.vconfig := rfl
@[simp] theorem State.setPos_positions (s : State) (p : Nat) (x : Position) : (s.setPos p x).positions = s.positions.insert p x := rfl
@[simp] theorem State.setPos_estop (s : State) (p : Nat) (x : Position) : (s.setPos p x).estop = s.estop := rfl
@[simp] theorem State.setPos_sampler (s : State) (p : Nat) (x : Position) : (s.setPos p x).sampler = s.sampler := rfl
@[simp] theorem State.setPos_webs (s : State) (p : Nat) (x : Position) : (s.setPos p x).webs = s.webs := rfl
@[simp] theorem State.setPos_lines (s : State) (p : Nat) (x : Position) : (s.setPos p x).lines = s.lines := rfl
@[simp] theorem State.setPos_slots (s : State) (p : Nat) (x : Position) : (s.setPos p x).slots = s.slots := rfl
@[simp] theorem State.setPos_notices (s : State) (p : Nat) (x : Position) : (s.setPos p x).notices = s.notices := rfl

/-! ### `State.setWeb` -/

@[simp] theorem State.setWeb_pending (s : State) (w : Nat) (x : Web) : (s.setWeb w x).pending = s.pending := rfl
@[simp] theorem State.setWeb_link (s : State) (w : Nat) (x : Web) : (s.setWeb w x).link = s.link := rfl
@[simp] theorem State.setWeb_clock (s : State) (w : Nat) (x : Web) : (s.setWeb w x).clock = s.clock := rfl
@[simp] theorem State.setWeb_nodes (s : State) (w : Nat) (x : Web) : (s.setWeb w x).nodes = s.nodes := rfl
@[simp] theorem State.setWeb_routes (s : State) (w : Nat) (x : Web) : (s.setWeb w x).routes = s.routes := rfl
@[simp] theorem State.setWeb_reels (s : State) (w : Nat) (x : Web) : (s.setWeb w x).reels = s.reels := rfl
@[simp] theorem State.setWeb_rest (s : State) (w : Nat) (x : Web) : (s.setWeb w x).rest = s.rest := rfl
@[simp] theorem State.setWeb_bays (s : State) (w : Nat) (x : Web) : (s.setWeb w x).bays = s.bays := rfl
@[simp] theorem State.setWeb_demands (s : State) (w : Nat) (x : Web) : (s.setWeb w x).demands = s.demands := rfl
@[simp] theorem State.setWeb_orders (s : State) (w : Nat) (x : Web) : (s.setWeb w x).orders = s.orders := rfl
@[simp] theorem State.setWeb_vehicles (s : State) (w : Nat) (x : Web) : (s.setWeb w x).vehicles = s.vehicles := rfl
@[simp] theorem State.setWeb_locks (s : State) (w : Nat) (x : Web) : (s.setWeb w x).locks = s.locks := rfl
@[simp] theorem State.setWeb_vlink (s : State) (w : Nat) (x : Web) : (s.setWeb w x).vlink = s.vlink := rfl
@[simp] theorem State.setWeb_vconfig (s : State) (w : Nat) (x : Web) : (s.setWeb w x).vconfig = s.vconfig := rfl
@[simp] theorem State.setWeb_positions (s : State) (w : Nat) (x : Web) : (s.setWeb w x).positions = s.positions := rfl
@[simp] theorem State.setWeb_estop (s : State) (w : Nat) (x : Web) : (s.setWeb w x).estop = s.estop := rfl
@[simp] theorem State.setWeb_sampler (s : State) (w : Nat) (x : Web) : (s.setWeb w x).sampler = s.sampler := rfl
@[simp] theorem State.setWeb_webs (s : State) (w : Nat) (x : Web) : (s.setWeb w x).webs = s.webs.insert w x := rfl
@[simp] theorem State.setWeb_lines (s : State) (w : Nat) (x : Web) : (s.setWeb w x).lines = s.lines := rfl
@[simp] theorem State.setWeb_slots (s : State) (w : Nat) (x : Web) : (s.setWeb w x).slots = s.slots := rfl
@[simp] theorem State.setWeb_notices (s : State) (w : Nat) (x : Web) : (s.setWeb w x).notices = s.notices := rfl

/-! ### `State.setLine` -/

@[simp] theorem State.setLine_pending (s : State) (l : Nat) (x : Line) : (s.setLine l x).pending = s.pending := rfl
@[simp] theorem State.setLine_link (s : State) (l : Nat) (x : Line) : (s.setLine l x).link = s.link := rfl
@[simp] theorem State.setLine_clock (s : State) (l : Nat) (x : Line) : (s.setLine l x).clock = s.clock := rfl
@[simp] theorem State.setLine_nodes (s : State) (l : Nat) (x : Line) : (s.setLine l x).nodes = s.nodes := rfl
@[simp] theorem State.setLine_routes (s : State) (l : Nat) (x : Line) : (s.setLine l x).routes = s.routes := rfl
@[simp] theorem State.setLine_reels (s : State) (l : Nat) (x : Line) : (s.setLine l x).reels = s.reels := rfl
@[simp] theorem State.setLine_rest (s : State) (l : Nat) (x : Line) : (s.setLine l x).rest = s.rest := rfl
@[simp] theorem State.setLine_bays (s : State) (l : Nat) (x : Line) : (s.setLine l x).bays = s.bays := rfl
@[simp] theorem State.setLine_demands (s : State) (l : Nat) (x : Line) : (s.setLine l x).demands = s.demands := rfl
@[simp] theorem State.setLine_orders (s : State) (l : Nat) (x : Line) : (s.setLine l x).orders = s.orders := rfl
@[simp] theorem State.setLine_vehicles (s : State) (l : Nat) (x : Line) : (s.setLine l x).vehicles = s.vehicles := rfl
@[simp] theorem State.setLine_locks (s : State) (l : Nat) (x : Line) : (s.setLine l x).locks = s.locks := rfl
@[simp] theorem State.setLine_vlink (s : State) (l : Nat) (x : Line) : (s.setLine l x).vlink = s.vlink := rfl
@[simp] theorem State.setLine_vconfig (s : State) (l : Nat) (x : Line) : (s.setLine l x).vconfig = s.vconfig := rfl
@[simp] theorem State.setLine_positions (s : State) (l : Nat) (x : Line) : (s.setLine l x).positions = s.positions := rfl
@[simp] theorem State.setLine_estop (s : State) (l : Nat) (x : Line) : (s.setLine l x).estop = s.estop := rfl
@[simp] theorem State.setLine_sampler (s : State) (l : Nat) (x : Line) : (s.setLine l x).sampler = s.sampler := rfl
@[simp] theorem State.setLine_webs (s : State) (l : Nat) (x : Line) : (s.setLine l x).webs = s.webs := rfl
@[simp] theorem State.setLine_lines (s : State) (l : Nat) (x : Line) : (s.setLine l x).lines = s.lines.insert l x := rfl
@[simp] theorem State.setLine_slots (s : State) (l : Nat) (x : Line) : (s.setLine l x).slots = s.slots := rfl
@[simp] theorem State.setLine_notices (s : State) (l : Nat) (x : Line) : (s.setLine l x).notices = s.notices := rfl

/-! ### `State.setVeh` -/

@[simp] theorem State.setVeh_pending (s : State) (v : Nat) (x : Vehicle) : (s.setVeh v x).pending = s.pending := rfl
@[simp] theorem State.setVeh_link (s : State) (v : Nat) (x : Vehicle) : (s.setVeh v x).link = s.link := rfl
@[simp] theorem State.setVeh_clock (s : State) (v : Nat) (x : Vehicle) : (s.setVeh v x).clock = s.clock := rfl
@[simp] theorem State.setVeh_nodes (s : State) (v : Nat) (x : Vehicle) : (s.setVeh v x).nodes = s.nodes := rfl
@[simp] theorem State.setVeh_routes (s : State) (v : Nat) (x : Vehicle) : (s.setVeh v x).routes = s.routes := rfl
@[simp] theorem State.setVeh_reels (s : State) (v : Nat) (x : Vehicle) : (s.setVeh v x).reels = s.reels := rfl
@[simp] theorem State.setVeh_rest (s : State) (v : Nat) (x : Vehicle) : (s.setVeh v x).rest = s.rest := rfl
@[simp] theorem State.setVeh_bays (s : State) (v : Nat) (x : Vehicle) : (s.setVeh v x).bays = s.bays := rfl
@[simp] theorem State.setVeh_demands (s : State) (v : Nat) (x : Vehicle) : (s.setVeh v x).demands = s.demands := rfl
@[simp] theorem State.setVeh_orders (s : State) (v : Nat) (x : Vehicle) : (s.setVeh v x).orders = s.orders := rfl
@[simp] theorem State.setVeh_vehicles (s : State) (v : Nat) (x : Vehicle) : (s.setVeh v x).vehicles = s.vehicles.insert v x := rfl
@[simp] theorem State.setVeh_locks (s : State) (v : Nat) (x : Vehicle) : (s.setVeh v x).locks = s.locks := rfl
@[simp] theorem State.setVeh_vlink (s : State) (v : Nat) (x : Vehicle) : (s.setVeh v x).vlink = s.vlink := rfl
@[simp] theorem State.setVeh_vconfig (s : State) (v : Nat) (x : Vehicle) : (s.setVeh v x).vconfig = s.vconfig := rfl
@[simp] theorem State.setVeh_positions (s : State) (v : Nat) (x : Vehicle) : (s.setVeh v x).positions = s.positions := rfl
@[simp] theorem State.setVeh_estop (s : State) (v : Nat) (x : Vehicle) : (s.setVeh v x).estop = s.estop := rfl
@[simp] theorem State.setVeh_sampler (s : State) (v : Nat) (x : Vehicle) : (s.setVeh v x).sampler = s.sampler := rfl
@[simp] theorem State.setVeh_webs (s : State) (v : Nat) (x : Vehicle) : (s.setVeh v x).webs = s.webs := rfl
@[simp] theorem State.setVeh_lines (s : State) (v : Nat) (x : Vehicle) : (s.setVeh v x).lines = s.lines := rfl
@[simp] theorem State.setVeh_slots (s : State) (v : Nat) (x : Vehicle) : (s.setVeh v x).slots = s.slots := rfl
@[simp] theorem State.setVeh_notices (s : State) (v : Nat) (x : Vehicle) : (s.setVeh v x).notices = s.notices := rfl

/-! ### `State.setReel` -/

@[simp] theorem State.setReel_pending (s : State) (r : Nat) (x : Reel) : (s.setReel r x).pending = s.pending := rfl
@[simp] theorem State.setReel_link (s : State) (r : Nat) (x : Reel) : (s.setReel r x).link = s.link := rfl
@[simp] theorem State.setReel_clock (s : State) (r : Nat) (x : Reel) : (s.setReel r x).clock = s.clock := rfl
@[simp] theorem State.setReel_nodes (s : State) (r : Nat) (x : Reel) : (s.setReel r x).nodes = s.nodes := rfl
@[simp] theorem State.setReel_routes (s : State) (r : Nat) (x : Reel) : (s.setReel r x).routes = s.routes := rfl
@[simp] theorem State.setReel_reels (s : State) (r : Nat) (x : Reel) : (s.setReel r x).reels = s.reels.insert r x := rfl
@[simp] theorem State.setReel_rest (s : State) (r : Nat) (x : Reel) : (s.setReel r x).rest = s.rest := rfl
@[simp] theorem State.setReel_bays (s : State) (r : Nat) (x : Reel) : (s.setReel r x).bays = s.bays := rfl
@[simp] theorem State.setReel_demands (s : State) (r : Nat) (x : Reel) : (s.setReel r x).demands = s.demands := rfl
@[simp] theorem State.setReel_orders (s : State) (r : Nat) (x : Reel) : (s.setReel r x).orders = s.orders := rfl
@[simp] theorem State.setReel_vehicles (s : State) (r : Nat) (x : Reel) : (s.setReel r x).vehicles = s.vehicles := rfl
@[simp] theorem State.setReel_locks (s : State) (r : Nat) (x : Reel) : (s.setReel r x).locks = s.locks := rfl
@[simp] theorem State.setReel_vlink (s : State) (r : Nat) (x : Reel) : (s.setReel r x).vlink = s.vlink := rfl
@[simp] theorem State.setReel_vconfig (s : State) (r : Nat) (x : Reel) : (s.setReel r x).vconfig = s.vconfig := rfl
@[simp] theorem State.setReel_positions (s : State) (r : Nat) (x : Reel) : (s.setReel r x).positions = s.positions := rfl
@[simp] theorem State.setReel_estop (s : State) (r : Nat) (x : Reel) : (s.setReel r x).estop = s.estop := rfl
@[simp] theorem State.setReel_sampler (s : State) (r : Nat) (x : Reel) : (s.setReel r x).sampler = s.sampler := rfl
@[simp] theorem State.setReel_webs (s : State) (r : Nat) (x : Reel) : (s.setReel r x).webs = s.webs := rfl
@[simp] theorem State.setReel_lines (s : State) (r : Nat) (x : Reel) : (s.setReel r x).lines = s.lines := rfl
@[simp] theorem State.setReel_slots (s : State) (r : Nat) (x : Reel) : (s.setReel r x).slots = s.slots := rfl
@[simp] theorem State.setReel_notices (s : State) (r : Nat) (x : Reel) : (s.setReel r x).notices = s.notices := rfl

/-! ### `State.delReel` -/

@[simp] theorem State.delReel_pending (s : State) (r : Nat) : (s.delReel r).pending = s.pending := rfl
@[simp] theorem State.delReel_link (s : State) (r : Nat) : (s.delReel r).link = s.link := rfl
@[simp] theorem State.delReel_clock (s : State) (r : Nat) : (s.delReel r).clock = s.clock := rfl
@[simp] theorem State.delReel_nodes (s : State) (r : Nat) : (s.delReel r).nodes = s.nodes := rfl
@[simp] theorem State.delReel_routes (s : State) (r : Nat) : (s.delReel r).routes = s.routes := rfl
@[simp] theorem State.delReel_reels (s : State) (r : Nat) : (s.delReel r).reels = s.reels.erase r := rfl
@[simp] theorem State.delReel_rest (s : State) (r : Nat) : (s.delReel r).rest = s.rest := rfl
@[simp] theorem State.delReel_bays (s : State) (r : Nat) : (s.delReel r).bays = s.bays := rfl
@[simp] theorem State.delReel_demands (s : State) (r : Nat) : (s.delReel r).demands = s.demands := rfl
@[simp] theorem State.delReel_orders (s : State) (r : Nat) : (s.delReel r).orders = s.orders := rfl
@[simp] theorem State.delReel_vehicles (s : State) (r : Nat) : (s.delReel r).vehicles = s.vehicles := rfl
@[simp] theorem State.delReel_locks (s : State) (r : Nat) : (s.delReel r).locks = s.locks := rfl
@[simp] theorem State.delReel_vlink (s : State) (r : Nat) : (s.delReel r).vlink = s.vlink := rfl
@[simp] theorem State.delReel_vconfig (s : State) (r : Nat) : (s.delReel r).vconfig = s.vconfig := rfl
@[simp] theorem State.delReel_positions (s : State) (r : Nat) : (s.delReel r).positions = s.positions := rfl
@[simp] theorem State.delReel_estop (s : State) (r : Nat) : (s.delReel r).estop = s.estop := rfl
@[simp] theorem State.delReel_sampler (s : State) (r : Nat) : (s.delReel r).sampler = s.sampler := rfl
@[simp] theorem State.delReel_webs (s : State) (r : Nat) : (s.delReel r).webs = s.webs := rfl
@[simp] theorem State.delReel_lines (s : State) (r : Nat) : (s.delReel r).lines = s.lines := rfl
@[simp] theorem State.delReel_slots (s : State) (r : Nat) : (s.delReel r).slots = s.slots := rfl
@[simp] theorem State.delReel_notices (s : State) (r : Nat) : (s.delReel r).notices = s.notices := rfl

/-! ### `State.setBay` -/

@[simp] theorem State.setBay_pending (s : State) (b : Nat) (x : Bay) : (s.setBay b x).pending = s.pending := rfl
@[simp] theorem State.setBay_link (s : State) (b : Nat) (x : Bay) : (s.setBay b x).link = s.link := rfl
@[simp] theorem State.setBay_clock (s : State) (b : Nat) (x : Bay) : (s.setBay b x).clock = s.clock := rfl
@[simp] theorem State.setBay_nodes (s : State) (b : Nat) (x : Bay) : (s.setBay b x).nodes = s.nodes := rfl
@[simp] theorem State.setBay_routes (s : State) (b : Nat) (x : Bay) : (s.setBay b x).routes = s.routes := rfl
@[simp] theorem State.setBay_reels (s : State) (b : Nat) (x : Bay) : (s.setBay b x).reels = s.reels := rfl
@[simp] theorem State.setBay_rest (s : State) (b : Nat) (x : Bay) : (s.setBay b x).rest = s.rest := rfl
@[simp] theorem State.setBay_bays (s : State) (b : Nat) (x : Bay) : (s.setBay b x).bays = s.bays.insert b x := rfl
@[simp] theorem State.setBay_demands (s : State) (b : Nat) (x : Bay) : (s.setBay b x).demands = s.demands := rfl
@[simp] theorem State.setBay_orders (s : State) (b : Nat) (x : Bay) : (s.setBay b x).orders = s.orders := rfl
@[simp] theorem State.setBay_vehicles (s : State) (b : Nat) (x : Bay) : (s.setBay b x).vehicles = s.vehicles := rfl
@[simp] theorem State.setBay_locks (s : State) (b : Nat) (x : Bay) : (s.setBay b x).locks = s.locks := rfl
@[simp] theorem State.setBay_vlink (s : State) (b : Nat) (x : Bay) : (s.setBay b x).vlink = s.vlink := rfl
@[simp] theorem State.setBay_vconfig (s : State) (b : Nat) (x : Bay) : (s.setBay b x).vconfig = s.vconfig := rfl
@[simp] theorem State.setBay_positions (s : State) (b : Nat) (x : Bay) : (s.setBay b x).positions = s.positions := rfl
@[simp] theorem State.setBay_estop (s : State) (b : Nat) (x : Bay) : (s.setBay b x).estop = s.estop := rfl
@[simp] theorem State.setBay_sampler (s : State) (b : Nat) (x : Bay) : (s.setBay b x).sampler = s.sampler := rfl
@[simp] theorem State.setBay_webs (s : State) (b : Nat) (x : Bay) : (s.setBay b x).webs = s.webs := rfl
@[simp] theorem State.setBay_lines (s : State) (b : Nat) (x : Bay) : (s.setBay b x).lines = s.lines := rfl
@[simp] theorem State.setBay_slots (s : State) (b : Nat) (x : Bay) : (s.setBay b x).slots = s.slots := rfl
@[simp] theorem State.setBay_notices (s : State) (b : Nat) (x : Bay) : (s.setBay b x).notices = s.notices := rfl

/-! ### `State.setOrder` -/

@[simp] theorem State.setOrder_pending (s : State) (t : Nat) (x : Order) : (s.setOrder t x).pending = s.pending := rfl
@[simp] theorem State.setOrder_link (s : State) (t : Nat) (x : Order) : (s.setOrder t x).link = s.link := rfl
@[simp] theorem State.setOrder_clock (s : State) (t : Nat) (x : Order) : (s.setOrder t x).clock = s.clock := rfl
@[simp] theorem State.setOrder_nodes (s : State) (t : Nat) (x : Order) : (s.setOrder t x).nodes = s.nodes := rfl
@[simp] theorem State.setOrder_routes (s : State) (t : Nat) (x : Order) : (s.setOrder t x).routes = s.routes := rfl
@[simp] theorem State.setOrder_reels (s : State) (t : Nat) (x : Order) : (s.setOrder t x).reels = s.reels := rfl
@[simp] theorem State.setOrder_rest (s : State) (t : Nat) (x : Order) : (s.setOrder t x).rest = s.rest := rfl
@[simp] theorem State.setOrder_bays (s : State) (t : Nat) (x : Order) : (s.setOrder t x).bays = s.bays := rfl
@[simp] theorem State.setOrder_demands (s : State) (t : Nat) (x : Order) : (s.setOrder t x).demands = s.demands := rfl
@[simp] theorem State.setOrder_orders (s : State) (t : Nat) (x : Order) :
    (s.setOrder t x).orders = { s.orders with table := s.orders.table.insert t x } := rfl
@[simp] theorem State.setOrder_vehicles (s : State) (t : Nat) (x : Order) : (s.setOrder t x).vehicles = s.vehicles := rfl
@[simp] theorem State.setOrder_locks (s : State) (t : Nat) (x : Order) : (s.setOrder t x).locks = s.locks := rfl
@[simp] theorem State.setOrder_vlink (s : State) (t : Nat) (x : Order) : (s.setOrder t x).vlink = s.vlink := rfl
@[simp] theorem State.setOrder_vconfig (s : State) (t : Nat) (x : Order) : (s.setOrder t x).vconfig = s.vconfig := rfl
@[simp] theorem State.setOrder_positions (s : State) (t : Nat) (x : Order) : (s.setOrder t x).positions = s.positions := rfl
@[simp] theorem State.setOrder_estop (s : State) (t : Nat) (x : Order) : (s.setOrder t x).estop = s.estop := rfl
@[simp] theorem State.setOrder_sampler (s : State) (t : Nat) (x : Order) : (s.setOrder t x).sampler = s.sampler := rfl
@[simp] theorem State.setOrder_webs (s : State) (t : Nat) (x : Order) : (s.setOrder t x).webs = s.webs := rfl
@[simp] theorem State.setOrder_lines (s : State) (t : Nat) (x : Order) : (s.setOrder t x).lines = s.lines := rfl
@[simp] theorem State.setOrder_slots (s : State) (t : Nat) (x : Order) : (s.setOrder t x).slots = s.slots := rfl
@[simp] theorem State.setOrder_notices (s : State) (t : Nat) (x : Order) : (s.setOrder t x).notices = s.notices := rfl

/-! ### `State.delOrder` -/

@[simp] theorem State.delOrder_pending (s : State) (t : Nat) : (s.delOrder t).pending = s.pending := rfl
@[simp] theorem State.delOrder_link (s : State) (t : Nat) : (s.delOrder t).link = s.link := rfl
@[simp] theorem State.delOrder_clock (s : State) (t : Nat) : (s.delOrder t).clock = s.clock := rfl
@[simp] theorem State.delOrder_nodes (s : State) (t : Nat) : (s.delOrder t).nodes = s.nodes := rfl
@[simp] theorem State.delOrder_routes (s : State) (t : Nat) : (s.delOrder t).routes = s.routes := rfl
@[simp] theorem State.delOrder_reels (s : State) (t : Nat) : (s.delOrder t).reels = s.reels := rfl
@[simp] theorem State.delOrder_rest (s : State) (t : Nat) : (s.delOrder t).rest = s.rest := rfl
@[simp] theorem State.delOrder_bays (s : State) (t : Nat) : (s.delOrder t).bays = s.bays := rfl
@[simp] theorem State.delOrder_demands (s : State) (t : Nat) : (s.delOrder t).demands = s.demands := rfl
@[simp] theorem State.delOrder_orders (s : State) (t : Nat) :
    (s.delOrder t).orders = { s.orders with table := s.orders.table.erase t } := rfl
@[simp] theorem State.delOrder_vehicles (s : State) (t : Nat) : (s.delOrder t).vehicles = s.vehicles := rfl
@[simp] theorem State.delOrder_locks (s : State) (t : Nat) : (s.delOrder t).locks = s.locks := rfl
@[simp] theorem State.delOrder_vlink (s : State) (t : Nat) : (s.delOrder t).vlink = s.vlink := rfl
@[simp] theorem State.delOrder_vconfig (s : State) (t : Nat) : (s.delOrder t).vconfig = s.vconfig := rfl
@[simp] theorem State.delOrder_positions (s : State) (t : Nat) : (s.delOrder t).positions = s.positions := rfl
@[simp] theorem State.delOrder_estop (s : State) (t : Nat) : (s.delOrder t).estop = s.estop := rfl
@[simp] theorem State.delOrder_sampler (s : State) (t : Nat) : (s.delOrder t).sampler = s.sampler := rfl
@[simp] theorem State.delOrder_webs (s : State) (t : Nat) : (s.delOrder t).webs = s.webs := rfl
@[simp] theorem State.delOrder_lines (s : State) (t : Nat) : (s.delOrder t).lines = s.lines := rfl
@[simp] theorem State.delOrder_slots (s : State) (t : Nat) : (s.delOrder t).slots = s.slots := rfl
@[simp] theorem State.delOrder_notices (s : State) (t : Nat) : (s.delOrder t).notices = s.notices := rfl

/-! ### `State.setBacklog` -/

@[simp] theorem State.setBacklog_pending (s : State) (b : List BacklogItem) : (s.setBacklog b).pending = s.pending := rfl
@[simp] theorem State.setBacklog_link (s : State) (b : List BacklogItem) : (s.setBacklog b).link = s.link := rfl
@[simp] theorem State.setBacklog_clock (s : State) (b : List BacklogItem) : (s.setBacklog b).clock = s.clock := rfl
@[simp] theorem State.setBacklog_nodes (s : State) (b : List BacklogItem) : (s.setBacklog b).nodes = s.nodes := rfl
@[simp] theorem State.setBacklog_routes (s : State) (b : List BacklogItem) : (s.setBacklog b).routes = s.routes := rfl
@[simp] theorem State.setBacklog_reels (s : State) (b : List BacklogItem) : (s.setBacklog b).reels = s.reels := rfl
@[simp] theorem State.setBacklog_rest (s : State) (b : List BacklogItem) : (s.setBacklog b).rest = s.rest := rfl
@[simp] theorem State.setBacklog_bays (s : State) (b : List BacklogItem) : (s.setBacklog b).bays = s.bays := rfl
@[simp] theorem State.setBacklog_demands (s : State) (b : List BacklogItem) : (s.setBacklog b).demands = s.demands := rfl
@[simp] theorem State.setBacklog_orders (s : State) (b : List BacklogItem) : (s.setBacklog b).orders = { s.orders with backlog := b } := rfl
@[simp] theorem State.setBacklog_vehicles (s : State) (b : List BacklogItem) : (s.setBacklog b).vehicles = s.vehicles := rfl
@[simp] theorem State.setBacklog_locks (s : State) (b : List BacklogItem) : (s.setBacklog b).locks = s.locks := rfl
@[simp] theorem State.setBacklog_vlink (s : State) (b : List BacklogItem) : (s.setBacklog b).vlink = s.vlink := rfl
@[simp] theorem State.setBacklog_vconfig (s : State) (b : List BacklogItem) : (s.setBacklog b).vconfig = s.vconfig := rfl
@[simp] theorem State.setBacklog_positions (s : State) (b : List BacklogItem) : (s.setBacklog b).positions = s.positions := rfl
@[simp] theorem State.setBacklog_estop (s : State) (b : List BacklogItem) : (s.setBacklog b).estop = s.estop := rfl
@[simp] theorem State.setBacklog_sampler (s : State) (b : List BacklogItem) : (s.setBacklog b).sampler = s.sampler := rfl
@[simp] theorem State.setBacklog_webs (s : State) (b : List BacklogItem) : (s.setBacklog b).webs = s.webs := rfl
@[simp] theorem State.setBacklog_lines (s : State) (b : List BacklogItem) : (s.setBacklog b).lines = s.lines := rfl
@[simp] theorem State.setBacklog_slots (s : State) (b : List BacklogItem) : (s.setBacklog b).slots = s.slots := rfl
@[simp] theorem State.setBacklog_notices (s : State) (b : List BacklogItem) : (s.setBacklog b).notices = s.notices := rfl

/-! ### `State.pushReply` -/

@[simp] theorem State.pushReply_pending (s : State) (r : Reply) : (s.pushReply r).pending = s.pending := rfl
@[simp] theorem State.pushReply_link (s : State) (r : Reply) :
    (s.pushReply r).link = { s.link with replies := s.link.replies ++ [r] } := rfl
@[simp] theorem State.pushReply_clock (s : State) (r : Reply) : (s.pushReply r).clock = s.clock := rfl
@[simp] theorem State.pushReply_nodes (s : State) (r : Reply) : (s.pushReply r).nodes = s.nodes := rfl
@[simp] theorem State.pushReply_routes (s : State) (r : Reply) : (s.pushReply r).routes = s.routes := rfl
@[simp] theorem State.pushReply_reels (s : State) (r : Reply) : (s.pushReply r).reels = s.reels := rfl
@[simp] theorem State.pushReply_rest (s : State) (r : Reply) : (s.pushReply r).rest = s.rest := rfl
@[simp] theorem State.pushReply_bays (s : State) (r : Reply) : (s.pushReply r).bays = s.bays := rfl
@[simp] theorem State.pushReply_demands (s : State) (r : Reply) : (s.pushReply r).demands = s.demands := rfl
@[simp] theorem State.pushReply_orders (s : State) (r : Reply) : (s.pushReply r).orders = s.orders := rfl
@[simp] theorem State.pushReply_vehicles (s : State) (r : Reply) : (s.pushReply r).vehicles = s.vehicles := rfl
@[simp] theorem State.pushReply_locks (s : State) (r : Reply) : (s.pushReply r).locks = s.locks := rfl
@[simp] theorem State.pushReply_vlink (s : State) (r : Reply) : (s.pushReply r).vlink = s.vlink := rfl
@[simp] theorem State.pushReply_vconfig (s : State) (r : Reply) : (s.pushReply r).vconfig = s.vconfig := rfl
@[simp] theorem State.pushReply_positions (s : State) (r : Reply) : (s.pushReply r).positions = s.positions := rfl
@[simp] theorem State.pushReply_estop (s : State) (r : Reply) : (s.pushReply r).estop = s.estop := rfl
@[simp] theorem State.pushReply_sampler (s : State) (r : Reply) : (s.pushReply r).sampler = s.sampler := rfl
@[simp] theorem State.pushReply_webs (s : State) (r : Reply) : (s.pushReply r).webs = s.webs := rfl
@[simp] theorem State.pushReply_lines (s : State) (r : Reply) : (s.pushReply r).lines = s.lines := rfl
@[simp] theorem State.pushReply_slots (s : State) (r : Reply) : (s.pushReply r).slots = s.slots := rfl
@[simp] theorem State.pushReply_notices (s : State) (r : Reply) : (s.pushReply r).notices = s.notices := rfl

end Sys2Proof.Machine
end

