-- ==== Sys2Proof/Laws/Moves.lean ====
section
/-!
SUPPORT. What the transport operations can do, said once: each is a chain of primitive moves (`Move`), so that a property of every
primitive move holds of every operation by one induction on the chain.
-/

namespace Sys2Proof.Machine

/-- A position changed as transport may change it: its arms, its disposal statuses and its call-off; and NO_STANDBY may become STANDBY
while the position is WEB (R90). -/
structure Position.Calm (x y : Position) : Prop where
  standNode : y.standNode = x.standNode
  enabled : y.enabled = x.enabled
  params : y.params = x.params
  demand : y.demand = x.demand
  running : y.running = x.running
  gauge : y.gauge = x.gauge
  outputs : y.outputs = x.outputs
  splice : y.splice = x.splice
  mark : y.mark = x.mark
  confirm : y.confirm = x.confirm
  sequence : y.sequence = x.sequence ∨ (x.isWeb = true ∧ x.sequence = .noStandby ∧ y.sequence = .standby)

/-- One primitive move. -/
inductive Move (s : State) : State → Prop
  | raise (b : Subjects) : Move s (s.raise b)
  | vehicle (v : Nat) (x : Vehicle) : Move s (s.setVeh v x)
  | reel (r : Nat) (x y : Reel) (h : s.reel r = some y) : Move s (s.setReel r x)
  | delReel (r : Nat) : Move s (s.delReel r)
  | bay (b : Nat) (x y : Bay) (h : s.bay b = some y) : Move s (s.setBay b x)
  | order (t : Nat) (x y : Order) (h : s.order t = some y) : Move s (s.setOrder t x)
  | delOrder (t : Nat) : Move s (s.delOrder t)
  | create (x : Order) (h : s.ordersFull = false) :
      Move s { s with orders := { s.orders with
        table := s.orders.table.insert s.nextTag x
        lastTag := s.nextTag
        nextSequence := s.orders.nextSequence + 1 } }
  | backlog (b : List BacklogItem) : Move s (s.setBacklog b)
  | disposals (p : Nat) : Move s (s.raiseDisposals p)
  | demands (d : List DemandEntry) : Move s { s with demands := d }
  | give (z v : Nat) : Move s { s with locks := s.locks.insert z v }
  | free (f : Nat × Nat → Bool) : Move s { s with locks := ⟨s.locks.entries.filter f⟩ }
  | frames (q w : List VehicleFrame) : Move s (s.setFrames q w)
  | watch (w : Option Nat) : Move s { s with rest := { s.rest with watch := w } }
  | position (p : Nat) (x : Position) (h : (s.pos p).Calm x) : Move s (s.setPos p x)

/-- A chain of primitive moves. -/
abbrev Moves : State → State → Prop := Relation.ReflTransGen Move

variable {s₀ s : State}

theorem Moves.step {t : State} (h : Moves s₀ s) (m : Move s t) : Moves s₀ t := Relation.ReflTransGen.tail h m

theorem Moves.raise (h : Moves s₀ s) (b : Subjects) : Moves s₀ (s.raise b) := h.step (.raise b)
theorem Moves.setVeh (h : Moves s₀ s) (v : Nat) (x : Vehicle) : Moves s₀ (s.setVeh v x) := h.step (.vehicle v x)
theorem Moves.onVeh (h : Moves s₀ s) (v : Nat) (f : Vehicle → Vehicle) : Moves s₀ (s.onVeh v f) := h.step (.vehicle v _)
theorem Moves.delReel (h : Moves s₀ s) (r : Nat) : Moves s₀ (s.delReel r) := h.step (.delReel r)
theorem Moves.delOrder (h : Moves s₀ s) (t : Nat) : Moves s₀ (s.delOrder t) := h.step (.delOrder t)
theorem Moves.setBacklog (h : Moves s₀ s) (b : List BacklogItem) : Moves s₀ (s.setBacklog b) := h.step (.backlog b)
theorem Moves.raiseDisposals (h : Moves s₀ s) (p : Nat) : Moves s₀ (s.raiseDisposals p) := h.step (.disposals p)
theorem Moves.setFrames (h : Moves s₀ s) (q w : List VehicleFrame) : Moves s₀ (s.setFrames q w) := h.step (.frames q w)
theorem Moves.rewatch (h : Moves s₀ s) : Moves s₀ s.rewatch := h.step (.watch _)
theorem Moves.leaveQueue (h : Moves s₀ s) (p : Nat) : Moves s₀ (s.leaveQueue p) := h.step (.demands _)
theorem Moves.keepZone (h : Moves s₀ s) (v : Nat) (k : Option Nat) : Moves s₀ (s.keepZone v k) := h.step (.free _)

theorem Moves.onReel (h : Moves s₀ s) (r : Nat) (f : Reel → Reel) : Moves s₀ (s.onReel r f) := by
  unfold State.onReel
  split
  · exact h.step (.reel r _ _ ‹_›)
  · exact h

theorem Moves.onBay (h : Moves s₀ s) (b : Nat) (f : Bay → Bay) : Moves s₀ (s.onBay b f) := by
  unfold State.onBay
  split
  · exact h.step (.bay b _ _ ‹_›)
  · exact h

theorem Moves.onOrder (h : Moves s₀ s) (t : Nat) (f : Order → Order) : Moves s₀ (s.onOrder t f) := by
  unfold State.onOrder
  split
  · exact h.step (.order t _ _ ‹_›)
  · exact h

theorem Moves.setOrder (h : Moves s₀ s) {t : Nat} (x : Order) (he : (s.order t).isSome = true) :
    Moves s₀ (s.setOrder t x) := by
  obtain ⟨y, hy⟩ := Option.isSome_iff_exists.1 he
  exact h.step (.order t x y hy)

theorem Moves.onPos (h : Moves s₀ s) (p : Nat) {f : Position → Position} (hf : (s.pos p).Calm (f (s.pos p))) :
    Moves s₀ (s.onPos p f) := h.step (.position p _ hf)

theorem Moves.whenSome {α : Type} (h : Moves s₀ s) (o : Option α) {f : State → α → State}
    (hf : ∀ s x, Moves s₀ s → Moves s₀ (f s x)) : Moves s₀ (s.whenSome o f) := by
  cases o with
  | none => exact h
  | some x => exact hf s x h

theorem Moves.forEach (h : Moves s₀ s) (ns : List Nat) {f : Nat → State → State}
    (hf : ∀ n s, Moves s₀ s → Moves s₀ (f n s)) : Moves s₀ (forEach ns f s) := by
  unfold Machine.forEach
  induction ns generalizing s with
  | nil => exact h
  | cons n ns ih => exact ih (hf n s h)

theorem Moves.foldl {α : Type} (h : Moves s₀ s) (xs : List α) {f : State → α → State}
    (hf : ∀ s x, Moves s₀ s → Moves s₀ (f s x)) : Moves s₀ (xs.foldl f s) := by
  induction xs generalizing s with
  | nil => exact h
  | cons x xs ih => exact ih (hf s x h)

/-! ### Store -/

theorem Position.Calm.refl (x : Position) : x.Calm x := by constructor <;> simp

theorem Position.Calm.setDisposal (x : Position) (a : Arm) (d : Option Disposal) : x.Calm (x.setDisposal a d) := by
  cases a <;> constructor <;> simp [Position.setDisposal]

theorem Position.Calm.setArm (x : Position) (a : Arm) (r : Option Nat) : x.Calm (x.setArm a r) := by
  cases a <;> constructor <;> simp [Position.setArm]

theorem Position.Calm.callOff (x : Position) (c : CallOff) : x.Calm { x with callOff := c } := by constructor <;> simp

theorem Moves.promise (h : Moves s₀ s) (b : Nat) : Moves s₀ (s.promise b) := h.onBay b _
theorem Moves.unpromise (h : Moves s₀ s) (b : Nat) : Moves s₀ (s.unpromise b) := h.onBay b _
theorem Moves.reserve (h : Moves s₀ s) (r p : Nat) : Moves s₀ (s.reserve r p) := (h.onReel r _).rewatch
theorem Moves.release (h : Moves s₀ s) (r : Nat) : Moves s₀ (s.release r) := (h.onReel r _).rewatch

theorem Moves.relevel (h : Moves s₀ s) (b l : Nat) (rs : List Nat) : Moves s₀ (relevel b l rs s) := by
  induction rs generalizing s l with
  | nil => exact h
  | cons r rs ih => exact ih (h.onReel r _) (l + 1)

theorem Moves.leaveBay (h : Moves s₀ s) (b r : Nat) : Moves s₀ (s.leaveBay b r) := by
  unfold State.leaveBay
  split
  · exact (h.step (.bay b _ _ ‹_›)).relevel b _ _
  · exact h

theorem Moves.pushBay (h : Moves s₀ s) (b r : Nat) : Moves s₀ (s.pushBay b r) := by
  unfold State.pushBay
  split
  · exact (h.step (.bay b _ _ ‹_›)).onReel r _
  · exact h

theorem Moves.setCallOff (h : Moves s₀ s) (p : Nat) (c : CallOffState) (full : Bool) : Moves s₀ (s.setCallOff p c full) :=
  h.onPos p (.callOff _ _)

theorem Moves.clearUrgency (h : Moves s₀ s) (p : Nat) : Moves s₀ (s.clearUrgency p) := h.onPos p (.callOff _ _)

theorem Moves.addDemand (h : Moves s₀ s) (p : Nat) (d : Demand) : Moves s₀ (s.addDemand p d) := by
  unfold State.addDemand
  split
  · exact h
  · exact h.step (.demands _)

theorem Moves.joinQueue (h : Moves s₀ s) (p : Nat) (d : Demand) : Moves s₀ (s.joinQueue p d) :=
  ((h.addDemand p d).setCallOff p _ _).raise _

/-! ### Orders -/

theorem Moves.createOrder (h : Moves s₀ s) (n : NewOrder) (hf : s.ordersFull = false) : Moves s₀ (s.createOrder n) :=
  ((h.step (.create _ hf)).whenSome _ fun _ _ h => h.onReel _ _).whenSome _ fun _ _ h => h.promise _

theorem Moves.raiseUrgency (h : Moves s₀ s) (p : Nat) : Moves s₀ (s.raiseUrgency p) :=
  ((h.whenSome _ fun _ _ h => h.onOrder _ _).setBacklog _).raiseDisposals p

theorem Moves.makeDeliver (h : Moves s₀ s) (p r : Nat) (q : Priority) (hf : s.ordersFull = false) :
    Moves s₀ (s.makeDeliver p r q) := by
  unfold State.makeDeliver
  split
  · exact (((h.createOrder _ hf).leaveQueue p).setCallOff p _ _).raiseDisposals p
  · exact ((h.createOrder _ hf).leaveQueue p).setCallOff p _ _

theorem Moves.makeReturn (h : Moves s₀ s) (p : Nat) (a : Arm) (r b : Nat) (q : Priority) (hf : s.ordersFull = false) :
    Moves s₀ (s.makeReturn p a r b q) := by
  unfold State.makeReturn
  exact (h.createOrder _ hf).onPos p (.setDisposal _ _ _)

theorem Moves.makeClear (h : Moves s₀ s) (p : Nat) (a : Arm) (r n : Nat) (q : Priority) (hf : s.ordersFull = false) :
    Moves s₀ (s.makeClear p a r n q) := by
  unfold State.makeClear
  exact (h.createOrder _ hf).onPos p (.setDisposal _ _ _)

theorem Moves.makeDisposal (h : Moves s₀ s) (p : Nat) (a : Arm) (k : DisposalKind) (q : Priority)
    (hf : s.ordersFull = false) : Moves s₀ (s.makeDisposal p a k q) := by
  unfold State.makeDisposal
  repeat' split
  all_goals first
    | exact h
    | exact h.makeReturn _ _ _ _ _ hf
    | exact h.makeClear _ _ _ _ _ hf
    | exact h.onPos p (.setDisposal _ _ _)

theorem Moves.makeItem (h : Moves s₀ s) (i : BacklogItem) (hf : s.ordersFull = false) : Moves s₀ (s.makeItem i) := by
  cases i with
  | delivery p r q => exact h.makeDeliver p r q hf
  | disposal p a k q => exact h.makeDisposal p a k q hf

theorem Moves.fillUpTo (h : Moves s₀ s) (n : Nat) : Moves s₀ (fillUpTo n s) := by
  induction n generalizing s with
  | zero => exact h
  | succ n ih =>
    unfold Machine.fillUpTo
    repeat' split
    · exact h
    · exact h
    · rename_i hf
      exact ih ((h.setBacklog _).makeItem _ (Bool.eq_false_iff.2 hf))

theorem Moves.fillBacklog (h : Moves s₀ s) : Moves s₀ s.fillBacklog := h.fillUpTo _
theorem Moves.dropDelivery (h : Moves s₀ s) (p : Nat) : Moves s₀ (s.dropDelivery p) := h.setBacklog _
theorem Moves.dropDisposal (h : Moves s₀ s) (p : Nat) (a : Arm) : Moves s₀ (s.dropDisposal p a) := h.setBacklog _

theorem Moves.joinBacklog (h : Moves s₀ s) (i : BacklogItem) : Moves s₀ (s.joinBacklog i) := by
  unfold State.joinBacklog
  split
  · exact h
  · exact h.setBacklog _

theorem Moves.deliverOrBacklog (h : Moves s₀ s) (p r : Nat) : Moves s₀ (s.deliverOrBacklog p r) := by
  unfold State.deliverOrBacklog
  split
  · exact (h.joinBacklog _).setCallOff p _ _
  · rename_i hf
    exact h.makeDeliver p r _ (Bool.eq_false_iff.2 hf)

theorem Moves.serveDemand (h : Moves s₀ s) (e : DemandEntry) : Moves s₀ (s.serveDemand e) := by
  unfold State.serveDemand
  split
  · exact h
  · dsimp only
    split
    · exact ((h.reserve _ _).leaveQueue _).deliverOrBacklog _ _
    · exact ((h.reserve _ _).leaveQueue _).setCallOff _ _ _

theorem Moves.arbiterPass (h : Moves s₀ s) : Moves s₀ s.arbiterPass := h.foldl _ fun _ _ h => h.serveDemand _

theorem Moves.withdrawCallOff (h : Moves s₀ s) (p : Nat) : Moves s₀ (s.withdrawCallOff p) :=
  ((h.leaveQueue p).whenSome _ fun _ _ h => (h.release _).dropDelivery p).setCallOff p _ _

/-! ### Operations that leave the Order List alone -/

@[simp] theorem State.raise_orders (s : State) (b : Subjects) : (s.raise b).orders = s.orders := by
  unfold State.raise
  dsimp only
  split <;> rfl

@[simp] theorem State.onReel_orders (s : State) (r : Nat) (f : Reel → Reel) : (s.onReel r f).orders = s.orders := by
  unfold State.onReel
  split <;> rfl

@[simp] theorem State.onBay_orders (s : State) (b : Nat) (f : Bay → Bay) : (s.onBay b f).orders = s.orders := by
  unfold State.onBay
  split <;> rfl

@[simp] theorem State.onVeh_orders (s : State) (v : Nat) (f : Vehicle → Vehicle) : (s.onVeh v f).orders = s.orders := rfl
@[simp] theorem State.onPos_orders (s : State) (p : Nat) (f : Position → Position) : (s.onPos p f).orders = s.orders := rfl
@[simp] theorem State.rewatch_orders (s : State) : s.rewatch.orders = s.orders := rfl
@[simp] theorem State.promise_orders (s : State) (b : Nat) : (s.promise b).orders = s.orders := s.onBay_orders b _
@[simp] theorem State.unpromise_orders (s : State) (b : Nat) : (s.unpromise b).orders = s.orders := s.onBay_orders b _
@[simp] theorem relevel_orders (b l : Nat) (rs : List Nat) (s : State) : (relevel b l rs s).orders = s.orders := by
  induction rs generalizing s l with
  | nil => rfl
  | cons r rs ih => exact (ih (l + 1) _).trans (by simp)
@[simp] theorem State.leaveBay_orders (s : State) (b r : Nat) : (s.leaveBay b r).orders = s.orders := by
  unfold State.leaveBay
  split <;> simp [State.setBay]
@[simp] theorem State.setFrames_orders (s : State) (q w : List VehicleFrame) : (s.setFrames q w).orders = s.orders := rfl
@[simp] theorem State.giveZones_orders (s : State) (v : Nat) (zs : List Nat) : (s.giveZones v zs).orders = s.orders := rfl
@[simp] theorem State.setLoad_orders (s : State) (v r : Nat) (b : Bool) : (s.setLoad v r b).orders = s.orders := rfl

theorem State.whenSome_orders {α : Type} (s : State) (o : Option α) {f : State → α → State}
    (hf : ∀ s x, (f s x).orders = s.orders) : (s.whenSome o f).orders = s.orders := by
  cases o with
  | none => rfl
  | some x => exact hf s x

@[simp] theorem State.takeReel_orders (s : State) (o : Order) (r v : Nat) : (s.takeReel o r v).orders = s.orders := by
  unfold State.takeReel
  split <;> simp

theorem State.order_of_orders {s u : State} (h : u.orders = s.orders) (t : Nat) : u.order t = s.order t := by
  unfold State.order
  rw [h]

@[simp] theorem State.order_setOrder_same (s : State) (t : Nat) (x : Order) : (s.setOrder t x).order t = some x :=
  Table.find_insert_same _ _ _

/-! ### Legs -/

theorem Moves.enqueue (h : Moves s₀ s) (f : VehicleFrame) : Moves s₀ (s.enqueue f) := by
  unfold State.enqueue
  split
  · exact h
  · exact h.setFrames _ _
theorem Moves.withdraw (h : Moves s₀ s) (p : VehicleFrame → Bool) : Moves s₀ (s.withdraw p) := h.setFrames _ _
theorem Moves.withdrawFor (h : Moves s₀ s) (v : Nat) : Moves s₀ (s.withdrawFor v) := h.withdraw _
theorem Moves.withdrawGo (h : Moves s₀ s) (v : Nat) : Moves s₀ (s.withdrawGo v) := h.withdraw _
theorem Moves.withdrawOrderGo (h : Moves s₀ s) (t : Nat) : Moves s₀ (s.withdrawOrderGo t) := h.withdraw _

theorem Moves.giveZones (h : Moves s₀ s) (v : Nat) (zs : List Nat) : Moves s₀ (s.giveZones v zs) := by
  have key : ∀ (zs : List Nat) (u : State), Moves s₀ u →
      Moves s₀ { u with locks := zs.foldl (fun l z => l.insert z v) u.locks } := by
    intro zs
    induction zs with
    | nil => exact fun u hu => hu
    | cons z zs ih => exact fun u hu => ih _ (hu.step (.give z v))
  exact key zs s h

theorem Moves.raiseSuspended (h : Moves s₀ s) (t : Nat) (o : Order) (r : Reason) (v : Nat) :
    Moves s₀ (s.raiseSuspended t o r v) := h.raise _

theorem Moves.offerLeg (h : Moves s₀ s) {t : Nat} (o : Order) (v target : Nat) (zs : List Nat)
    (he : (s.order t).isSome = true) : Moves s₀ (s.offerLeg t o v target zs) := by
  unfold State.offerLeg
  exact ((h.giveZones v _).setOrder _ he).enqueue _

theorem Moves.askZones (h : Moves s₀ s) {t : Nat} (o : Order) (v target : Nat) (zs : List Nat)
    (he : (s.order t).isSome = true) : Moves s₀ (s.askZones t o v target zs) := by
  unfold State.askZones
  split
  · exact h.offerLeg o v target zs he
  · exact h.setOrder _ he

theorem Moves.routeLeg (h : Moves s₀ s) {t : Nat} (o : Order) (v : Nat) (he : (s.order t).isSome = true) :
    Moves s₀ (s.routeLeg t o v) := by
  unfold State.routeLeg
  repeat' split
  · exact h
  · exact h.askZones o v _ _ he
  · exact h.askZones o v _ _ he
  · exact (h.setOrder _ he).raiseSuspended _ _ _ _

theorem Moves.requestLeg (h : Moves s₀ s) (t : Nat) : Moves s₀ (s.requestLeg t) := by
  unfold State.requestLeg
  split
  · exact h
  rename_i o ho
  have he : (s.order t).isSome = true := by simp [ho]
  repeat' split
  all_goals first
    | exact h
    | exact h.routeLeg _ _ he
    | (dsimp only
       split
       · exact h.routeLeg _ _ he
       · exact h.setOrder _ he)

theorem Moves.wakeHeldArm (h : Moves s₀ s) (p : Nat) : Moves s₀ (s.wakeHeldArm p) := by
  unfold State.wakeHeldArm
  repeat' split
  all_goals first | exact h | exact h.requestLeg _

theorem Moves.grantOne (h : Moves s₀ s) (t : Nat) : Moves s₀ (s.grantOne t) := by
  unfold State.grantOne
  repeat' split
  all_goals first
    | exact h
    | exact h.offerLeg _ _ _ _ (by simp_all)

theorem Moves.grantPass (h : Moves s₀ s) : Moves s₀ s.grantPass := h.foldl _ fun _ _ h => h.grantOne _

theorem Moves.bind (h : Moves s₀ s) {t : Nat} (o : Order) (v : Nat) (he : (s.order t).isSome = true) :
    Moves s₀ (s.bind t o v) := ((h.setOrder _ he).onVeh v _).requestLeg t

theorem Moves.assignOne (h : Moves s₀ s) (t : Nat) : Moves s₀ (s.assignOne t) := by
  unfold State.assignOne
  repeat' split
  all_goals first
    | exact h
    | exact h.bind _ _ (by simp_all)

theorem Moves.assignPass (h : Moves s₀ s) : Moves s₀ s.assignPass := h.foldl _ fun _ _ h => h.assignOne _

theorem Moves.close (h : Moves s₀ s) (pre : State) (force : Bool) : Moves s₀ (s.close pre force) := by
  unfold State.close
  dsimp only
  split
  · exact h.grantPass.arbiterPass.assignPass
  · exact h.grantPass.arbiterPass

/-! ### Orders that end or change -/

theorem Moves.dropGrant (h : Moves s₀ s) (v : Nat) : Moves s₀ (s.dropGrant v) := by
  unfold State.dropGrant
  split
  · exact h
  · exact h.keepZone v _

theorem Moves.unbind (h : Moves s₀ s) (v : Nat) : Moves s₀ (s.unbind v) := h.onVeh v _

theorem Moves.freeReel (h : Moves s₀ s) (r : Nat) : Moves s₀ (s.freeReel r) := by
  unfold State.freeReel
  split
  · exact h
  · split
    · exact h.release r
    · dsimp only
      split
      · exact (h.step (.reel r _ _ ‹_›)).onPos _ (.setDisposal _ _ _)
      · exact h.step (.reel r _ _ ‹_›)

theorem Moves.callOffEnds (h : Moves s₀ s) (o : Order) : Moves s₀ (s.callOffEnds o) := by
  unfold State.callOffEnds
  split
  · exact h.whenSome _ fun _ _ h => h.setCallOff _ _ _
  · exact h

theorem Moves.standDown (h : Moves s₀ s) (v : Nat) (o : Order) : Moves s₀ (s.standDown v o) := by
  unfold State.standDown
  split
  · exact h.onVeh v _
  · exact h

theorem Moves.freeVehicleOf (h : Moves s₀ s) (t : Nat) (o : Order) : Moves s₀ (s.freeVehicleOf t o) := by
  unfold State.freeVehicleOf
  repeat' split
  all_goals first
    | exact h
    | exact ((h.unbind _).dropGrant _).standDown _ _

theorem Moves.dropOrder (h : Moves s₀ s) (t : Nat) (o : Order) : Moves s₀ (s.dropOrder t o) :=
  (((((h.withdrawOrderGo t).delOrder t).whenSome _ fun _ _ h => h.freeReel _).whenSome _ fun _ _ h =>
    h.unpromise _).callOffEnds o).freeVehicleOf t o

theorem Moves.removeOrder (h : Moves s₀ s) (t : Nat) : Moves s₀ (s.removeOrder t) := by
  unfold State.removeOrder
  split
  · exact (h.dropOrder t _).fillBacklog
  · exact h

theorem Moves.recallLeg (h : Moves s₀ s) (t : Nat) (o : Order) : Moves s₀ (s.recallLeg t o) := by
  unfold State.recallLeg
  dsimp only
  split
  · exact ((h.withdrawOrderGo t).dropGrant _).standDown _ _
  · exact h.withdrawOrderGo t

theorem Moves.convertTo (h : Moves s₀ s) {t : Nat} (o : Order) (b : Nat) (he : (s.order t).isSome = true) :
    Moves s₀ (s.convertTo t o b) := by
  unfold State.convertTo
  have hp : ((s.whenSome o.destination.bay? State.unpromise).promise b).orders = s.orders := by
    simp [State.whenSome_orders]
  exact ((((((h.whenSome _ fun _ _ h => h.unpromise _).promise b).setOrder _
    (by rw [State.order_of_orders hp]; exact he)).whenSome _ fun _ _ h => h.onReel _ _).callOffEnds o).recallLeg t
      o).requestLeg t

theorem Moves.noSpace (h : Moves s₀ s) {t : Nat} (o : Order) (he : (s.order t).isSome = true) :
    Moves s₀ (s.noSpace t o) := ((h.setOrder _ he).recallLeg t o).raiseSuspended _ _ _ _

theorem Moves.convert (h : Moves s₀ s) (t : Nat) : Moves s₀ (s.convert t) := by
  unfold State.convert
  repeat' split
  all_goals first
    | exact h
    | exact h.convertTo _ _ (by simp_all)
    | exact h.noSpace _ (by simp_all)

theorem Moves.abandonLeg (h : Moves s₀ s) {t : Nat} (o : Order) (he : (s.order t).isSome = true) :
    Moves s₀ (s.abandonLeg t o) := by
  unfold State.abandonLeg
  exact (h.setOrder _ he).whenSome _ fun _ _ h => h.enqueue _

theorem Moves.cancelOrder (h : Moves s₀ s) {t : Nat} (o : Order) (he : (s.order t).isSome = true) :
    Moves s₀ (s.cancelOrder t o) := by
  unfold State.cancelOrder
  repeat' split
  · exact h.abandonLeg o he
  · exact h.convert t
  · exact h.removeOrder t

theorem Moves.displaced (h : Moves s₀ s) (t : Nat) : Moves s₀ (s.displaced t) := by
  unfold State.displaced
  split
  · exact h
  rename_i ho
  split
  · exact h
  rename_i v _
  dsimp only
  have hk := h.keepZone v (s.standingZone v)
  repeat' split
  · exact hk.convert t
  · exact hk.removeOrder t
  · exact hk.requestLeg t
  · refine (hk.setOrder _ ?_).unbind v
    show (s.order t).isSome = true
    simp [ho]

theorem Moves.putHalt (h : Moves s₀ s) (f : VehicleFrame) (q : List VehicleFrame) : Moves s₀ (s.putHalt f q) := by
  unfold State.putHalt
  repeat' split
  all_goals first
    | exact h.setFrames _ _
    | exact (h.setFrames _ _).displaced _

theorem Moves.queueHalt (h : Moves s₀ s) (v : Nat) : Moves s₀ (s.queueHalt v) := by
  unfold State.queueHalt
  split
  · exact h
  · exact h.putHalt _ _

theorem Moves.queueHaltAll (h : Moves s₀ s) : Moves s₀ s.queueHaltAll := h.putHalt _ _

/-! ### Completed and failed legs -/

theorem Moves.takeReel (h : Moves s₀ s) (o : Order) (r v : Nat) : Moves s₀ (s.takeReel o r v) := by
  unfold State.takeReel
  split
  · exact (h.leaveBay _ r).onReel r _
  · refine (h.onPos _ ?_).onReel r _
    rename_i a _
    cases a <;> constructor <;> simp [Position.setArm, Position.setDisposal]
  · exact h.onReel r _

theorem Moves.completeFetch (h : Moves s₀ s) (t v : Nat) : Moves s₀ (s.completeFetch t v) := by
  unfold State.completeFetch
  split
  · exact h
  rename_i o ho
  split
  · exact h
  rename_i r _
  have hl : Moves s₀ ((((s.takeReel o r v).rewatch.onVeh v fun x => { x with load := some r, verified := true }).setOrder t
      { o with progress := 2, reason := none }).requestLeg t) := by
    refine (((h.takeReel o r v).rewatch.onVeh v _).setOrder _ ?_).requestLeg t
    rw [State.order_of_orders (s := s) (by simp)]
    simp [ho]
  dsimp only
  split
  · exact hl.wakeHeldArm _
  · exact hl

theorem Moves.stageReel (h : Moves s₀ s) (p : Nat) (a : Arm) (r : Nat) : Moves s₀ (s.stageReel p a r) := by
  unfold State.stageReel
  refine (h.onReel r _).onPos p ?_
  cases a <;> dsimp only <;> split <;> constructor <;> simp_all [Position.setArm, Position.isWeb]

theorem Moves.dropReel (h : Moves s₀ s) (o : Order) (r : Nat) : Moves s₀ (s.dropReel o r) := by
  unfold State.dropReel
  repeat' split
  · exact ((h.pushBay _ r).unpromise _).rewatch
  · exact (h.stageReel _ _ r).setCallOff _ _ _
  · exact h
  · exact h.delReel r

theorem Moves.completeOrder (h : Moves s₀ s) (t : Nat) (o : Order) (v : Nat) : Moves s₀ (s.completeOrder t o v) :=
  ((((h.whenSome _ fun _ _ h => (h.dropReel _ _).onVeh v _).delOrder t).unbind v).raise _).fillBacklog

theorem Moves.suspend (h : Moves s₀ s) {t : Nat} (o : Order) (r : Reason) (v : Nat) (he : (s.order t).isSome = true) :
    Moves s₀ (s.suspend t o r v) := (h.setOrder _ he).raiseSuspended _ _ _ _

theorem Moves.setLoad (h : Moves s₀ s) (v r : Nat) (b : Bool) : Moves s₀ (s.setLoad v r b) := h.onVeh v _

theorem Moves.legFailed (h : Moves s₀ s) {t : Nat} (o : Order) (v : Nat) (d : DoneResult) (read : Nat)
    (he : (s.order t).isSome = true) : Moves s₀ (s.legFailed t o v d read) := by
  unfold State.legFailed
  repeat' split
  all_goals first
    | exact h.suspend _ _ _ he
    | exact (h.setLoad _ _ _).suspend _ _ _ he

theorem Moves.legAbandoned (h : Moves s₀ s) {t : Nat} (o : Order) (v : Nat) (he : (s.order t).isSome = true) :
    Moves s₀ (s.legAbandoned t o v) := by
  unfold State.legAbandoned
  split
  · exact h.requestLeg t
  · exact (h.setOrder _ he).unbind v

theorem Moves.loadAfter (h : Moves s₀ s) (o : Order) (v : Nat) (d : DoneResult) (read : Nat) :
    Moves s₀ (s.loadAfter o v d read) := by
  unfold State.loadAfter
  repeat' split
  all_goals first
    | exact h
    | exact h.setLoad _ _ _

theorem Moves.doneCancelling (h : Moves s₀ s) {t : Nat} (o : Order) (v : Nat) (d : DoneResult) (read : Nat)
    (he : (s.order t).isSome = true) : Moves s₀ (s.doneCancelling t o v d read) := by
  unfold State.doneCancelling
  split
  · split
    · exact h.completeOrder t o v
    · exact h.removeOrder t
  split
  · split
    · split
      · rename_i r _
        have hl : Moves s₀ ((((s.takeReel o r v).rewatch.onVeh v fun x =>
            { x with load := some r, verified := true }).setOrder t { o with progress := 2 }).convert t) := by
          refine (((h.takeReel o r v).rewatch.onVeh v _).setOrder _ ?_).convert t
          rw [State.order_of_orders (s := s) (by simp)]
          exact he
        dsimp only
        split
        · exact hl.wakeHeldArm _
        · exact hl
      · exact h
    · exact (h.loadAfter o v d read).removeOrder t
  · split
    · exact h.completeOrder t o v
    · exact h.convert t

theorem Moves.doneActive (h : Moves s₀ s) {t : Nat} (o : Order) (v : Nat) (d : DoneResult) (read : Nat)
    (he : (s.order t).isSome = true) : Moves s₀ (s.doneActive t o v d read) := by
  unfold State.doneActive
  repeat' split
  all_goals first
    | exact h.legAbandoned _ _ he
    | exact h.completeOrder _ _ _
    | exact h.completeFetch _ _
    | exact h.legFailed _ _ _ _ he

theorem Moves.orderDone (h : Moves s₀ s) (t v : Nat) (d : DoneResult) (read : Nat) :
    Moves s₀ (s.orderDone t v d read) := by
  unfold State.orderDone
  repeat' split
  · exact h
  · exact h.doneCancelling _ _ _ _ (by simp_all)
  · exact h.doneActive _ _ _ _ (by simp_all)

theorem Moves.loseLeg (h : Moves s₀ s) (v : Nat) : Moves s₀ (s.loseLeg v) := by
  unfold State.loseLeg
  split
  · exact h
  rename_i t _
  split
  · exact h
  rename_i o ho
  have he : (s.order t).isSome = true := by simp [ho]
  split
  · split
    · exact h.removeOrder t
    · exact ((h.setOrder _ he).unbind v).raiseSuspended _ _ _ _
  · split
    · exact h
    · dsimp only
      split
      · exact (h.suspend o _ v he).convert t
      · exact h.suspend o _ v he

theorem Moves.retireOrder (h : Moves s₀ s) (t : Nat) : Moves s₀ (s.retireOrder t) := by
  unfold State.retireOrder
  repeat' split
  · exact h
  · exact ((((((h.withdrawOrderGo t).delOrder t).whenSome _ fun _ _ h => h.delReel _).whenSome _ fun _ _ h =>
      h.unpromise _).callOffEnds _).whenSome _ fun _ _ h => h.unbind _).fillBacklog
  · exact h.removeOrder t

/-! ### Vehicles -/

theorem Moves.raiseFault (h : Moves s₀ s) (v : Nat) (c : FaultCode) (a b d : Nat) : Moves s₀ (s.raiseFault v c a b d) :=
  h.raise _

theorem Moves.faultVehicle (h : Moves s₀ s) (v : Nat) (c : FaultCode) (halt : Bool) :
    Moves s₀ (s.faultVehicle v c halt) := by
  unfold State.faultVehicle
  have h1 := fun r : Nat => ((h.onVeh v fun x =>
    { x with state := .faulted, prior := none, faultCode := some c, offerMs := none, leg := none }).withdrawFor
      v).raiseFault v c 0 r 0
  dsimp only
  generalize (if c = .load then _ else 0 : Nat) = r
  repeat' split
  · exact ((h1 r).loseLeg v).queueHalt v
  · exact (h1 r).queueHalt v
  · exact (h1 r).loseLeg v
  · exact h1 r

theorem Moves.loseVehicle (h : Moves s₀ s) (v : Nat) : Moves s₀ (s.loseVehicle v) := by
  unfold State.loseVehicle
  dsimp only
  split
  · exact (((h.onVeh v _).withdrawFor v).raise _).queueHalt v
  · exact ((((h.onVeh v _).withdrawFor v).raise _).loseLeg v).queueHalt v

theorem Moves.silenceEvent (h : Moves s₀ s) (v : Nat) : Moves s₀ (s.silenceEvent v) := by
  unfold State.silenceEvent
  split
  · exact h.loseVehicle v
  · exact h

theorem Moves.offerEvent (h : Moves s₀ s) (v : Nat) : Moves s₀ (s.offerEvent v) := by
  unfold State.offerEvent
  split
  · exact h.faultVehicle v _ _
  · exact h

theorem Moves.judgeHold (h : Moves s₀ s) (t : Nat) : Moves s₀ (s.judgeHold t) := by
  unfold State.judgeHold
  repeat' split
  · exact h
  · exact (h.setOrder _ (by simp_all)).raise _
  · exact h

theorem Moves.judgeHolds (h : Moves s₀ s) : Moves s₀ s.judgeHolds := h.forEach _ fun _ _ h => h.judgeHold _

theorem Moves.takeLoad (h : Moves s₀ s) (v r : Nat) : Moves s₀ (s.takeLoad v r) := h.setLoad _ _ _

theorem Moves.joinAbsent (h : Moves s₀ s) (v node load battery : Nat) : Moves s₀ (s.joinAbsent v node load battery) := by
  unfold State.joinAbsent
  repeat' split
  · exact ((h.setVeh v _).giveZones v _).takeLoad v load
  · exact (h.raise _).queueHalt v
  · exact (h.raise _).queueHalt v

theorem Moves.rejoinNode (h : Moves s₀ s) (v node : Nat) : Moves s₀ (s.rejoinNode v node) := by
  unfold State.rejoinNode
  repeat' split
  all_goals first
    | exact h.onVeh v _
    | exact h.raiseFault _ _ _ _ _
    | exact (h.giveZones v _).onVeh v _

theorem Moves.rejoinLoad (h : Moves s₀ s) (v load : Nat) : Moves s₀ (s.rejoinLoad v load) := by
  unfold State.rejoinLoad
  dsimp only
  repeat' split
  · exact h
  · exact (h.onVeh v _).raiseFault _ _ _ _ _
  · exact h.takeLoad v load

theorem Moves.rejoin (h : Moves s₀ s) (v node load battery : Nat) : Moves s₀ (s.rejoin v node load battery) :=
  (((h.faultVehicle v _ _).onVeh v _).rejoinNode v node).rejoinLoad v load

theorem Moves.activate (h : Moves s₀ s) (t : Nat) : Moves s₀ (s.activate t) := h.onOrder t _

theorem Moves.takeFrame (h : Moves s₀ s) (v tag index : Nat) : Moves s₀ (s.takeFrame v tag index) := by
  unfold State.takeFrame
  dsimp only
  repeat' split
  all_goals first
    | exact h
    | exact (h.onVeh v _).activate tag

theorem Moves.passFrame (h : Moves s₀ s) (v zone : Nat) : Moves s₀ (s.passFrame v zone) := by
  unfold State.passFrame
  dsimp only
  split
  · exact (h.step (.free _)).onVeh v _
  · exact h.faultVehicle v _ _

theorem Moves.standAt (h : Moves s₀ s) (v node : Nat) : Moves s₀ (s.standAt v node) := (h.onVeh v _).keepZone v _

theorem Moves.doneFrame (h : Moves s₀ s) (v tag index : Nat) (d : DoneResult) (node read : Nat) :
    Moves s₀ (s.doneFrame v tag index d node read) := by
  unfold State.doneFrame
  dsimp only
  repeat' split
  all_goals first
    | exact h
    | exact (h.standAt v node).orderDone tag v d read
    | exact h.faultVehicle v _ _

theorem Moves.aliveNode (h : Moves s₀ s) (v node : Nat) : Moves s₀ (s.aliveNode v node) := by
  unfold State.aliveNode
  dsimp only
  repeat' split
  all_goals first
    | exact h
    | exact h.onVeh v _
    | exact h.faultVehicle v _ _

theorem Moves.aliveFrame (h : Moves s₀ s) (v battery node : Nat) : Moves s₀ (s.aliveFrame v battery node) :=
  (h.onVeh v _).aliveNode v node

theorem Moves.readyFrame (h : Moves s₀ s) (v : Nat) : Moves s₀ (s.readyFrame v) := by
  unfold State.readyFrame
  dsimp only
  repeat' split
  all_goals first
    | exact h
    | exact (h.keepZone v _).onVeh v _
    | exact ((h.keepZone v _).onVeh v _).requestLeg _

theorem Moves.heard (h : Moves s₀ s) (v : Nat) {f : State → State} (hf : ∀ s, Moves s₀ s → Moves s₀ (f s)) :
    Moves s₀ (s.heard v f) := by
  unfold State.heard
  dsimp only
  split
  · exact (h.onVeh v _).faultVehicle v _ _
  · exact hf _ (h.onVeh v _)

theorem Moves.vehicleFrame (h : Moves s₀ s) (v : Nat) {f : State → State} (hf : ∀ s, Moves s₀ s → Moves s₀ (f s)) :
    Moves s₀ (s.vehicleFrame v f) := by
  unfold State.vehicleFrame
  dsimp only
  repeat' split
  · exact (h.queueHalt v).close _ _
  · exact (h.heard v hf).close _ _
  · exact h

theorem Moves.joinFrame (h : Moves s₀ s) (v node load battery : Nat) : Moves s₀ (s.joinFrame v node load battery) := by
  unfold State.joinFrame
  repeat' split
  · exact (h.queueHalt v).close _ _
  · exact (h.joinAbsent v node load battery).close _ _
  · exact ((h.onVeh v _).rejoin v node load battery).close _ _
  · exact h

theorem Moves.stopVehicle (h : Moves s₀ s) (v : Nat) : Moves s₀ (s.stopVehicle v) := by
  unfold State.stopVehicle
  repeat' split
  all_goals first
    | exact h
    | exact h.onVeh v _
    | exact (h.withdrawGo v).onVeh v _

theorem Moves.estopVehicle (h : Moves s₀ s) (v : Nat) : Moves s₀ (s.estopVehicle v) := by
  unfold State.estopVehicle
  repeat' split
  all_goals first
    | exact h
    | exact h.onVeh v _

theorem Moves.sendGoAgain (h : Moves s₀ s) (v t : Nat) : Moves s₀ (s.sendGoAgain v t) := by
  unfold State.sendGoAgain
  repeat' split
  · exact h
  · exact h
  · exact (h.setOrder _ (by simp_all)).enqueue _

theorem Moves.resumeVehicle (h : Moves s₀ s) (v : Nat) : Moves s₀ (s.resumeVehicle v) := by
  unfold State.resumeVehicle
  dsimp only
  split
  · exact (h.onVeh v _).enqueue _
  · exact (h.onVeh v _).whenSome _ fun _ _ h => h.sendGoAgain v _
  · exact h

theorem Moves.goSent (h : Moves s₀ s) (v t i n : Nat) (zs : List Nat) : Moves s₀ (s.goSent v t i n zs) := by
  unfold State.goSent
  dsimp only
  repeat' split
  · exact h
  · exact (h.setOrder _ (by simp_all)).onVeh v _
  · exact h

theorem Moves.frameSent (h : Moves s₀ s) (f : VehicleFrame) : Moves s₀ (s.frameSent f) := by
  cases f with
  | go v t i n a zs => exact h.goSent v t i n zs
  | halt v => exact h
  | resume v => exact h
  | abandon v t i => exact h

end Sys2Proof.Machine
end

