-- ==== Sys2Proof/Laws/Reads.lean ====
section
/-!
SUPPORT. What a read of a table's entry gives after its update, what an update of one position or vehicle leaves alone, and what raising a
notice does: it changes the notices alone, and they depend only on the notices and the clock it finds (R185, R186).
-/

namespace Sys2Proof.Machine

variable (s : State)

/-! ### Entries read back -/

@[simp] theorem State.pos_setPos_same (p x) : (s.setPos p x).pos p = x := by simp [State.pos, State.setPos]
@[simp] theorem State.pos_setPos_other {k p : Nat} (h : k ≠ p) (x) : (s.setPos p x).pos k = s.pos k := by
  simp [State.pos, State.setPos, Table.find_insert_other _ h]
@[simp] theorem State.onPos_pos_same (p f) : (s.onPos p f).pos p = f (s.pos p) := by simp [State.onPos]
@[simp] theorem State.onPos_pos_other {k p : Nat} (h : k ≠ p) (f) : (s.onPos p f).pos k = s.pos k := by simp [State.onPos, h]
@[simp] theorem State.setPos_setPos (p x y) : (s.setPos p x).setPos p y = s.setPos p y := by simp [State.setPos]
@[simp] theorem State.veh_setVeh_same (p x) : (s.setVeh p x).veh p = x := by simp [State.veh, State.setVeh]
@[simp] theorem State.veh_setVeh_other {k p : Nat} (h : k ≠ p) (x) : (s.setVeh p x).veh k = s.veh k := by
  simp [State.veh, State.setVeh, Table.find_insert_other _ h]
@[simp] theorem State.onVeh_veh_same (p f) : (s.onVeh p f).veh p = f (s.veh p) := by simp [State.onVeh]
@[simp] theorem State.onVeh_veh_other {k p : Nat} (h : k ≠ p) (f) : (s.onVeh p f).veh k = s.veh k := by simp [State.onVeh, h]
@[simp] theorem State.setVeh_setVeh (p x y) : (s.setVeh p x).setVeh p y = s.setVeh p y := by simp [State.setVeh]
@[simp] theorem State.reel_setReel_same (p x) : (s.setReel p x).reel p = some x := by simp [State.reel, State.setReel]
@[simp] theorem State.reel_setReel_other {k p : Nat} (h : k ≠ p) (x) : (s.setReel p x).reel k = s.reel k := by
  simp [State.reel, State.setReel, Table.find_insert_other _ h]
@[simp] theorem State.line_setLine_same (p x) : (s.setLine p x).line p = x := by simp [State.line, State.setLine]
@[simp] theorem State.line_setLine_other {k p : Nat} (h : k ≠ p) (x) : (s.setLine p x).line k = s.line k := by
  simp [State.line, State.setLine, Table.find_insert_other _ h]
@[simp] theorem State.onLine_line_same (p f) : (s.onLine p f).line p = f (s.line p) := by simp [State.onLine]
@[simp] theorem State.onLine_line_other {k p : Nat} (h : k ≠ p) (f) : (s.onLine p f).line k = s.line k := by simp [State.onLine, h]
@[simp] theorem State.web_setWeb_same (p x) : (s.setWeb p x).web p = x := by simp [State.web, State.setWeb]
@[simp] theorem State.web_setWeb_other {k p : Nat} (h : k ≠ p) (x) : (s.setWeb p x).web k = s.web k := by
  simp [State.web, State.setWeb, Table.find_insert_other _ h]

/-! ### What the update of one position or one vehicle leaves alone -/

@[simp] theorem State.onPos_pending (p f) : (s.onPos p f).pending = s.pending := rfl
@[simp] theorem State.onPos_link (p f) : (s.onPos p f).link = s.link := rfl
@[simp] theorem State.onPos_clock (p f) : (s.onPos p f).clock = s.clock := rfl
@[simp] theorem State.onPos_nodes (p f) : (s.onPos p f).nodes = s.nodes := rfl
@[simp] theorem State.onPos_routes (p f) : (s.onPos p f).routes = s.routes := rfl
@[simp] theorem State.onPos_reels (p f) : (s.onPos p f).reels = s.reels := rfl
@[simp] theorem State.onPos_rest (p f) : (s.onPos p f).rest = s.rest := rfl
@[simp] theorem State.onPos_bays (p f) : (s.onPos p f).bays = s.bays := rfl
@[simp] theorem State.onPos_demands (p f) : (s.onPos p f).demands = s.demands := rfl
@[simp] theorem State.onPos_vehicles (p f) : (s.onPos p f).vehicles = s.vehicles := rfl
@[simp] theorem State.onPos_locks (p f) : (s.onPos p f).locks = s.locks := rfl
@[simp] theorem State.onPos_vlink (p f) : (s.onPos p f).vlink = s.vlink := rfl
@[simp] theorem State.onPos_vconfig (p f) : (s.onPos p f).vconfig = s.vconfig := rfl
@[simp] theorem State.onPos_estop (p f) : (s.onPos p f).estop = s.estop := rfl
@[simp] theorem State.onPos_sampler (p f) : (s.onPos p f).sampler = s.sampler := rfl
@[simp] theorem State.onPos_webs (p f) : (s.onPos p f).webs = s.webs := rfl
@[simp] theorem State.onPos_lines (p f) : (s.onPos p f).lines = s.lines := rfl
@[simp] theorem State.onPos_slots (p f) : (s.onPos p f).slots = s.slots := rfl
@[simp] theorem State.onPos_notices (p f) : (s.onPos p f).notices = s.notices := rfl
@[simp] theorem State.onVeh_pending (p f) : (s.onVeh p f).pending = s.pending := rfl
@[simp] theorem State.onVeh_link (p f) : (s.onVeh p f).link = s.link := rfl
@[simp] theorem State.onVeh_clock (p f) : (s.onVeh p f).clock = s.clock := rfl
@[simp] theorem State.onVeh_nodes (p f) : (s.onVeh p f).nodes = s.nodes := rfl
@[simp] theorem State.onVeh_routes (p f) : (s.onVeh p f).routes = s.routes := rfl
@[simp] theorem State.onVeh_reels (p f) : (s.onVeh p f).reels = s.reels := rfl
@[simp] theorem State.onVeh_rest (p f) : (s.onVeh p f).rest = s.rest := rfl
@[simp] theorem State.onVeh_bays (p f) : (s.onVeh p f).bays = s.bays := rfl
@[simp] theorem State.onVeh_demands (p f) : (s.onVeh p f).demands = s.demands := rfl
@[simp] theorem State.onVeh_locks (p f) : (s.onVeh p f).locks = s.locks := rfl
@[simp] theorem State.onVeh_vlink (p f) : (s.onVeh p f).vlink = s.vlink := rfl
@[simp] theorem State.onVeh_vconfig (p f) : (s.onVeh p f).vconfig = s.vconfig := rfl
@[simp] theorem State.onVeh_estop (p f) : (s.onVeh p f).estop = s.estop := rfl
@[simp] theorem State.onVeh_sampler (p f) : (s.onVeh p f).sampler = s.sampler := rfl
@[simp] theorem State.onVeh_webs (p f) : (s.onVeh p f).webs = s.webs := rfl
@[simp] theorem State.onVeh_lines (p f) : (s.onVeh p f).lines = s.lines := rfl
@[simp] theorem State.onVeh_slots (p f) : (s.onVeh p f).slots = s.slots := rfl
@[simp] theorem State.onVeh_notices (p f) : (s.onVeh p f).notices = s.notices := rfl
@[simp] theorem State.onVeh_positions (p f) : (s.onVeh p f).positions = s.positions := rfl

/-! ### Raising a notice -/

/-- Raising a notice changes the notices alone. -/
theorem State.raise_eq (b) : s.raise b = { s with notices := (s.raise b).notices } := by
  unfold State.raise; simp only; split <;> rfl
@[simp] theorem State.raise_reels (b) : (s.raise b).reels = s.reels := by rw [raise_eq]
@[simp] theorem State.raise_positions (b) : (s.raise b).positions = s.positions := by rw [raise_eq]
@[simp] theorem State.raise_pos (b p) : (s.raise b).pos p = s.pos p := by simp [State.pos]
@[simp] theorem State.raise_reel (b p) : (s.raise b).reel p = s.reel p := by simp [State.reel]
@[simp] theorem State.raise_vehicles (b) : (s.raise b).vehicles = s.vehicles := by rw [raise_eq]
@[simp] theorem State.raise_veh (b p) : (s.raise b).veh p = s.veh p := by simp [State.veh]
@[simp] theorem State.raise_locks (b) : (s.raise b).locks = s.locks := by rw [raise_eq]
@[simp] theorem State.raise_demands (b) : (s.raise b).demands = s.demands := by rw [raise_eq]
@[simp] theorem State.raise_lines (b) : (s.raise b).lines = s.lines := by rw [raise_eq]
@[simp] theorem State.raise_webs (b) : (s.raise b).webs = s.webs := by rw [raise_eq]
@[simp] theorem State.raise_clock (b) : (s.raise b).clock = s.clock := by rw [raise_eq]
@[simp] theorem State.raise_bays (b) : (s.raise b).bays = s.bays := by rw [raise_eq]
@[simp] theorem State.raise_nodes (b) : (s.raise b).nodes = s.nodes := by rw [raise_eq]
@[simp] theorem State.raise_vlink (b) : (s.raise b).vlink = s.vlink := by rw [raise_eq]
@[simp] theorem State.raise_estop (b) : (s.raise b).estop = s.estop := by rw [raise_eq]

/-- What raising a notice makes of the notices depends on the notices and the clock alone. -/
theorem State.raise_notices_congr {s t : State} (h : s.notices = t.notices) (hc : s.clock = t.clock) (b) :
    (s.raise b).notices = (t.raise b).notices := by
  unfold State.raise State.handling; rw [h, hc]; simp only; split <;> simp [h]

/-! ### The response of a source (R184) -/

theorem State.reacts_iff (k) : s.reacts k = true ↔ (s.handling k).mode = .auto ∨ (s.handling k).mode = .both := by
  unfold State.reacts NoticeMode.reacts; cases (s.handling k).mode <;> simp
theorem State.reacts_false_iff (k) : s.reacts k = false ↔ (s.handling k).mode = .report ∨ (s.handling k).mode = .off := by
  unfold State.reacts NoticeMode.reacts; cases (s.handling k).mode <;> simp

end Sys2Proof.Machine
end

