-- ==== Sys2Proof/Laws/Butts.lean ====
section
/-!
SUPPORT. Two shared operations, each said once: what making a butt does to the part (`State.makeButt_spec`: R7, R102, R103, with the answer of
the BUTT source of R49), and what a write of an envelope slot does (`State.writeSlot_changed`: R145, R151).
-/

namespace Sys2Proof.Machine

@[simp] theorem State.whenSome_some {α : Type} (s : State) (a : α) (f : State → α → State) : s.whenSome (some a) f = f s a := rfl
@[simp] theorem State.whenSome_none {α : Type} (s : State) (f : State → α → State) : s.whenSome none f = s := rfl

/-- A write of a slot changes the slot and, where that is a change, the selections that name it (R145, R151). -/
theorem State.writeSlot_changed (s : State) (k : Nat) (e : Option Envelope) : SlotChanged s (s.writeSlot k e) k e := by
  have lines : ∀ l, (s.setSlot k e).line l = s.line l := fun l => by cases e <;> rfl
  unfold State.writeSlot
  split
  · rename_i h
    constructor <;> simp [h]
  · rename_i h
    constructor
    · cases e <;> simp [State.slot, State.onLine, State.setSlot, State.setLine]
    · intro j hj
      cases e <;> simp [State.slot, State.onLine, State.setSlot, State.setLine, Table.find_insert_other _ hj, Table.find_erase_other _ hj]
    · exact fun hh => absurd hh h
    · intro _ l hl
      simp only [List.mem_cons, List.not_mem_nil, or_false] at hl
      rcases hl with rfl | rfl
      · rw [State.onLine_line_other _ (by decide)]
        simp [Line.deselect, lines]
      · simp [Line.deselect, lines]
    · cases e <;> rfl

/-! ### The parts of making a butt -/

/-- The disposal status just written. -/
@[simp] theorem Position.disposal_setDisposal (x : Position) (a : Arm) (d : Option Disposal) : (x.setDisposal a d).disposal a = d := by
  cases a <;> rfl

theorem State.onReel_of {s : State} {r : Nat} {y : Reel} (f : Reel → Reel) (h : s.reel r = some y) :
    s.onReel r f = s.setReel r (f y) := by
  unfold State.onReel
  rw [h]

theorem State.tallyPaper_eq (s : State) (l n : Nat) : s.tallyPaper l n = { s with lines := (s.tallyPaper l n).lines } := by
  unfold State.tallyPaper
  split <;> rfl

theorem State.promise_eq (s : State) (b : Nat) : s.promise b = { s with bays := (s.promise b).bays } := by
  unfold State.promise State.onBay
  split <;> rfl

theorem State.promise_bay {s : State} {b : Nat} {c : Bay} (h : s.bay b = some c) :
    (s.promise b).bay b = some { c with inbound := c.inbound + 1 } := by
  unfold State.promise State.onBay
  rw [h]
  simp [State.bay, State.setBay]

/-- The whole state after a RETURN of the reel `r` to bay `b` is created (R49). -/
theorem State.createOrder_return_eq {s : State} {r : Nat} {y : Reel} (q : Priority) (p : Nat) (a : Arm) (b : Nat) (hy : s.reel r = some y) :
    s.createOrder ⟨.ret, q, some r, .arm p (some a), .bay b 0, some p, none⟩ =
    { s with
      reels := s.reels.insert r { y with tag := some s.nextTag }
      bays := (s.promise b).bays
      orders := { s.orders with
        table := s.orders.table.insert s.nextTag (s.newOrder ⟨.ret, q, some r, .arm p (some a), .bay b 0, some p, none⟩)
        lastTag := s.nextTag, nextSequence := s.orders.nextSequence + 1 } } := by
  have bays : ∀ t : State, t.bays = s.bays → (t.promise b).bays = (s.promise b).bays := by
    intro t h
    unfold State.promise State.onBay State.bay
    rw [h]
    split <;> simp [State.setBay, h]
  simp only [State.createOrder, State.whenSome_some, Place.bay?]
  have onReel : ∀ f, ({ s with orders := { s.orders with
        table := s.orders.table.insert s.nextTag (s.newOrder ⟨.ret, q, some r, .arm p (some a), .bay b 0, some p, none⟩)
        lastTag := s.nextTag, nextSequence := s.orders.nextSequence + 1 } } : State).onReel r f = { s with
      reels := s.reels.insert r (f y)
      orders := { s.orders with
        table := s.orders.table.insert s.nextTag (s.newOrder ⟨.ret, q, some r, .arm p (some a), .bay b 0, some p, none⟩)
        lastTag := s.nextTag, nextSequence := s.orders.nextSequence + 1 } } := fun f => State.onReel_of f hy
  rw [onReel, State.promise_eq]
  simp only [State.mk.injEq, true_and, and_true]
  exact bays _ rfl

/-- The whole state after a CLEAR of the reel `r` to node `n` is created (R49). -/
theorem State.createOrder_clear_eq {s : State} {r : Nat} {y : Reel} (q : Priority) (p : Nat) (a : Arm) (n : Nat) (hy : s.reel r = some y) :
    s.createOrder ⟨.clear, q, some r, .arm p (some a), .node n, some p, none⟩ =
    { s with
      reels := s.reels.insert r { y with tag := some s.nextTag }
      orders := { s.orders with
        table := s.orders.table.insert s.nextTag (s.newOrder ⟨.clear, q, some r, .arm p (some a), .node n, some p, none⟩)
        lastTag := s.nextTag, nextSequence := s.orders.nextSequence + 1 } } := by
  simp only [State.createOrder, State.whenSome_some, Place.bay?, State.whenSome_none]
  exact State.onReel_of _ hy

/-- What the BUTT source does once the reel `r` of arm `a` has its butt's record and its paper is tallied (R49, R102): `v` is the part then,
`t` the part after it, before the notice. -/
theorem State.butt_answered {s t v : State} {p r d : Nat} {a : Arm} {x : Position} {y : Reel} {k : DisposalKind} (hx : s.pos p = x)
    (ha : x.arm a = some r) (hk : k = if x.params.returnDiameter ≤ d then .ret else .clear)
    (hve : v = { s with reels := s.reels.insert r { y with state := .butt, diameter := d, origin := .returned }, lines := v.lines })
    (ht : t = if s.reacts 9 then v.answerButt p a d else v.onPos p fun y => y.setDisposal a (some .manual)) :
    ∃ status, t.pos p = x.setDisposal a (some status) ∧ (∀ j, j ≠ p → t.pos j = s.pos j) ∧ t.notices = s.notices ∧ t.clock = s.clock ∧
      t.demands = s.demands ∧ t.webs = s.webs ∧ t.lines = v.lines ∧ (∀ q, q ≠ r → t.reel q = s.reel q) ∧
      (status = .ordered →
        t.reel r = some { y with state := .butt, diameter := d, origin := .returned, tag := some s.nextTag }) ∧
      (status ≠ .ordered → t.reel r = some { y with state := .butt, diameter := d, origin := .returned }) ∧
      ButtAnswered s t p a r d y k := by
  set Y : Reel := { y with state := .butt, diameter := d, origin := .returned } with hY
  have hvp : ∀ j, v.pos j = s.pos j := fun j => by rw [hve]; rfl
  have hvr : v.reel r = some Y := by
    rw [hve]
    simp [State.reel]
  have hvq : ∀ q, q ≠ r → v.reel q = s.reel q := fun q hq => by
    rw [hve]
    simp [State.reel, Table.find_insert_other _ hq]
  have hvo : v.orders = s.orders := by rw [hve]
  obtain ⟨n1, n2, n3, n4, n5, n6⟩ : v.notices = s.notices ∧ v.clock = s.clock ∧ v.demands = s.demands ∧ v.bays = s.bays ∧
      v.nodes = s.nodes ∧ v.webs = s.webs := by
    rw [hve]
    exact ⟨rfl, rfl, rfl, rfl, rfl, rfl⟩
  have hnt : v.nextTag = s.nextTag := by
    unfold State.nextTag State.orderCount
    rw [hvo]
  have hbp : v.buttPriority p .normal = s.buttPriority p .normal := by
    unfold State.buttPriority State.deliverUrgent State.deliverOf State.order
    rw [hvo]
  have hno : ∀ n, v.newOrder n = s.newOrder n := by
    intro n
    unfold State.newOrder
    rw [n2, hvo]
  have hauto : v.autoBay y.grade y.width none = (s.setReel r Y).autoBay y.grade y.width none := by
    unfold State.autoBay State.hasRoom State.topFree State.topMatches
    have : ∀ q, v.reel q = (s.setReel r Y).reel q := by
      intro q
      rw [hve]
      rfl
    simp only [this, n4]
    rfl
  by_cases h9 : s.reacts 9 = true
  · have hm := (State.reacts_iff s 9).1 h9
    have hnm : ¬ ((s.handling 9).mode = .report ∨ (s.handling 9).mode = .off) := by rcases hm with h | h <;> simp [h]
    rw [if_pos h9] at ht
    unfold State.answerButt at ht
    rw [hvp, hx, ← hk] at ht
    have hfull : v.ordersFull = s.ordersFull := by
      unfold State.ordersFull State.orderCount
      rw [hvo]
    rw [hfull] at ht
    cases hf : s.ordersFull with
    | true =>
      rw [hf, if_pos rfl] at ht
      have hany : (v.orders.backlog.any fun j => decide (j.slot = (BacklogItem.disposal p a k (s.buttPriority p .normal)).slot)) =
          s.orders.backlog.any fun j => j.isDisposalOf p a := by
        rw [hvo]
        congr 1
        funext j
        cases j <;> simp [BacklogItem.slot, BacklogItem.isDisposalOf]
      have hjb : v.joinBacklog (.disposal p a k (v.buttPriority p .normal)) = { v with orders := { s.orders with
          backlog := if s.orders.backlog.any (fun j => j.isDisposalOf p a) then s.orders.backlog
            else s.orders.backlog ++ [.disposal p a k (s.buttPriority p .normal)] } } := by
        unfold State.joinBacklog
        rw [hbp, hany]
        split
        · rw [← hvo]
        · unfold State.setBacklog
          rw [hvo]
      rw [hjb] at ht
      subst ht
      refine ⟨.backlog, ?_, ?_, by simpa using n1, by simpa using n2, by simpa using n3, by simpa using n6, by simp,
              ?_, by simp, ?_, ?_⟩
      · simp [State.pos, State.onPos, State.setPos]
        have := hvp p
        simp only [State.pos] at this
        rw [this, ← hx]
        rfl
      · exact fun j hj => (State.onPos_pos_other _ hj _).trans (hvp j)
      · exact fun q hq => hvq q hq
      · intro _
        exact hvr
      · constructor
        · exact fun h => absurd h hnm
        · intro _ _
          refine ⟨by simp [State.pos, State.onPos, State.setPos], ?_, ?_⟩
          · intro h
            simp only [State.onPos_orders]
            have : (s.orders.backlog.any (fun j => j.isDisposalOf p a)) = false := by
              rw [List.any_eq_false]
              intro i hi
              simp [h i hi]
            rw [this]
            rfl
          · intro ⟨i, hi, h⟩
            simp only [State.onPos_orders]
            have : (s.orders.backlog.any (fun j => j.isDisposalOf p a)) = true := by
              rw [List.any_eq_true]
              exact ⟨i, hi, h⟩
            rw [this]
            rfl
        · simp [hf]
        · simp [hf]
        · simp [hf]
    | false =>
      rw [hf] at ht
      simp only [Bool.false_eq_true, if_false] at ht
      unfold State.makeDisposal at ht
      rw [hvp, hx, ha] at ht
      simp only [hvr] at ht
      have hYg : Y.grade = y.grade ∧ Y.width = y.width := ⟨rfl, rfl⟩
      cases hkk : k with
      | ret =>
        rw [hkk] at ht
        simp only [hYg.1, hYg.2, hauto] at ht
        cases hb : (s.setReel r Y).autoBay y.grade y.width none with
        | none =>
          simp only [hb] at ht
          subst ht
          refine ⟨.noBay, by simp [hvp, hx], ?_, by simpa using n1, by simpa using n2, by simpa using n3, by simpa using n6, by simp,
              fun q hq => hvq q hq, by simp, fun _ => hvr, ?_⟩
          · exact fun j hj => (State.onPos_pos_other _ hj _).trans (hvp j)
          · constructor
            · exact fun h => absurd h hnm
            · simp [hf]
            · simp [← hY, hb]
            · intro _ _ _ _
              exact ⟨by simp, hvo⟩
            · simp
        | some b =>
          simp only [hb] at ht
          unfold State.makeReturn at ht
          rw [State.createOrder_return_eq _ _ _ _ hvr, hnt, hno, hbp] at ht
          subst ht
          refine ⟨.ordered, ?_, ?_, by simpa using n1, by simpa using n2, by simpa using n3, by simpa using n6, by simp,
              ?_, ?_, by simp, ?_⟩
          · simp [State.pos, State.onPos, State.setPos]
            have := hvp p
            simp only [State.pos] at this
            rw [this, ← hx]
            rfl
          · exact fun j hj => (State.onPos_pos_other _ hj _).trans (hvp j)
          · intro q hq
            simp [State.reel, Table.find_insert_other _ hq]
            exact hvq q hq
          · intro _
            simp [State.reel, hY]
          · constructor
            · exact fun h => absurd h hnm
            · simp [hf]
            · intro _ _ _ b' h
              rw [hb] at h
              simp at h
              subst h
              refine ⟨by simp [State.pos, State.onPos, State.setPos], by simp [State.order], ?_, by simp [hvo], ?_, ?_⟩
              · intro t ht
                simp [State.order, Table.find_insert_other _ ht, hvo]
              · simp [State.reel, hY]
              · intro c hc
                have := State.promise_bay (s := v) (b := b) (c := c) (by simpa [State.bay, n4] using hc)
                simpa [State.bay] using this
            · simp [← hY, hb]
            · simp
      | clear =>
        rw [hkk] at ht
        have hnk : v.nodeOfKind .waste = s.nodeOfKind .waste := by
          unfold State.nodeOfKind
          rw [n5]
        simp only [hnk] at ht
        cases hn : s.nodeOfKind .waste with
        | none =>
          simp only [hn] at ht
          subst ht
          refine ⟨.manual, by simp [hvp, hx], ?_, by simpa using n1, by simpa using n2, by simpa using n3, by simpa using n6, by simp,
              fun q hq => hvq q hq, by simp, fun _ => hvr, ?_⟩
          · exact fun j hj => (State.onPos_pos_other _ hj _).trans (hvp j)
          · constructor
            · exact fun h => absurd h hnm
            · simp [hf]
            · simp
            · simp
            · simp [hn]
        | some n =>
          simp only [hn] at ht
          unfold State.makeClear at ht
          rw [State.createOrder_clear_eq _ _ _ _ hvr, hnt, hno, hbp] at ht
          subst ht
          refine ⟨.ordered, ?_, ?_, by simpa using n1, by simpa using n2, by simpa using n3, by simpa using n6, by simp,
              ?_, ?_, by simp, ?_⟩
          · simp [State.pos, State.onPos, State.setPos]
            have := hvp p
            simp only [State.pos] at this
            rw [this, ← hx]
            rfl
          · exact fun j hj => (State.onPos_pos_other _ hj _).trans (hvp j)
          · intro q hq
            simp [State.reel, Table.find_insert_other _ hq]
            exact hvq q hq
          · intro _
            simp [State.reel, hY]
          · constructor
            · exact fun h => absurd h hnm
            · simp [hf]
            · simp
            · simp
            · intro _ _ _ n' h
              rw [hn] at h
              simp at h
              subst h
              refine ⟨by simp [State.pos, State.onPos, State.setPos], by simp [State.order], ?_, by simp [hvo], ?_⟩
              · intro t ht
                simp [State.order, Table.find_insert_other _ ht, hvo]
              · simp [State.reel, hY]
  · rw [if_neg h9] at ht
    simp only [Bool.not_eq_true] at h9
    have hm := (State.reacts_false_iff s 9).1 h9
    have hnm : ¬ ((s.handling 9).mode = .auto ∨ (s.handling 9).mode = .both) := by rcases hm with h | h <;> simp [h]
    subst ht
    refine ⟨.manual, by simp [hvp, hx], ?_, by simpa using n1, by simpa using n2, by simpa using n3, by simpa using n6, by simp,
              fun q hq => hvq q hq, by simp, fun _ => hvr, ?_⟩
    · exact fun j hj => (State.onPos_pos_other _ hj _).trans (hvp j)
    · constructor
      · intro _
        exact ⟨by simp, hvo⟩
      all_goals exact fun h => absurd h hnm

/-- Everything that making a butt of the reel `r` on arm `a` does to the reels, the positions, the disposal, the run's paper and the notices
(R7, R102, R103, R159), with the answer of the BUTT source. -/
theorem State.makeButt_spec {s : State} {p r d paper : Nat} {a : Arm} {x : Position} {y : Reel} {k : DisposalKind} (hx : s.pos p = x)
    (ha : x.arm a = some r) (hy : s.reel r = some y) (hk : k = if x.params.returnDiameter ≤ d then .ret else .clear)
    (hp : paper = if x.params.returnDiameter ≤ d ∨ d ≤ x.params.coreDiameter then 0
      else (d * d - x.params.coreDiameter * x.params.coreDiameter) * 7854 / (10 * y.caliper)) :
    ButtAnswered s (s.makeButt p a d) p a r d y k ∧
    (∃ status order, ((s.makeButt p a d).pos p) = x.setDisposal a (some status) ∧
      (status = .ordered → ∃ y', (s.makeButt p a d).reel r = some y' ∧ y'.tag = some order) ∧ (status ≠ .ordered → order = 0) ∧
      (s.makeButt p a d).notices = (s.raise (.butt p a r d paper status order)).notices) ∧
    (∃ y', (s.makeButt p a d).reel r = some y' ∧ y'.state = .butt ∧ y'.diameter = d ∧ y'.origin = .returned) ∧
    (∀ q, q ≠ r → (s.makeButt p a d).reel q = s.reel q) ∧ (∀ j, j ≠ p → (s.makeButt p a d).pos j = s.pos j) ∧
    (s.makeButt p a d).lines = (s.tallyPaper (lineOfPosition p) paper).lines ∧
    (s.makeButt p a d).demands = s.demands ∧ (s.makeButt p a d).clock = s.clock ∧ (s.makeButt p a d).webs = s.webs := by
  have hpap : x.buttPaper d y.caliper = paper := by
    rw [hp]
    unfold Position.buttPaper paperLength
    split <;> (try split) <;> (try split) <;> (first | rfl | omega)
  obtain ⟨v, hv⟩ : ∃ v, v = (s.setReel r { y with state := .butt, diameter := d, origin := .returned }).tallyPaper (lineOfPosition p) paper :=
    ⟨_, rfl⟩
  have hvl : v.lines = (s.tallyPaper (lineOfPosition p) paper).lines := by
    rw [hv]
    unfold State.tallyPaper
    show (if (s.line (lineOfPosition p)).run.state = .active then _ else _ : State).lines = _
    split <;> rfl
  have hve : v = { s with reels := s.reels.insert r { y with state := .butt, diameter := d, origin := .returned }, lines := v.lines } := by
    rw [hv, State.tallyPaper_eq]
    rfl
  obtain ⟨t, ht⟩ : ∃ t, t = if s.reacts 9 then v.answerButt p a d else v.onPos p fun y => y.setDisposal a (some .manual) := ⟨_, rfl⟩
  obtain ⟨status, hp', hpos, hn, hc, hd, hw, hl, hq, hord, hnot, ans⟩ := State.butt_answered hx ha hk hve ht
  have hu : s.makeButt p a d = t.raise (.butt p a r d paper status (t.buttTag r status)) := by
    have reacts : v.reacts 9 = s.reacts 9 := by
      rw [hve]
      rfl
    unfold State.makeButt
    simp only [hx, ha, hy, Option.map_some, Option.getD_some, hpap, State.onReel_of _ hy]
    rw [← hv, reacts, ← ht, hp', Position.disposal_setDisposal]
    rfl
  rw [hu]
  refine ⟨?_, ⟨status, t.buttTag r status, by rw [State.raise_pos, hp'], ?_, ?_, State.raise_notices_congr hn hc _⟩, ?_,
    fun q h => by rw [State.raise_reel, hq q h], fun j h => by rw [State.raise_pos, hpos j h], by rw [State.raise_lines, hl, hvl],
    by rw [State.raise_demands, hd], by rw [State.raise_clock, hc], by rw [State.raise_webs, hw]⟩
  · constructor <;> simp only [State.raise_pos, State.raise_orders, State.order, State.raise_reel, State.bay, State.raise_bays]
    · exact ans.silent
    · exact ans.full
    · exact ans.ret
    · exact ans.noBay
    · exact ans.clear
  · intro h
    refine ⟨_, by rw [State.raise_reel, hord h], ?_⟩
    unfold State.buttTag
    rw [if_pos h, hord h]
    rfl
  · intro h
    unfold State.buttTag
    rw [if_neg h]
  · rw [State.raise_reel]
    by_cases h : status = .ordered
    · rw [hord h]
      exact ⟨_, rfl, rfl, rfl, rfl⟩
    · rw [hnot h]
      exact ⟨_, rfl, rfl, rfl, rfl⟩

end Sys2Proof.Machine
end

