-- ==== Sys2Proof/Laws/Kept.lean ====
section
/-!
SUPPORT. What every chain of transport moves keeps: the parts of the state transport does not touch, the soundness of every
position, the canonical form of every table, and the bounds of R1, R38 and R186.
-/

namespace Sys2Proof.Machine

/-- A property that no primitive move breaks is kept by every chain of moves. -/
theorem Moves.keep {P : State → Prop} (hP : ∀ s t, Move s t → P s → P t) {s t : State} (h : Moves s t) (hs : P s) : P t := by
  induction h with
  | refl => exact hs
  | tail _ m ih => exact hP _ _ m ih

/-! ### What transport does not touch -/

theorem Move.apart {s t : State} (m : Move s t) : t.apart = s.apart := by
  cases m with
  | raise b =>
    unfold State.raise
    dsimp only
    split
    · unfold Notices.offer
      dsimp only
      repeat' split
      all_goals rfl
    · rfl
  | _ => rfl

/-- A transport operation leaves apart what is apart. -/
theorem Moves.apart {s t : State} (h : Moves s t) : t.apart = s.apart := by
  induction h with
  | refl => rfl
  | tail _ m ih => rw [m.apart, ih]

/-- The passes that end an event leave apart what is apart. -/
theorem State.close_apart (s pre : State) (force : Bool) : (s.close pre force).apart = s.apart :=
  (Moves.close (s₀ := s) .refl pre force).apart

/-! ### Soundness of the positions -/

theorem Position.Calm.sound {x y : Position} (c : x.Calm y) (h : x.sound) : y.sound := by
  obtain ⟨h1, h2, h3, h4, h5⟩ := h
  have hw : x.isWeb = x.running.isSome := rfl
  unfold Position.sound
  rw [c.running, c.outputs, c.splice]
  rcases c.sequence with e | ⟨w, e, e'⟩
  · rw [e]
    exact ⟨h1, h2, h3, h4, h5⟩
  · rw [e'] at *
    rw [e] at h1 h2 h3 h4
    rw [hw] at w
    refine ⟨?_, ?_, ?_, ?_, h5⟩
    · constructor
      · intro h
        cases h
      · intro h
        rw [h] at w
        cases w
    · intro a ha
      exact absurd (h2 a ha).2 (by simp [Sequence.driven])
    · intro ha
      exact absurd (h3 ha).1 (by simp)
    · intro ha
      exact absurd (h4 ha).1 (by simp)

theorem State.pos_setPos (s : State) (p q : Nat) (x : Position) :
    (s.setPos p x).pos q = if q = p then x else s.pos q := by
  unfold State.pos State.setPos
  by_cases h : q = p
  · subst h
    simp
  · simp [Table.find_insert_other _ h, h]

theorem Move.positions {s t : State} (m : Move s t) :
    t.positions = s.positions ∨ ∃ p x, (s.pos p).Calm x ∧ t.positions = (s.setPos p x).positions := by
  cases m with
  | raise b =>
    left
    unfold State.raise
    dsimp only
    split <;> rfl
  | position p x h => exact .inr ⟨p, x, h, rfl⟩
  | _ => exact .inl rfl

theorem State.pos_of_positions {s t : State} (h : t.positions = s.positions) (p : Nat) : t.pos p = s.pos p := by
  unfold State.pos
  rw [h]

theorem Move.sound {s t : State} (m : Move s t) (h : s.sound) : t.sound := by
  intro q
  rcases m.positions with e | ⟨p, x, hx, e⟩
  · rw [State.pos_of_positions e]
    exact h q
  · rw [State.pos_of_positions e, State.pos_setPos]
    split
    · exact hx.sound (h p)
    · exact h q

/-- A transport operation keeps every position sound. -/
theorem Moves.sound {s t : State} (h : Moves s t) (hs : s.sound) : t.sound := h.keep (fun _ _ m => m.sound) hs

/-! ### Canonical tables and bounds -/

theorem State.canonical_iff (s : State) :
    s.canonical = true ↔ s.nodes.wf = true ∧ s.routes.wf = true ∧ s.reels.wf = true ∧ s.rest.minutes.wf = true ∧
      s.bays.wf = true ∧ s.orders.table.wf = true ∧ s.vehicles.wf = true ∧ s.locks.wf = true ∧ s.positions.wf = true ∧
      s.webs.wf = true ∧ s.lines.wf = true ∧ s.slots.wf = true ∧ s.notices.handling.wf = true := by
  simp only [State.canonical, Bool.and_eq_true, and_assoc]

@[simp] theorem Notices.offer_handling (q : Notices) (n : Notice) : (q.offer n).handling = q.handling := by
  unfold Notices.offer
  dsimp only
  repeat' split
  all_goals rfl

theorem Move.canonical {s t : State} (m : Move s t) (h : s.canonical = true) : t.canonical = true := by
  rw [State.canonical_iff] at h ⊢
  obtain ⟨h1, h2, h3, h4, h5, h6, h7, h8, h9, h10, h11, h12, h13⟩ := h
  cases m with
  | raise b =>
    unfold State.raise
    dsimp only
    split
    · refine ⟨h1, h2, h3, h4, h5, h6, h7, h8, h9, h10, h11, h12, ?_⟩
      simpa using h13
    · exact ⟨h1, h2, h3, h4, h5, h6, h7, h8, h9, h10, h11, h12, h13⟩
  | vehicle v x => exact ⟨h1, h2, h3, h4, h5, h6, Table.wf_insert _ _ _ h7, h8, h9, h10, h11, h12, h13⟩
  | reel r x y _ => exact ⟨h1, h2, Table.wf_insert _ _ _ h3, h4, h5, h6, h7, h8, h9, h10, h11, h12, h13⟩
  | delReel r => exact ⟨h1, h2, Table.wf_erase _ _ h3, h4, h5, h6, h7, h8, h9, h10, h11, h12, h13⟩
  | bay b x y _ => exact ⟨h1, h2, h3, h4, Table.wf_insert _ _ _ h5, h6, h7, h8, h9, h10, h11, h12, h13⟩
  | order o x y _ => exact ⟨h1, h2, h3, h4, h5, Table.wf_insert _ _ _ h6, h7, h8, h9, h10, h11, h12, h13⟩
  | delOrder o => exact ⟨h1, h2, h3, h4, h5, Table.wf_erase _ _ h6, h7, h8, h9, h10, h11, h12, h13⟩
  | create x _ => exact ⟨h1, h2, h3, h4, h5, Table.wf_insert _ _ _ h6, h7, h8, h9, h10, h11, h12, h13⟩
  | backlog b => exact ⟨h1, h2, h3, h4, h5, h6, h7, h8, h9, h10, h11, h12, h13⟩
  | disposals p =>
    refine ⟨h1, h2, h3, h4, h5, ?_, h7, h8, h9, h10, h11, h12, h13⟩
    exact Table.wf_mapEntries _ _ h6
  | demands d => exact ⟨h1, h2, h3, h4, h5, h6, h7, h8, h9, h10, h11, h12, h13⟩
  | give z v => exact ⟨h1, h2, h3, h4, h5, h6, h7, Table.wf_insert _ _ _ h8, h9, h10, h11, h12, h13⟩
  | free f => exact ⟨h1, h2, h3, h4, h5, h6, h7, Table.wf_filter _ _ h8, h9, h10, h11, h12, h13⟩
  | frames q w => exact ⟨h1, h2, h3, h4, h5, h6, h7, h8, h9, h10, h11, h12, h13⟩
  | watch w => exact ⟨h1, h2, h3, h4, h5, h6, h7, h8, h9, h10, h11, h12, h13⟩
  | position p x _ => exact ⟨h1, h2, h3, h4, h5, h6, h7, h8, Table.wf_insert _ _ _ h9, h10, h11, h12, h13⟩

/-- A transport operation keeps every table in its canonical form. -/
theorem Moves.canonical {s t : State} (h : Moves s t) (hs : s.canonical = true) : t.canonical = true :=
  h.keep (P := fun s => s.canonical = true) (fun _ _ m => m.canonical) hs

/-- Every transport operation keeps the number of reel records from growing. -/
theorem Move.reels_count {s t : State} (m : Move s t) (h : s.canonical = true) : t.reels.count ≤ s.reels.count := by
  rw [State.canonical_iff] at h
  cases m with
  | raise b =>
    unfold State.raise
    dsimp only
    split <;> exact le_rfl
  | reel r x y hy => exact (Table.count_insert_of_find _ _ h.2.2.1 (by simp [State.reel] at hy; simp [hy])).le
  | delReel r => exact Table.count_erase_le _ _
  | _ => exact le_rfl

/-- The Order List holds at most 32 orders after a move, when it held no more before it (R38). -/
theorem Move.orders_count {s t : State} (m : Move s t) (h : s.canonical = true) (hb : s.orderCount ≤ 32) :
    t.orderCount ≤ 32 := by
  rw [State.canonical_iff] at h
  cases m with
  | raise b =>
    unfold State.raise
    dsimp only
    split <;> exact hb
  | order t x y hy =>
    refine le_trans (le_of_eq ?_) hb
    exact Table.count_insert_of_find _ _ h.2.2.2.2.2.1 (by simp [State.order] at hy; simp [hy])
  | delOrder t => exact le_trans (Table.count_erase_le _ _) hb
  | create x hf =>
    have : s.orderCount < 32 := by simpa [State.ordersFull] using hf
    exact le_trans (Table.count_insert_le _ _ _) this
  | disposals p =>
    refine le_trans (le_of_eq ?_) hb
    simp [State.orderCount, State.raiseDisposals, Table.count, Table.mapEntries]
  | _ => exact hb

/-! ### The Notice Queue -/

theorem length_insertNotice (n : Notice) (q : List Notice) : (insertNotice n q).length = q.length + 1 := by
  induction q with
  | nil => rfl
  | cons m ms ih =>
    unfold insertNotice
    split
    · simp
    · simp [ih]

theorem length_dropNotice_le (w y : Nat) (q : List Notice) : (dropNotice w y q).length ≤ q.length := by
  induction q with
  | nil => simp [dropNotice]
  | cons n ns ih =>
    unfold dropNotice
    split
    · simp
    · simpa using ih

end Sys2Proof.Machine
end

