-- ==== Sys2Proof/Laws/Layout.lean ====
section
/-!
SUPPORT. How long the fields of free width (log 12) and the replies that carry them can be: every reply fits within 240 bytes, its
status byte included (R193).
-/

namespace Sys2Proof.Machine

@[simp] theorem be1_length (n : Nat) : (be1 n).length = 1 := rfl
@[simp] theorem be2_length (n : Nat) : (be2 n).length = 2 := rfl
@[simp] theorem be4_length (n : Nat) : (be4 n).length = 4 := rfl
@[simp] theorem flagByte_length (b : Bool) : (flagByte b).length = 1 := rfl
@[simp] theorem opt1_length (o : Option Nat) : (opt1 o).length = 1 := rfl
@[simp] theorem opt2_length (o : Option Nat) : (opt2 o).length = 2 := rfl
@[simp] theorem opt4_length (o : Option Nat) : (opt4 o).length = 4 := rfl
@[simp] theorem timerBytes_length (o : Option Nat) : (timerBytes o).length = 2 := by cases o <;> rfl
@[simp] theorem LinkCounts.bytes_length (c : LinkCounts) : c.bytes.length = 32 := by simp [LinkCounts.bytes]
@[simp] theorem partName_length : partName.length = 10 := rfl

@[simp] theorem wideBytes_length (k n : Nat) : (wideBytes k n).length = k := by
  induction k generalizing n with
  | zero => rfl
  | succ k ih => simp [wideBytes, ih]

@[simp] theorem heldBytes_length (k n : Nat) : (heldBytes k n).length = k := wideBytes_length k _

theorem openField1_length_le (f : Config.OpenField) (n : Nat) : (openField1 f n).length ≤ 4 := by
  have := (Config.extraWidth f).isLt
  simp only [openField1, heldBytes_length]; omega

theorem openField2_length_le (f : Config.OpenField) (n : Nat) : (openField2 f n).length ≤ 5 := by
  have := (Config.extraWidth f).isLt
  simp only [openField2, heldBytes_length]; omega

/-- IDENT's data. -/
theorem reqIdent_fits (s : State) : s.reqIdent.2.data.length ≤ 239 := by
  have h₁ := openField1_length_le .identRevision Config.designRevision
  have h₂ := openField1_length_le .identRate (Config.linkRateCode s.link.rate)
  simp [State.reqIdent, State.grant]; omega

/-- STATUS's data. -/
theorem reqStatus_fits (s : State) : s.reqStatus.2.data.length ≤ 239 := by
  have h₁ := openField1_length_le .statusBays s.bays.count
  have h₂ := openField1_length_le .statusDemands s.demands.length
  have h₃ := openField1_length_le .statusReservations s.openReservations
  have h₄ := openField1_length_le .statusVehicles s.vehiclesPresent
  have h₅ := openField1_length_le .statusNotices s.notices.queue.length
  simp [State.reqStatus, State.grant]; omega

/-- A list of items of `k` bytes each. -/
theorem listBytes_length (items : List Bytes) (k : Nat) (h : ∀ b ∈ items, b.length = k) :
    (listBytes items).length = 1 + items.length * k := by
  have : items.flatten.length = items.length * k := by
    induction items with
    | nil => simp
    | cons b bs ih =>
      have hb := h b (by simp)
      have := ih fun c hc => h c (by simp [hc])
      simp only [List.flatten_cons, List.length_append, List.length_cons, hb, this]; ring
  simp [listBytes, this]

/-- The leg part of VEHINFO, with a leg of at most eight zones (R64). -/
theorem legBytes_length_le (l : Option Leg) (h : ∀ x, l = some x → x.zones.length ≤ 8) : (legBytes l).length ≤ 16 := by
  cases l with
  | none =>
    have := openField1_length_le .vehinfoPassed 0
    simp [legBytes, listBytes]; omega
  | some x =>
    have h₁ := openField1_length_le .vehinfoPassed x.passed
    have h₂ := listBytes_length (x.zones.map be1) 1 (by simp)
    have := h x rfl
    simp only [List.length_map] at h₂
    simp [legBytes, h₂]; omega

/-- The record part of VEHINFO. -/
theorem Vehicle.bytes_length_le (x : Vehicle) (h : ∀ l, x.leg = some l → l.zones.length ≤ 8) : x.bytes.length ≤ 33 := by
  have := legBytes_length_le x.leg h
  simp only [Vehicle.bytes, List.length_append, be1_length, opt1_length, opt4_length, opt2_length, flagByte_length,
    timerBytes_length]
  omega

/-- VEHINFO's data, for a leg of at most eight zones and at most 150 zones held (there are 48, R75). -/
theorem reqVehinfo_fits (s : State) (v : Nat) (hl : ∀ x, (s.veh v).leg = some x → x.zones.length ≤ 8)
    (hz : (s.zonesOf v).length ≤ 150) : (s.reqVehinfo v).2.data.length ≤ 239 := by
  unfold State.reqVehinfo
  split
  · have h₁ := openField2_length_le .vehinfoSilenceSeconds ((s.veh v).sinceFrameMs / 1000)
    have h₂ := openField2_length_le .vehinfoOfferSeconds ((s.veh v).offerMs.getD 0 / 1000)
    have h₃ := openField1_length_le .vehinfoFrames (s.framesFor v)
    have h₄ := (s.veh v).bytes_length_le hl
    have h₅ := listBytes_length ((s.zonesOf v).map be1) 1 (by simp)
    simp only [List.length_map] at h₅
    simp only [State.grant, List.length_append, flagByte_length, h₅]
    omega
  · simp [State.refuse]

/-- One reel of BAYINFO's list. -/
@[simp] theorem stackItem_length (s : State) (r : Nat) : (s.stackItem r).length = 10 := by
  unfold State.stackItem
  split <;> simp only [List.length_append, be4_length, be1_length, be2_length, opt2_length, flagByte_length]

/-- BAYINFO's data, for a stack of at most three reels (R20). -/
theorem reqBayinfo_fits (s : State) (bay mode : Nat) (h : ∀ m e, queried s.bays m bay = some e → e.2.stack.length ≤ 3) :
    (s.reqBayinfo bay mode).2.data.length ≤ 239 := by
  unfold State.reqBayinfo
  split
  · simp [State.refuse]
  · split
    · simp [State.refuse]
    · split
      · simp [State.refuse]
      · next n b hb =>
        have h₁ := openField1_length_le .bayinfoInbound b.inbound
        have h₂ := openField1_length_le .bayinfoFree (b.height - b.stack.length - b.inbound)
        have h₃ := openField1_length_le .bayinfoBays s.bays.count
        have h₄ := listBytes_length (b.stack.map s.stackItem) 10 (by simp)
        have := h _ (n, b) hb
        simp only [List.length_map] at h₄ this
        simp only [State.grant, List.length_append, be1_length, flagByte_length, h₄]
        omega

/-- COMMIT's data where it succeeds. -/
theorem reqCommit_fits (s : State) (h : s.commitFault = none) : s.reqCommit.2.data.length ≤ 239 := by
  have h₁ := openField1_length_le .commitNodes s.nodes.count
  have h₂ := openField1_length_le .commitBays s.bays.count
  have h₃ := openField2_length_le .commitRoutes s.routes.count
  have h₄ := openField1_length_le .commitPositions s.enabledPositions.length
  simp only [State.reqCommit, h, State.grant, List.length_append]
  omega

end Sys2Proof.Machine
end

