-- ==== Sys2Proof/Laws/Lists.lean ====
section
/-!
SUPPORT. The bounded lists: how the outbound queue, the waiting line, the Demand Queue and the creation backlog stay within the bounds
of R31, R49 and R80 under the operations that fill and empty them.
-/

namespace Sys2Proof.Machine

/-! ### Counting by slots -/

theorem slot_of_halt {f : VehicleFrame} (h : f.isHalt = true) : f.slot = (2, f.vehicle) := by
  cases f <;> first | rfl | cases h

theorem slot_mem_of_not_halt {f : VehicleFrame} (h : f.isHalt = false) (l : 1 ≤ f.vehicle) (u : f.vehicle ≤ 12) :
    f.slot ∈ ({1, 3, 4} : Finset Nat) ×ˢ Finset.Icc 1 12 := by
  cases f <;> simp_all [VehicleFrame.slot, VehicleFrame.isHalt, VehicleFrame.vehicle]

/-- A list without repeats inside a finite set is no longer than the set is large. -/
theorem length_le_of_nodup {α : Type} [DecidableEq α] {xs : List α} (h : xs.Nodup) {S : Finset α} (hs : ∀ x ∈ xs, x ∈ S) :
    xs.length ≤ S.card := by
  rw [← List.toFinset_card_of_nodup h]
  exact Finset.card_le_card fun x hx => hs x (List.mem_toFinset.1 hx)

theorem waiting_le {q w : List VehicleFrame} (ho : ((q ++ w).map VehicleFrame.slot).Nodup)
    (hn : ∀ f ∈ q ++ w, f.vehicle ≤ 12 ∧ (f.isHalt = false → 1 ≤ f.vehicle)) (hh : ∀ f ∈ w, f.isHalt = false) :
    w.length ≤ 36 := by
  have hw : (w.map VehicleFrame.slot).Nodup := by
    rw [List.map_append] at ho
    exact ho.of_append_right
  have := length_le_of_nodup hw (S := ({1, 3, 4} : Finset Nat) ×ˢ Finset.Icc 1 12) (by
    intro x hx
    obtain ⟨f, hf, rfl⟩ := List.mem_map.1 hx
    have := hn f (by simp [hf])
    exact slot_mem_of_not_halt (hh f hf) (this.2 (hh f hf)) this.1)
  simpa using this

/-- A full queue holds a frame that is no HALT (R80). -/
theorem halts_le {q : List VehicleFrame} (ho : (q.map VehicleFrame.slot).Nodup) (hn : ∀ f ∈ q, f.vehicle ≤ 12)
    (hh : ∀ f ∈ q, f.isHalt = true) : q.length ≤ 13 := by
  have := length_le_of_nodup ho (S := ({2} : Finset Nat) ×ˢ Finset.range 13) (by
    intro x hx
    obtain ⟨f, hf, rfl⟩ := List.mem_map.1 hx
    have := hn f hf
    simp [slot_of_halt (hh f hf)]
    omega)
  simpa using this

/-! ### The waiting frames moved up -/

theorem refillFrom_append (q w : List VehicleFrame) : (refillFrom q w).1 ++ (refillFrom q w).2 = q ++ w := by
  induction w generalizing q with
  | nil => simp [refillFrom]
  | cons f fs ih =>
    unfold refillFrom
    split
    · simpa using ih (q ++ [f])
    · rfl

theorem refillFrom_length_le (q w : List VehicleFrame) (h : q.length ≤ 16) : (refillFrom q w).1.length ≤ 16 := by
  induction w generalizing q with
  | nil => exact h
  | cons f fs ih =>
    unfold refillFrom
    split
    · exact ih _ (by simp; omega)
    · exact h

theorem mem_of_mem_refillFrom (q w : List VehicleFrame) {f : VehicleFrame} (h : f ∈ (refillFrom q w).2) : f ∈ w := by
  induction w generalizing q with
  | nil => exact h
  | cons g gs ih =>
    unfold refillFrom at h
    split at h
    · exact List.mem_cons_of_mem _ (ih _ h)
    · exact h

/-- Frames that keep R80 but for the waiting line's length keep it when the waiting frames have moved up. -/
theorem framesFit_refillFrom {q w : List VehicleFrame} (ho : ((q ++ w).map VehicleFrame.slot).Nodup)
    (hn : ∀ f ∈ q ++ w, f.vehicle ≤ 12 ∧ (f.isHalt = false → 1 ≤ f.vehicle)) (hh : ∀ f ∈ w, f.isHalt = false)
    (hq : q.length ≤ 16) : FramesFit (refillFrom q w).1 (refillFrom q w).2 := by
  have ha := refillFrom_append q w
  rw [← ha] at ho hn
  have hh' : ∀ f ∈ (refillFrom q w).2, f.isHalt = false := fun f hf => hh f (mem_of_mem_refillFrom q w hf)
  exact ⟨ho, hn, hh', refillFrom_length_le q w hq, waiting_le ho hn hh'⟩

/-- Frames withdrawn. -/
theorem FramesFit.filter {q w : List VehicleFrame} (h : FramesFit q w) (p : VehicleFrame → Bool) :
    FramesFit (refillFrom (q.filter p) (w.filter p)).1 (refillFrom (q.filter p) (w.filter p)).2 := by
  have hs : (q.filter p ++ w.filter p).Sublist (q ++ w) := List.filter_sublist.append List.filter_sublist
  exact framesFit_refillFrom ((hs.map _).nodup h.once) (fun f hf => h.numbers f (hs.subset hf))
    (fun f hf => h.noHalt f (List.mem_of_mem_filter hf)) ((List.length_filter_le _ _).trans h.queued)

/-- A GO, RESUME or ABANDON added. -/
theorem FramesFit.add {q w : List VehicleFrame} (h : FramesFit q w) {f : VehicleFrame} (hf : f.isHalt = false)
    (l : 1 ≤ f.vehicle) (u : f.vehicle ≤ 12) (hs : ∀ g ∈ q ++ w, g.slot ≠ f.slot) :
    FramesFit (refillFrom q (w ++ [f])).1 (refillFrom q (w ++ [f])).2 := by
  refine framesFit_refillFrom ?_ ?_ ?_ h.queued
  · rw [← List.append_assoc, List.map_append]
    refine h.once.append (by simp) ?_
    intro x hx hy
    obtain ⟨g, hg, rfl⟩ := List.mem_map.1 hx
    exact hs g hg (by simpa using hy)
  · intro g hg
    rw [← List.append_assoc] at hg
    rcases List.mem_append.1 hg with hg | hg
    · exact h.numbers g hg
    · obtain rfl := List.mem_singleton.1 hg
      exact ⟨u, fun _ => l⟩
  · intro g hg
    rcases List.mem_append.1 hg with hg | hg
    · exact h.noHalt g hg
    · obtain rfl := List.mem_singleton.1 hg
      exact hf

/-! ### HALT frames -/

theorem takeLast_some {p : VehicleFrame → Bool} {q : List VehicleFrame} {g : VehicleFrame} {rest : List VehicleFrame}
    (h : takeLast p q = some (g, rest)) : p g = true ∧ (g :: rest).Perm q ∧ rest.Sublist q := by
  induction q generalizing rest with
  | nil => simp [takeLast] at h
  | cons f fs ih =>
    unfold takeLast at h
    split at h
    · rename_i g' rest' he
      obtain ⟨rfl, rfl⟩ : g' = g ∧ f :: rest' = rest := by simpa using h
      obtain ⟨h1, h2, h3⟩ := ih he
      exact ⟨h1, (List.Perm.swap f g' rest').trans (h2.cons f), h3.cons_cons f⟩
    · split at h
      · obtain ⟨rfl, rfl⟩ : f = g ∧ fs = rest := by simpa using h
        exact ⟨‹_›, .refl _, List.sublist_cons_self _ _⟩
      · cases h

theorem takeLast_none {p : VehicleFrame → Bool} {q : List VehicleFrame} (h : takeLast p q = none) : ∀ f ∈ q, p f = false := by
  induction q with
  | nil => simp
  | cons f fs ih =>
    unfold takeLast at h
    split at h
    · cases h
    · rename_i he
      split at h
      · cases h
      · intro g hg
        rcases List.mem_cons.1 hg with rfl | hg
        · simp_all
        · exact ih he g hg

theorem insertHalt_perm (h : VehicleFrame) (q : List VehicleFrame) : (insertHalt h q).Perm (h :: q) := by
  induction q with
  | nil => exact .refl _
  | cons f fs ih =>
    unfold insertHalt
    split
    · exact (ih.cons f).trans (List.Perm.swap h f fs)
    · exact .refl _

/-- A HALT of a vehicle that has none put at the head of a queue that has a place. -/
theorem FramesFit.halt {q r w x : List VehicleFrame} {f : VehicleFrame} (hf : f.isHalt = true) (u : f.vehicle ≤ 12)
    (hp : (r ++ x).Perm (q ++ w) ∨ (r ++ x).Sublist (q ++ w)) (ho : ((q ++ w).map VehicleFrame.slot).Nodup)
    (hn : ∀ g ∈ q ++ w, g.vehicle ≤ 12 ∧ (g.isHalt = false → 1 ≤ g.vehicle)) (hh : ∀ g ∈ x, g.isHalt = false)
    (hs : ∀ g ∈ q ++ w, g.slot ≠ f.slot) (hr : r.length < 16) :
    FramesFit (refillFrom (insertHalt f r) x).1 (refillFrom (insertHalt f r) x).2 := by
  have hi : (insertHalt f r ++ x).Perm (f :: (r ++ x)) := (insertHalt_perm f r).append_right x
  have hm : ∀ g ∈ r ++ x, g ∈ q ++ w := fun g hg => hp.elim (fun h => h.subset hg) (fun h => h.subset hg)
  have hd : ((r ++ x).map VehicleFrame.slot).Nodup :=
    hp.elim (fun h => (h.map _).nodup_iff.2 ho) (fun h => (h.map _).nodup ho)
  refine framesFit_refillFrom ?_ ?_ hh ?_
  · refine (hi.map VehicleFrame.slot).nodup_iff.2 ?_
    rw [List.map_cons, List.nodup_cons]
    refine ⟨?_, hd⟩
    intro hc
    obtain ⟨g, hg, he⟩ := List.mem_map.1 hc
    exact hs g (hm g hg) he
  · intro g hg
    rcases List.mem_cons.1 (hi.subset hg) with rfl | hg
    · exact ⟨u, fun h => by simp [hf] at h⟩
    · exact hn g (hm g hg)
  · rw [(insertHalt_perm f r).length_eq]
    simpa using hr

/-! ### The Demand Queue and the creation backlog -/

theorem DemandsFit.sublist {d e : List DemandEntry} (h : DemandsFit d) (hs : e.Sublist d) : DemandsFit e :=
  ⟨(hs.map _).nodup h.once, fun x hx => h.numbers x (hs.subset hx), hs.length_le.trans h.count⟩

/-- Entries changed in place. -/
theorem DemandsFit.map {d : List DemandEntry} (h : DemandsFit d) {f : DemandEntry → DemandEntry}
    (hf : ∀ e, (f e).position = e.position) : DemandsFit (d.map f) := by
  refine ⟨?_, ?_, by simpa using h.count⟩
  · rw [List.map_map]
    have : (fun e : DemandEntry => e.position) ∘ f = fun e => e.position := funext hf
    rw [this]
    exact h.once
  · intro e he
    obtain ⟨x, hx, rfl⟩ := List.mem_map.1 he
    rw [hf]
    exact h.numbers x hx

theorem DemandsFit.add {d : List DemandEntry} (h : DemandsFit d) {e : DemandEntry} (l : 1 ≤ e.position) (u : e.position ≤ 8)
    (hs : ∀ x ∈ d, x.position ≠ e.position) : DemandsFit (d ++ [e]) := by
  have ho : ((d ++ [e]).map (·.position)).Nodup := by
    rw [List.map_append]
    refine h.once.append (by simp) ?_
    intro x hx hy
    obtain ⟨g, hg, rfl⟩ := List.mem_map.1 hx
    exact hs g hg (by simpa using hy)
  have hn : ∀ x ∈ d ++ [e], 1 ≤ x.position ∧ x.position ≤ 8 := by
    intro x hx
    rcases List.mem_append.1 hx with hx | hx
    · exact h.numbers x hx
    · obtain rfl := List.mem_singleton.1 hx
      exact ⟨l, u⟩
  refine ⟨ho, hn, ?_⟩
  have := length_le_of_nodup ho (S := Finset.Icc 1 8) (by
    intro x hx
    obtain ⟨g, hg, rfl⟩ := List.mem_map.1 hx
    exact Finset.mem_Icc.2 (hn g hg))
  simpa using this

theorem BacklogFits.sublist {b c : List BacklogItem} (h : BacklogFits b) (hs : c.Sublist b) : BacklogFits c :=
  ⟨(hs.map _).nodup h.once, fun x hx => h.numbers x (hs.subset hx), hs.length_le.trans h.count⟩

@[simp] theorem BacklogItem.raised_slot (i : BacklogItem) : i.raised.slot = i.slot := by cases i <;> rfl

/-- Items raised in place. -/
theorem BacklogFits.map {b : List BacklogItem} (h : BacklogFits b) {f : BacklogItem → BacklogItem}
    (hf : ∀ i, (f i).slot = i.slot) : BacklogFits (b.map f) := by
  refine ⟨?_, ?_, by simpa using h.count⟩
  · rw [List.map_map]
    have : BacklogItem.slot ∘ f = BacklogItem.slot := funext hf
    rw [this]
    exact h.once
  · intro i hi
    obtain ⟨x, hx, rfl⟩ := List.mem_map.1 hi
    rw [hf]
    exact h.numbers x hx

/-- The slots of the backlog: nothing or an arm, at each of the eight positions. -/
def backlogSlots : Finset (Nat × Option Arm) := Finset.Icc 1 8 ×ˢ {none, some .A, some .B}

theorem BacklogFits.add {b : List BacklogItem} (h : BacklogFits b) {i : BacklogItem} (l : 1 ≤ i.slot.1) (u : i.slot.1 ≤ 8)
    (hs : ∀ x ∈ b, x.slot ≠ i.slot) : BacklogFits (b ++ [i]) := by
  have ho : ((b ++ [i]).map BacklogItem.slot).Nodup := by
    rw [List.map_append]
    refine h.once.append (by simp) ?_
    intro x hx hy
    obtain ⟨g, hg, rfl⟩ := List.mem_map.1 hx
    exact hs g hg (by simpa using hy)
  have hn : ∀ x ∈ b ++ [i], 1 ≤ x.slot.1 ∧ x.slot.1 ≤ 8 := by
    intro x hx
    rcases List.mem_append.1 hx with hx | hx
    · exact h.numbers x hx
    · obtain rfl := List.mem_singleton.1 hx
      exact ⟨l, u⟩
  refine ⟨ho, hn, ?_⟩
  have := length_le_of_nodup ho (S := backlogSlots) (by
    intro x hx
    obtain ⟨g, hg, rfl⟩ := List.mem_map.1 hx
    refine Finset.mem_product.2 ⟨Finset.mem_Icc.2 (hn g hg), ?_⟩
    cases g with
    | delivery p r q => simp [BacklogItem.slot]
    | disposal p a k q => cases a <;> simp [BacklogItem.slot])
  have hc : backlogSlots.card = 24 := by decide
  simpa [hc] using this

end Sys2Proof.Machine
end

