-- ==== Sys2Proof/Laws/Listed.lean ====
section
/-!
SUPPORT. Every transport operation keeps the lists of the store and of the vehicle link within their bounds (`State.listed`): one lemma
for each operation, over the primitive changes of the state.
-/

namespace Sys2Proof.Machine

variable {s : State}

/-! ### Primitive changes -/

theorem Order.vehicleFits.backToWaiting {o : Order} (h : o.vehicleFits) : o.backToWaiting.vehicleFits := by
  intro v hv
  unfold Order.backToWaiting at hv
  dsimp only at hv
  split at hv
  · exact h v hv
  · cases hv

/-- A state with the same lists and the same orders. -/
theorem State.listed.of_same {t : State} (h : s.listed) (hq : t.vlink.queue = s.vlink.queue)
    (hw : t.vlink.waiting = s.vlink.waiting) (hd : t.demands = s.demands) (ho : t.orders = s.orders) : t.listed :=
  ⟨by rw [hq, hw]; exact h.frames, by rw [hd]; exact h.demands, by rw [ho]; exact h.backlog,
    fun k o hk => h.orders k o (by rw [← State.order_of_orders ho]; exact hk)⟩

theorem State.listed.raise (h : s.listed) (b : Subjects) : (s.raise b).listed := by
  unfold State.raise
  dsimp only
  split
  · exact h.of_same rfl rfl rfl rfl
  · exact h.of_same rfl rfl rfl rfl

theorem State.listed.setVeh (h : s.listed) (v : Nat) (x : Vehicle) : (s.setVeh v x).listed := h.of_same rfl rfl rfl rfl
theorem State.listed.onVeh (h : s.listed) (v : Nat) (f : Vehicle → Vehicle) : (s.onVeh v f).listed := h.of_same rfl rfl rfl rfl
theorem State.listed.setReel (h : s.listed) (r : Nat) (x : Reel) : (s.setReel r x).listed := h.of_same rfl rfl rfl rfl
theorem State.listed.delReel (h : s.listed) (r : Nat) : (s.delReel r).listed := h.of_same rfl rfl rfl rfl
theorem State.listed.setBay (h : s.listed) (b : Nat) (x : Bay) : (s.setBay b x).listed := h.of_same rfl rfl rfl rfl
theorem State.listed.onPos (h : s.listed) (p : Nat) (f : Position → Position) : (s.onPos p f).listed := h.of_same rfl rfl rfl rfl
theorem State.listed.rewatch (h : s.listed) : s.rewatch.listed := h.of_same rfl rfl rfl rfl
theorem State.listed.keepZone (h : s.listed) (v : Nat) (k : Option Nat) : (s.keepZone v k).listed := h.of_same rfl rfl rfl rfl

theorem State.listed.keepZones (h : s.listed) (l : Table Nat) : ({ s with locks := l } : State).listed := h.of_same rfl rfl rfl rfl

theorem State.listed.onReel (h : s.listed) (r : Nat) (f : Reel → Reel) : (s.onReel r f).listed := by
  unfold State.onReel
  split
  · exact h.setReel r _
  · exact h

theorem State.listed.onBay (h : s.listed) (b : Nat) (f : Bay → Bay) : (s.onBay b f).listed := by
  unfold State.onBay
  split
  · exact h.setBay b _
  · exact h

theorem State.listed.setDemands (h : s.listed) {d : List DemandEntry} (hd : DemandsFit d) :
    ({ s with demands := d } : State).listed := ⟨h.frames, hd, h.backlog, h.orders⟩

theorem State.listed.leaveQueue (h : s.listed) (p : Nat) : (s.leaveQueue p).listed :=
  h.setDemands (h.demands.sublist List.filter_sublist)

theorem State.listed.setBacklog (h : s.listed) {b : List BacklogItem} (hb : BacklogFits b) : (s.setBacklog b).listed :=
  ⟨h.frames, h.demands, hb, h.orders⟩

theorem State.listed.setFrames (h : s.listed) {q w : List VehicleFrame}
    (hf : FramesFit (refillFrom q w).1 (refillFrom q w).2) : (s.setFrames q w).listed := ⟨hf, h.demands, h.backlog, h.orders⟩

/-- An order stored under a tag. -/
theorem State.listed.setOrder (h : s.listed) {t : Nat} (x : Order) (hv : x.vehicleFits) : (s.setOrder t x).listed := by
  refine ⟨h.frames, h.demands, h.backlog, fun k o hk => ?_⟩
  by_cases he : k = t
  · subst he
    rw [State.order_setOrder_same] at hk
    cases hk
    exact hv
  · exact h.orders k o (by simpa [State.order, State.setOrder, Table.find_insert_other _ he] using hk)

theorem State.listed.onOrder (h : s.listed) (t : Nat) {f : Order → Order} (hf : ∀ o, o.vehicleFits → (f o).vehicleFits) :
    (s.onOrder t f).listed := by
  unfold State.onOrder
  split
  · exact h.setOrder _ (hf _ (h.orders t _ ‹_›))
  · exact h

theorem State.listed.delOrder (h : s.listed) (t : Nat) : (s.delOrder t).listed := by
  refine ⟨h.frames, h.demands, h.backlog, fun k o hk => ?_⟩
  by_cases he : k = t
  · subst he
    simp [State.order, State.delOrder] at hk
  · exact h.orders k o (by simpa [State.order, State.delOrder, Table.find_erase_other _ he] using hk)

/-- A new order under the next tag. -/
theorem State.listed.create (h : s.listed) (x : Order) (hv : x.vehicleFits) :
    ({ s with orders := { s.orders with
        table := s.orders.table.insert s.nextTag x
        lastTag := s.nextTag
        nextSequence := s.orders.nextSequence + 1 } } : State).listed :=
  let u := h.setOrder (t := s.nextTag) x hv
  ⟨u.frames, u.demands, u.backlog, u.orders⟩

theorem State.listed.raiseDisposals (h : s.listed) (p : Nat) : (s.raiseDisposals p).listed := by
  refine ⟨h.frames, h.demands, h.backlog.map fun i => by split <;> simp, fun k o hk => ?_⟩
  simp only [State.order, State.raiseDisposals, Table.find_mapEntries, Option.map_eq_some_iff] at hk
  obtain ⟨x, hx, rfl⟩ := hk
  split
  · exact h.orders k x hx
  · exact h.orders k x hx

theorem State.listed.whenSome {α : Type} (h : s.listed) (o : Option α) {f : State → α → State}
    (hf : ∀ (s : State) x, s.listed → (f s x).listed) : (s.whenSome o f).listed := by
  cases o with
  | none => exact h
  | some x => exact hf s x h

theorem State.listed.forEach (h : s.listed) (ns : List Nat) {f : Nat → State → State}
    (hf : ∀ n ∈ ns, ∀ s : State, s.listed → (f n s).listed) : (forEach ns f s).listed := by
  unfold Machine.forEach
  induction ns generalizing s with
  | nil => exact h
  | cons n ns ih => exact ih (hf n (by simp) s h) fun m hm => hf m (by simp [hm])

theorem State.listed.foldl {α : Type} (h : s.listed) (xs : List α) {f : State → α → State}
    (hf : ∀ (s : State) x, s.listed → (f s x).listed) : (xs.foldl f s).listed := by
  induction xs generalizing s with
  | nil => exact h
  | cons x xs ih => exact ih (hf s x h)

/-! ### Store -/

theorem State.listed.promise (h : s.listed) (b : Nat) : (s.promise b).listed := h.onBay b _
theorem State.listed.unpromise (h : s.listed) (b : Nat) : (s.unpromise b).listed := h.onBay b _
theorem State.listed.reserve (h : s.listed) (r p : Nat) : (s.reserve r p).listed := (h.onReel r _).rewatch
theorem State.listed.release (h : s.listed) (r : Nat) : (s.release r).listed := (h.onReel r _).rewatch

theorem State.listed.relevel (h : s.listed) (b l : Nat) (rs : List Nat) : (relevel b l rs s).listed := by
  induction rs generalizing s l with
  | nil => exact h
  | cons r rs ih => exact ih (h.onReel r _) (l + 1)

theorem State.listed.leaveBay (h : s.listed) (b r : Nat) : (s.leaveBay b r).listed := by
  unfold State.leaveBay
  split
  · exact (h.setBay b _).relevel b _ _
  · exact h

theorem State.listed.pushBay (h : s.listed) (b r : Nat) : (s.pushBay b r).listed := by
  unfold State.pushBay
  split
  · exact (h.setBay b _).onReel r _
  · exact h

theorem State.listed.setCallOff (h : s.listed) (p : Nat) (c : CallOffState) (full : Bool) : (s.setCallOff p c full).listed :=
  h.onPos p _

theorem State.listed.clearUrgency (h : s.listed) (p : Nat) : (s.clearUrgency p).listed := h.onPos p _

theorem State.listed.addDemand (h : s.listed) (p : Nat) (d : Demand) (l : 1 ≤ p) (u : p ≤ 8) : (s.addDemand p d).listed := by
  unfold State.addDemand
  split
  · exact h
  · rename_i hn
    refine h.setDemands (h.demands.add l u ?_)
    intro x hx he
    simp only [State.demandEntry, Option.not_isSome_iff_eq_none, List.find?_eq_none] at hn
    exact hn x hx (by simpa using he)

theorem State.listed.joinQueue (h : s.listed) (p : Nat) (d : Demand) (l : 1 ≤ p) (u : p ≤ 8) : (s.joinQueue p d).listed :=
  ((h.addDemand p d l u).setCallOff p _ _).raise _

/-! ### Orders -/

theorem State.listed.createOrder (h : s.listed) (n : NewOrder) (hv : ∀ v, n.vehicle = some v → 1 ≤ v ∧ v ≤ 12) : (s.createOrder n).listed :=
  ((h.create (s.newOrder n) hv).whenSome _ fun _ _ h => h.onReel _ _).whenSome _ fun _ _ h => h.promise _

theorem State.listed.raiseUrgency (h : s.listed) (p : Nat) : (s.raiseUrgency p).listed :=
  by
  have ho : (s.whenSome (s.deliverOf p) fun s t => s.onOrder t fun o => { o with priority := .urgent }).listed :=
    h.whenSome _ fun _ _ h => h.onOrder _ fun _ ho => ho
  refine (ho.setBacklog ?_).raiseDisposals p
  exact ho.backlog.map fun i => by split <;> simp

theorem State.listed.makeDeliver (h : s.listed) (p r : Nat) (q : Priority) :
    (s.makeDeliver p r q).listed := by
  unfold State.makeDeliver
  split
  · exact (((h.createOrder _ (by simp)).leaveQueue p).setCallOff p _ _).raiseDisposals p
  · exact ((h.createOrder _ (by simp)).leaveQueue p).setCallOff p _ _

theorem State.listed.makeReturn (h : s.listed) (p : Nat) (a : Arm) (r b : Nat) (q : Priority) :
    (s.makeReturn p a r b q).listed := by
  unfold State.makeReturn
  exact (h.createOrder _ (by simp)).onPos p _

theorem State.listed.makeClear (h : s.listed) (p : Nat) (a : Arm) (r n : Nat) (q : Priority) :
    (s.makeClear p a r n q).listed := by
  unfold State.makeClear
  exact (h.createOrder _ (by simp)).onPos p _

theorem State.listed.makeDisposal (h : s.listed) (p : Nat) (a : Arm) (k : DisposalKind) (q : Priority)
    : (s.makeDisposal p a k q).listed := by
  unfold State.makeDisposal
  repeat' split
  all_goals first
    | exact h
    | exact h.makeReturn _ _ _ _ _
    | exact h.makeClear _ _ _ _ _
    | exact h.onPos p _

theorem State.listed.makeItem (h : s.listed) (i : BacklogItem) : (s.makeItem i).listed := by
  cases i with
  | delivery p r q => exact h.makeDeliver p r q
  | disposal p a k q => exact h.makeDisposal p a k q

theorem State.listed.fillUpTo (h : s.listed) (n : Nat) : (fillUpTo n s).listed := by
  induction n generalizing s with
  | zero => exact h
  | succ n ih =>
    unfold Machine.fillUpTo
    repeat' split
    · exact h
    · exact h
    · rename_i i is he _
      refine ih ((h.setBacklog ?_).makeItem _)
      exact h.backlog.sublist (by rw [he]; exact List.sublist_cons_self _ _)

theorem State.listed.fillBacklog (h : s.listed) : s.fillBacklog.listed := h.fillUpTo _
theorem State.listed.dropDelivery (h : s.listed) (p : Nat) : (s.dropDelivery p).listed :=
  h.setBacklog (h.backlog.sublist List.filter_sublist)
theorem State.listed.dropDisposal (h : s.listed) (p : Nat) (a : Arm) : (s.dropDisposal p a).listed :=
  h.setBacklog (h.backlog.sublist List.filter_sublist)

theorem State.listed.joinBacklog (h : s.listed) (i : BacklogItem) (l : 1 ≤ i.slot.1) (u : i.slot.1 ≤ 8) :
    (s.joinBacklog i).listed := by
  unfold State.joinBacklog
  split
  · exact h
  · rename_i hn
    refine h.setBacklog (h.backlog.add l u ?_)
    intro x hx he
    exact hn (List.any_eq_true.2 ⟨x, hx, by simpa using he⟩)

theorem State.listed.deliverOrBacklog (h : s.listed) (p r : Nat) (l : 1 ≤ p) (u : p ≤ 8) : (s.deliverOrBacklog p r).listed := by
  unfold State.deliverOrBacklog
  split
  · exact (h.joinBacklog (.delivery p r .normal) l u).setCallOff p _ _
  · exact h.makeDeliver p r _

theorem State.listed.serveDemand (h : s.listed) (e : DemandEntry) (l : 1 ≤ e.position) (u : e.position ≤ 8) :
    (s.serveDemand e).listed := by
  unfold State.serveDemand
  split
  · exact h
  · dsimp only
    split
    · exact ((h.reserve _ _).leaveQueue _).deliverOrBacklog _ _ l u
    · exact ((h.reserve _ _).leaveQueue _).setCallOff _ _ _

theorem State.listed.arbiterPass (h : s.listed) : s.arbiterPass.listed := by
  have key : ∀ (ds : List DemandEntry) (u : State), (∀ e ∈ ds, 1 ≤ e.position ∧ e.position ≤ 8) → u.listed →
      (ds.foldl State.serveDemand u).listed := by
    intro ds
    induction ds with
    | nil => exact fun u _ hu => hu
    | cons d ds ih =>
      exact fun u hd hu => ih _ (fun e he => hd e (by simp [he])) (hu.serveDemand d (hd d (by simp)).1 (hd d (by simp)).2)
  exact key _ s h.demands.numbers h

theorem State.listed.withdrawCallOff (h : s.listed) (p : Nat) : (s.withdrawCallOff p).listed :=
  ((h.leaveQueue p).whenSome _ fun _ _ h => (h.release _).dropDelivery p).setCallOff p _ _

/-! ### Legs -/

/-- A frame other than a HALT joins the queue or the waiting line. -/
theorem State.listed.enqueue (h : s.listed) {f : VehicleFrame} (hf : f.isHalt = false) (hv : 1 ≤ f.vehicle ∧ f.vehicle ≤ 12) :
    (s.enqueue f).listed := by
  unfold State.enqueue
  split
  · exact h
  · rename_i hn
    refine h.setFrames (h.frames.add hf hv.1 hv.2 ?_)
    intro g hg he
    exact hn (List.any_eq_true.2 ⟨g, hg, by simpa using he⟩)

theorem State.listed.withdraw (h : s.listed) (p : VehicleFrame → Bool) : (s.withdraw p).listed := h.setFrames (h.frames.filter _)
theorem State.listed.withdrawFor (h : s.listed) (v : Nat) : (s.withdrawFor v).listed := h.withdraw _
theorem State.listed.withdrawGo (h : s.listed) (v : Nat) : (s.withdrawGo v).listed := h.withdraw _
theorem State.listed.withdrawOrderGo (h : s.listed) (t : Nat) : (s.withdrawOrderGo t).listed := h.withdraw _

theorem State.listed.giveZones (h : s.listed) (v : Nat) (zs : List Nat) : (s.giveZones v zs).listed := by
  exact h.of_same rfl rfl rfl rfl

theorem State.listed.raiseSuspended (h : s.listed) (t : Nat) (o : Order) (r : Reason) (v : Nat) :
    (s.raiseSuspended t o r v).listed := h.raise _

theorem State.listed.offerLeg (h : s.listed) {t : Nat} (o : Order) (v target : Nat) (zs : List Nat)
    (hv : o.vehicleFits) (hr : 1 ≤ v ∧ v ≤ 12) : (s.offerLeg t o v target zs).listed := by
  unfold State.offerLeg
  exact ((h.giveZones v _).setOrder _ (by exact hv)).enqueue (by rfl) (by exact hr)

theorem State.listed.askZones (h : s.listed) {t : Nat} (o : Order) (v target : Nat) (zs : List Nat)
    (hv : o.vehicleFits) (hr : 1 ≤ v ∧ v ≤ 12) : (s.askZones t o v target zs).listed := by
  unfold State.askZones
  split
  · exact h.offerLeg o v target zs hv hr
  · exact h.setOrder _ (by exact hv)

theorem State.listed.routeLeg (h : s.listed) {t : Nat} (o : Order) (v : Nat) (hv : o.vehicleFits) (hr : 1 ≤ v ∧ v ≤ 12) :
    (s.routeLeg t o v).listed := by
  unfold State.routeLeg
  repeat' split
  · exact h
  · exact h.askZones o v _ _ hv hr
  · exact h.askZones o v _ _ hv hr
  · exact (h.setOrder _ (by exact hv)).raiseSuspended _ _ _ _

theorem State.listed.requestLeg (h : s.listed) (t : Nat) : (s.requestLeg t).listed := by
  unfold State.requestLeg
  split
  · exact h
  rename_i o ho
  have hv := h.orders t o ho
  split
  · exact h
  rename_i v hw
  have hr := hv v hw
  repeat' split
  all_goals first
    | exact h
    | exact h.routeLeg _ _ hv hr
    | exact h.setOrder _ (by exact hv)
    | (dsimp only
       split
       · exact h.routeLeg _ _ hv hr
       · exact h.setOrder _ (by exact hv))

theorem State.listed.wakeHeldArm (h : s.listed) (p : Nat) : (s.wakeHeldArm p).listed := by
  unfold State.wakeHeldArm
  repeat' split
  all_goals first | exact h | exact h.requestLeg _

theorem State.listed.grantOne (h : s.listed) (t : Nat) : (s.grantOne t).listed := by
  unfold State.grantOne
  split
  · rename_i o ho
    split
    · rename_i v target _ hw _
      split
      · exact h.offerLeg _ _ _ _ (h.orders t o ho) (h.orders t o ho v hw)
      · exact h
    · exact h
  · exact h

theorem State.listed.grantPass (h : s.listed) : s.grantPass.listed := h.foldl _ fun _ _ h => h.grantOne _

theorem State.listed.bind (h : s.listed) {t : Nat} (o : Order) (v : Nat) (hr : 1 ≤ v ∧ v ≤ 12) :
    (s.bind t o v).listed := ((h.setOrder _ fun _ e => by cases e; exact hr).onVeh v _).requestLeg t

theorem nearest_mem (s : State) (target : Nat) (vs : List Nat) (best : Option (Nat × Nat)) {v d : Nat}
    (h : s.nearest target vs best = some (v, d)) : v ∈ vs ∨ ∃ e, best = some (v, e) := by
  induction vs generalizing best with
  | nil => exact .inr ⟨d, h⟩
  | cons u us ih =>
    unfold State.nearest at h
    repeat' split at h
    all_goals
      rcases ih _ h with hm | ⟨e, he⟩
      · exact .inl (List.mem_cons_of_mem _ hm)
      · first
        | exact .inr ⟨e, he⟩
        | (simp only [Option.some.injEq, Prod.mk.injEq] at he
           obtain ⟨rfl, -⟩ := he
           exact .inl (by simp))

theorem State.listed.assignOne (h : s.listed) (t : Nat) : (s.assignOne t).listed := by
  unfold State.assignOne
  split
  · exact h
  rename_i o ho
  split
  · exact h
  split
  · exact h
  split
  · rename_i v _ hw
    split
    · exact h.bind o v (h.orders t o ho v hw)
    · exact h
  · exact h
  · split
    · rename_i v _ hw
      refine h.bind o v ?_
      rcases nearest_mem s _ _ _ hw with hm | ⟨e, he⟩
      · simp only [allVehicles, List.mem_cons, List.not_mem_nil, or_false] at hm
        omega
      · cases he
    · exact h

theorem State.listed.assignPass (h : s.listed) : s.assignPass.listed := h.foldl _ fun _ _ h => h.assignOne _

theorem State.listed.close (h : s.listed) (pre : State) (force : Bool) : (s.close pre force).listed := by
  unfold State.close
  dsimp only
  split
  · exact h.grantPass.arbiterPass.assignPass
  · exact h.grantPass.arbiterPass

/-! ### Orders that end or change -/

theorem State.listed.dropGrant (h : s.listed) (v : Nat) : (s.dropGrant v).listed := by
  unfold State.dropGrant
  split
  · exact h
  · exact h.keepZone v _

theorem State.listed.unbind (h : s.listed) (v : Nat) : (s.unbind v).listed := h.onVeh v _

theorem State.listed.freeReel (h : s.listed) (r : Nat) : (s.freeReel r).listed := by
  unfold State.freeReel
  split
  · exact h
  · split
    · exact h.release r
    · dsimp only
      split
      · exact (h.setReel r _).onPos _ _
      · exact h.setReel r _

theorem State.listed.callOffEnds (h : s.listed) (o : Order) : (s.callOffEnds o).listed := by
  unfold State.callOffEnds
  split
  · exact h.whenSome _ fun _ _ h => h.setCallOff _ _ _
  · exact h

theorem State.listed.standDown (h : s.listed) (v : Nat) (o : Order) : (s.standDown v o).listed := by
  unfold State.standDown
  split
  · exact h.onVeh v _
  · exact h

theorem State.listed.freeVehicleOf (h : s.listed) (t : Nat) (o : Order) : (s.freeVehicleOf t o).listed := by
  unfold State.freeVehicleOf
  repeat' split
  all_goals first
    | exact h
    | exact ((h.unbind _).dropGrant _).standDown _ _

theorem State.listed.dropOrder (h : s.listed) (t : Nat) (o : Order) : (s.dropOrder t o).listed :=
  (((((h.withdrawOrderGo t).delOrder t).whenSome _ fun _ _ h => h.freeReel _).whenSome _ fun _ _ h =>
    h.unpromise _).callOffEnds o).freeVehicleOf t o

theorem State.listed.removeOrder (h : s.listed) (t : Nat) : (s.removeOrder t).listed := by
  unfold State.removeOrder
  split
  · exact (h.dropOrder t _).fillBacklog
  · exact h

theorem State.listed.recallLeg (h : s.listed) (t : Nat) (o : Order) : (s.recallLeg t o).listed := by
  unfold State.recallLeg
  dsimp only
  split
  · exact ((h.withdrawOrderGo t).dropGrant _).standDown _ _
  · exact h.withdrawOrderGo t

theorem State.listed.convertTo (h : s.listed) {t : Nat} (o : Order) (b : Nat) (hv : o.vehicleFits) :
    (s.convertTo t o b).listed := by
  unfold State.convertTo
  exact ((((((h.whenSome _ fun _ _ h => h.unpromise _).promise b).setOrder _ (by exact hv)).whenSome _ fun _ _ h => h.onReel _ _).callOffEnds o).recallLeg t
      o).requestLeg t

theorem State.listed.noSpace (h : s.listed) {t : Nat} (o : Order) (hv : o.vehicleFits) :
    (s.noSpace t o).listed := ((h.setOrder _ (by exact hv)).recallLeg t o).raiseSuspended _ _ _ _

theorem State.listed.convert (h : s.listed) (t : Nat) : (s.convert t).listed := by
  unfold State.convert
  split
  · exact h
  rename_i o ho
  split
  · exact h.convertTo _ _ (h.orders t o ho)
  · exact h.noSpace _ (h.orders t o ho)

theorem State.listed.abandonLeg (h : s.listed) {t : Nat} (o : Order) (hv : o.vehicleFits) :
    (s.abandonLeg t o).listed := by
  unfold State.abandonLeg
  have hs : (s.setOrder t { o with state := .cancelling, cancelPending := o.loaded }).listed := h.setOrder _ (by exact hv)
  unfold State.whenSome
  split
  · rename_i v hw
    exact hs.enqueue (by rfl) (by exact hv v hw)
  · exact hs

theorem State.listed.cancelOrder (h : s.listed) {t : Nat} (o : Order) (hv : o.vehicleFits) :
    (s.cancelOrder t o).listed := by
  unfold State.cancelOrder
  repeat' split
  · exact h.abandonLeg o hv
  · exact h.convert t
  · exact h.removeOrder t

theorem State.listed.displaced (h : s.listed) (t : Nat) : (s.displaced t).listed := by
  unfold State.displaced
  split
  · exact h
  rename_i o ho
  split
  · exact h
  rename_i v _
  dsimp only
  have hk := h.keepZone v (s.standingZone v)
  repeat' split
  · exact hk.convert t
  · exact hk.removeOrder t
  · exact hk.requestLeg t
  · refine (hk.setOrder _ ?_).unbind v
    exact (h.orders t o ho).backToWaiting

/-- A HALT put into a part of the queue, where its vehicle has none. -/
theorem State.listed.putHalt (h : s.listed) {f : VehicleFrame} {q : List VehicleFrame} (hf : f.isHalt = true)
    (hv : f.vehicle ≤ 12) (hq : q.Sublist s.vlink.queue) (hs : ∀ g ∈ q ++ s.vlink.waiting, g.slot ≠ f.slot) :
    (s.putHalt f q).listed := by
  have hw : (q ++ s.vlink.waiting).Sublist (s.vlink.queue ++ s.vlink.waiting) := hq.append_right _
  have ho : ((q ++ s.vlink.waiting).map VehicleFrame.slot).Nodup := (hw.map _).nodup h.frames.once
  have hn := fun g hg => h.frames.numbers g (hw.subset hg)
  have hl : q.length ≤ 16 := hq.length_le.trans h.frames.queued
  unfold State.putHalt
  split
  · rename_i hr
    exact h.setFrames (.halt hf hv (.inl (.refl _)) ho hn h.frames.noHalt hs hr)
  · split
    · rename_i g rest ht
      obtain ⟨-, hp, hsub⟩ := takeLast_some ht
      refine State.listed.displaced (h.setFrames (.halt hf hv (.inr (hsub.append_right _)) ho hn h.frames.noHalt hs ?_)) _
      have := hp.length_eq
      simp only [List.length_cons] at this
      omega
    · split
      · rename_i g rest ht
        obtain ⟨hg, hp, -⟩ := takeLast_some ht
        refine h.setFrames (.halt hf hv (.inl ?_) ho hn ?_ hs ?_)
        · exact List.perm_middle.trans (hp.append_right _)
        · intro k hk
          rcases List.mem_cons.1 hk with rfl | hk
          · simpa using hg
          · exact h.frames.noHalt k hk
        · have := hp.length_eq
          simp only [List.length_cons] at this
          omega
      · rename_i hr _ ht
        exfalso
        refine absurd (halts_le (q := q) ?_ ?_ ?_) (by omega)
        · rw [List.map_append] at ho
          exact ho.of_append_left
        · exact fun g hg => (hn g (by simp [hg])).1
        · intro g hg
          simpa using takeLast_none ht g hg

theorem State.listed.queueHalt (h : s.listed) (v : Nat) (hv : v ≤ 12) : (s.queueHalt v).listed := by
  unfold State.queueHalt
  split
  · exact h
  · rename_i hn
    refine h.putHalt rfl hv (.refl _) ?_
    intro g hg he
    rcases List.mem_append.1 hg with hg | hg
    · refine hn (List.any_eq_true.2 ⟨g, hg, ?_⟩)
      cases g <;> simp_all [VehicleFrame.slot]
    · have := h.frames.noHalt g hg
      cases g <;> simp_all [VehicleFrame.slot, VehicleFrame.isHalt]

theorem State.listed.queueHaltAll (h : s.listed) : s.queueHaltAll.listed := by
  refine h.putHalt rfl (Nat.zero_le _) List.filter_sublist ?_
  intro g hg he
  have hh : g.isHalt = false := by
    rcases List.mem_append.1 hg with hg | hg
    · simpa using (List.mem_filter.1 hg).2
    · exact h.frames.noHalt g hg
  cases g <;> simp_all [VehicleFrame.slot, VehicleFrame.isHalt]

/-! ### Completed and failed legs -/

theorem State.listed.takeReel (h : s.listed) (o : Order) (r v : Nat) : (s.takeReel o r v).listed := by
  unfold State.takeReel
  split
  · exact (h.leaveBay _ r).onReel r _
  · exact (h.onPos _ _).onReel r _
  · exact h.onReel r _

theorem State.listed.completeFetch (h : s.listed) (t v : Nat) : (s.completeFetch t v).listed := by
  unfold State.completeFetch
  split
  · exact h
  rename_i o ho
  split
  · exact h
  rename_i r _
  have hl : ((((s.takeReel o r v).rewatch.onVeh v fun x => { x with load := some r, verified := true }).setOrder t
      { o with progress := 2, reason := none }).requestLeg t).listed :=
    (((h.takeReel o r v).rewatch.onVeh v _).setOrder _ (by exact h.orders t o ho)).requestLeg t
  dsimp only
  split
  · exact hl.wakeHeldArm _
  · exact hl

theorem State.listed.stageReel (h : s.listed) (p : Nat) (a : Arm) (r : Nat) : (s.stageReel p a r).listed := by
  unfold State.stageReel
  exact (h.onReel r _).onPos p _

theorem State.listed.dropReel (h : s.listed) (o : Order) (r : Nat) : (s.dropReel o r).listed := by
  unfold State.dropReel
  repeat' split
  · exact ((h.pushBay _ r).unpromise _).rewatch
  · exact (h.stageReel _ _ r).setCallOff _ _ _
  · exact h
  · exact h.delReel r

theorem State.listed.completeOrder (h : s.listed) (t : Nat) (o : Order) (v : Nat) : (s.completeOrder t o v).listed :=
  ((((h.whenSome _ fun _ _ h => (h.dropReel _ _).onVeh v _).delOrder t).unbind v).raise _).fillBacklog

theorem State.listed.suspend (h : s.listed) {t : Nat} (o : Order) (r : Reason) (v : Nat) (hv : o.vehicleFits) :
    (s.suspend t o r v).listed := (h.setOrder _ (by exact hv)).raiseSuspended _ _ _ _

theorem State.listed.setLoad (h : s.listed) (v r : Nat) (b : Bool) : (s.setLoad v r b).listed := h.onVeh v _

theorem State.listed.legFailed (h : s.listed) {t : Nat} (o : Order) (v : Nat) (d : DoneResult) (read : Nat)
    (hv : o.vehicleFits) : (s.legFailed t o v d read).listed := by
  unfold State.legFailed
  repeat' split
  all_goals first
    | exact h.suspend _ _ _ hv
    | exact (h.setLoad _ _ _).suspend _ _ _ hv

theorem State.listed.legAbandoned (h : s.listed) {t : Nat} (o : Order) (v : Nat) (hv : o.vehicleFits) :
    (s.legAbandoned t o v).listed := by
  unfold State.legAbandoned
  split
  · exact h.requestLeg t
  · exact (h.setOrder _ (by exact hv.backToWaiting)).unbind v

theorem State.listed.loadAfter (h : s.listed) (o : Order) (v : Nat) (d : DoneResult) (read : Nat) :
    (s.loadAfter o v d read).listed := by
  unfold State.loadAfter
  repeat' split
  all_goals first
    | exact h
    | exact h.setLoad _ _ _

theorem State.listed.doneCancelling (h : s.listed) {t : Nat} (o : Order) (v : Nat) (d : DoneResult) (read : Nat)
    (hv : o.vehicleFits) : (s.doneCancelling t o v d read).listed := by
  unfold State.doneCancelling
  split
  · split
    · exact h.completeOrder t o v
    · exact h.removeOrder t
  split
  · split
    · split
      · rename_i r _
        have hl : ((((s.takeReel o r v).rewatch.onVeh v fun x =>
            { x with load := some r, verified := true }).setOrder t { o with progress := 2 }).convert t).listed :=
          (((h.takeReel o r v).rewatch.onVeh v _).setOrder _ (by exact hv)).convert t
        dsimp only
        split
        · exact hl.wakeHeldArm _
        · exact hl
      · exact h
    · exact (h.loadAfter o v d read).removeOrder t
  · split
    · exact h.completeOrder t o v
    · exact h.convert t

theorem State.listed.doneActive (h : s.listed) {t : Nat} (o : Order) (v : Nat) (d : DoneResult) (read : Nat)
    (hv : o.vehicleFits) : (s.doneActive t o v d read).listed := by
  unfold State.doneActive
  repeat' split
  all_goals first
    | exact h.legAbandoned _ _ hv
    | exact h.completeOrder _ _ _
    | exact h.completeFetch _ _
    | exact h.legFailed _ _ _ _ hv

theorem State.listed.orderDone (h : s.listed) (t v : Nat) (d : DoneResult) (read : Nat) :
    (s.orderDone t v d read).listed := by
  unfold State.orderDone
  split
  · exact h
  rename_i o ho
  split
  · exact h.doneCancelling _ _ _ _ (h.orders t o ho)
  · exact h.doneActive _ _ _ _ (h.orders t o ho)

theorem State.listed.loseLeg (h : s.listed) (v : Nat) : (s.loseLeg v).listed := by
  unfold State.loseLeg
  split
  · exact h
  rename_i t _
  split
  · exact h
  rename_i o ho
  have hv := h.orders t o ho
  split
  · split
    · exact h.removeOrder t
    · exact ((h.setOrder _ (by exact hv.backToWaiting)).unbind v).raiseSuspended _ _ _ _
  · split
    · exact h
    · dsimp only
      split
      · exact (h.suspend o _ v hv).convert t
      · exact h.suspend o _ v hv

theorem State.listed.retireOrder (h : s.listed) (t : Nat) : (s.retireOrder t).listed := by
  unfold State.retireOrder
  repeat' split
  · exact h
  · exact ((((((h.withdrawOrderGo t).delOrder t).whenSome _ fun _ _ h => h.delReel _).whenSome _ fun _ _ h =>
      h.unpromise _).callOffEnds _).whenSome _ fun _ _ h => h.unbind _).fillBacklog
  · exact h.removeOrder t

/-! ### Vehicles -/

theorem State.listed.raiseFault (h : s.listed) (v : Nat) (c : FaultCode) (a b d : Nat) : (s.raiseFault v c a b d).listed :=
  h.raise _

theorem State.listed.faultVehicle (h : s.listed) (v : Nat) (c : FaultCode) (halt : Bool) (hv : v ≤ 12) :
    (s.faultVehicle v c halt).listed := by
  unfold State.faultVehicle
  have h1 := fun r : Nat => ((h.onVeh v fun x =>
    { x with state := .faulted, prior := none, faultCode := some c, offerMs := none, leg := none }).withdrawFor
      v).raiseFault v c 0 r 0
  dsimp only
  generalize (if c = .load then _ else 0 : Nat) = r
  repeat' split
  · exact ((h1 r).loseLeg v).queueHalt v hv
  · exact (h1 r).queueHalt v hv
  · exact (h1 r).loseLeg v
  · exact h1 r

theorem State.listed.loseVehicle (h : s.listed) (v : Nat) (hv : v ≤ 12) : (s.loseVehicle v).listed := by
  unfold State.loseVehicle
  dsimp only
  split
  · exact (((h.onVeh v _).withdrawFor v).raise _).queueHalt v hv
  · exact ((((h.onVeh v _).withdrawFor v).raise _).loseLeg v).queueHalt v hv

theorem State.listed.silenceEvent (h : s.listed) (v : Nat) (hv : v ≤ 12) : (s.silenceEvent v).listed := by
  unfold State.silenceEvent
  split
  · exact h.loseVehicle v hv
  · exact h

theorem State.listed.offerEvent (h : s.listed) (v : Nat) (hv : v ≤ 12) : (s.offerEvent v).listed := by
  unfold State.offerEvent
  split
  · exact h.faultVehicle v _ _ hv
  · exact h

theorem State.listed.judgeHold (h : s.listed) (t : Nat) : (s.judgeHold t).listed := by
  unfold State.judgeHold
  split
  · exact h
  rename_i o ho
  split
  · exact (h.setOrder _ (by exact h.orders t o ho)).raise _
  · exact h

theorem State.listed.judgeHolds (h : s.listed) : s.judgeHolds.listed := h.forEach _ fun _ _ _ h => h.judgeHold _

theorem State.listed.takeLoad (h : s.listed) (v r : Nat) : (s.takeLoad v r).listed := h.setLoad _ _ _

theorem State.listed.joinAbsent (h : s.listed) (v node load battery : Nat) (hv : v ≤ 12) : (s.joinAbsent v node load battery).listed := by
  unfold State.joinAbsent
  repeat' split
  · exact ((h.setVeh v _).giveZones v _).takeLoad v load
  · exact (h.raise _).queueHalt v hv
  · exact (h.raise _).queueHalt v hv

theorem State.listed.rejoinNode (h : s.listed) (v node : Nat) : (s.rejoinNode v node).listed := by
  unfold State.rejoinNode
  repeat' split
  all_goals first
    | exact h.onVeh v _
    | exact h.raiseFault _ _ _ _ _
    | exact (h.giveZones v _).onVeh v _

theorem State.listed.rejoinLoad (h : s.listed) (v load : Nat) : (s.rejoinLoad v load).listed := by
  unfold State.rejoinLoad
  dsimp only
  repeat' split
  · exact h
  · exact (h.onVeh v _).raiseFault _ _ _ _ _
  · exact h.takeLoad v load

theorem State.listed.rejoin (h : s.listed) (v node load battery : Nat) (hv : v ≤ 12) : (s.rejoin v node load battery).listed :=
  (((h.faultVehicle v _ _ hv).onVeh v _).rejoinNode v node).rejoinLoad v load

theorem State.listed.activate (h : s.listed) (t : Nat) : (s.activate t).listed := h.onOrder t fun _ ho => by split <;> exact ho

theorem State.listed.takeFrame (h : s.listed) (v tag index : Nat) : (s.takeFrame v tag index).listed := by
  unfold State.takeFrame
  dsimp only
  repeat' split
  all_goals first
    | exact h
    | exact (h.onVeh v _).activate tag

theorem State.listed.passFrame (h : s.listed) (v zone : Nat) (hv : v ≤ 12) : (s.passFrame v zone).listed := by
  unfold State.passFrame
  dsimp only
  split
  · exact (h.keepZones _).onVeh v _
  · exact h.faultVehicle v _ _ hv

theorem State.listed.standAt (h : s.listed) (v node : Nat) : (s.standAt v node).listed := (h.onVeh v _).keepZone v _

theorem State.listed.doneFrame (h : s.listed) (v tag index : Nat) (d : DoneResult) (node read : Nat) (hv : v ≤ 12) :
    (s.doneFrame v tag index d node read).listed := by
  unfold State.doneFrame
  dsimp only
  repeat' split
  all_goals first
    | exact h
    | exact (h.standAt v node).orderDone tag v d read
    | exact h.faultVehicle v _ _ hv

theorem State.listed.aliveNode (h : s.listed) (v node : Nat) (hv : v ≤ 12) : (s.aliveNode v node).listed := by
  unfold State.aliveNode
  dsimp only
  repeat' split
  all_goals first
    | exact h
    | exact h.onVeh v _
    | exact h.faultVehicle v _ _ hv

theorem State.listed.aliveFrame (h : s.listed) (v battery node : Nat) (hv : v ≤ 12) : (s.aliveFrame v battery node).listed :=
  (h.onVeh v _).aliveNode v node hv

theorem State.listed.readyFrame (h : s.listed) (v : Nat) : (s.readyFrame v).listed := by
  unfold State.readyFrame
  dsimp only
  repeat' split
  all_goals first
    | exact h
    | exact (h.keepZone v _).onVeh v _
    | exact ((h.keepZone v _).onVeh v _).requestLeg _

theorem State.listed.heard (h : s.listed) (v : Nat) {f : State → State} (hv : v ≤ 12)
    (hf : ∀ s : State, s.listed → (f s).listed) :
    (s.heard v f).listed := by
  unfold State.heard
  dsimp only
  split
  · exact (h.onVeh v _).faultVehicle v _ _ hv
  · exact hf _ (h.onVeh v _)

theorem State.listed.vehicleFrame (h : s.listed) (v : Nat) {f : State → State} (hv : v ≤ 12)
    (hf : ∀ s : State, s.listed → (f s).listed) :
    (s.vehicleFrame v f).listed := by
  unfold State.vehicleFrame
  dsimp only
  repeat' split
  · exact (h.queueHalt v hv).close _ _
  · exact (h.heard v hv hf).close _ _
  · exact h

theorem State.listed.joinFrame (h : s.listed) (v node load battery : Nat) (hv : v ≤ 12) : (s.joinFrame v node load battery).listed := by
  unfold State.joinFrame
  repeat' split
  · exact (h.queueHalt v hv).close _ _
  · exact (h.joinAbsent v node load battery hv).close _ _
  · exact ((h.onVeh v _).rejoin v node load battery hv).close _ _
  · exact h

theorem State.listed.stopVehicle (h : s.listed) (v : Nat) : (s.stopVehicle v).listed := by
  unfold State.stopVehicle
  repeat' split
  all_goals first
    | exact h
    | exact h.onVeh v _
    | exact (h.withdrawGo v).onVeh v _

theorem State.listed.estopVehicle (h : s.listed) (v : Nat) : (s.estopVehicle v).listed := by
  unfold State.estopVehicle
  repeat' split
  all_goals first
    | exact h
    | exact h.onVeh v _

theorem State.listed.sendGoAgain (h : s.listed) (v t : Nat) (hr : 1 ≤ v ∧ v ≤ 12) : (s.sendGoAgain v t).listed := by
  unfold State.sendGoAgain
  split
  · exact h
  rename_i o ho
  split
  · exact h
  · exact (h.setOrder _ (by exact h.orders t o ho)).enqueue (by rfl) (by exact hr)

theorem State.listed.resumeVehicle (h : s.listed) (v : Nat) (hr : 1 ≤ v ∧ v ≤ 12) : (s.resumeVehicle v).listed := by
  unfold State.resumeVehicle
  dsimp only
  split
  · exact (h.onVeh v _).enqueue (by rfl) (by exact hr)
  · exact (h.onVeh v _).whenSome _ fun _ _ h => h.sendGoAgain v _ hr
  · exact h

theorem State.listed.goSent (h : s.listed) (v t i n : Nat) (zs : List Nat) : (s.goSent v t i n zs).listed := by
  unfold State.goSent
  dsimp only
  split
  · exact h
  rename_i o ho
  split
  · exact (h.setOrder _ (by exact h.orders t o ho)).onVeh v _
  · exact h

theorem State.listed.frameSent (h : s.listed) (f : VehicleFrame) : (s.frameSent f).listed := by
  cases f with
  | go v t i n a zs => exact h.goSent v t i n zs
  | halt v => exact h
  | resume v => exact h
  | abandon v t i => exact h

end Sys2Proof.Machine
end

