-- ==== Sys2Proof/Laws/Sampler.lean ====
section
/-!
SUPPORT. The Tension Sampler: the channel the model chooses is the one R135 describes, and there is no other (`State.channelAfter_channel`,
`State.channelAfter_unique`); what the end of a conversion does to the part (`State.endConversion_eq`: R134, R135).
-/

namespace Sys2Proof.Machine

/-! ### The served positions -/

theorem State.mem_dwellSet {s : State} {p : Nat} :
    p ∈ s.dwellSet ↔ p ∈ allPositions ∧ ((s.pos p).sequence = .firing ∨ (s.pos p).sequence = .confirm) := by
  simp [State.dwellSet]

theorem State.mem_allWebs {s : State} {p : Nat} : p ∈ s.allWebs ↔ p ∈ allPositions ∧ (s.pos p).isWeb = true := by
  simp [State.allWebs]

/-- The list the sampler chooses from in its present mode (R135). -/
def State.servedList (s : State) : List Nat := if s.dwellSet ≠ [] then s.dwellSet else s.allWebs

theorem State.mem_servedList {s : State} {p : Nat} : p ∈ s.servedList ↔ s.served p := by
  have quiet : s.dwellSet = [] ↔ ∀ k ∈ allPositions, (s.pos k).sequence ≠ .firing ∧ (s.pos k).sequence ≠ .confirm := by
    simp [State.dwellSet, List.filter_eq_nil_iff]
  unfold State.servedList State.served
  by_cases h : s.dwellSet = []
  · have calm := quiet.mp h
    rw [if_neg (by simpa using h), State.mem_allWebs]
    constructor
    · rintro ⟨hp, hw⟩
      exact ⟨hp, .inr ⟨calm, hw⟩⟩
    · rintro ⟨hp, hd | ⟨-, hw⟩⟩
      · exact absurd hd (by simpa using calm p hp)
      · exact ⟨hp, hw⟩
  · rw [if_pos h, State.mem_dwellSet]
    constructor
    · rintro ⟨hp, hd⟩
      exact ⟨hp, .inl hd⟩
    · rintro ⟨hp, hd | ⟨calm, -⟩⟩
      · exact ⟨hp, hd⟩
      · exact absurd (quiet.mpr calm) h

theorem State.servedList_ascending (s : State) : s.servedList.Pairwise (· < ·) := by
  have up : allPositions.Pairwise (· < ·) := by decide
  unfold State.servedList
  split
  · exact up.filter _
  · exact up.filter _

theorem State.channel_eq (s : State) : s.channel = nextAbove s.sampler.last s.servedList := by
  unfold State.channel State.samplerMode State.servedList
  by_cases hd : s.dwellSet = []
  · by_cases hw : s.allWebs = [] <;> simp [hd, hw, nextAbove]
  · simp [hd]

/-! ### The channel of an interval -/

/-- The first entry of an ascending list is its least. -/
theorem head_le_of_ascending {ps : List Nat} {p k : Nat} (h : ps.Pairwise (· < ·)) (hp : ps.head? = some p) (hk : k ∈ ps) : p ≤ k := by
  cases ps with
  | nil => simp at hp
  | cons q qs =>
    obtain rfl : q = p := by simpa using hp
    rcases List.mem_cons.mp hk with rfl | hk
    · exact Nat.le_refl _
    · exact Nat.le_of_lt ((List.pairwise_cons.mp h).1 k hk)

/-- The first entry above `n` of an ascending list is the least of those above `n`. -/
theorem find_above_le {ps : List Nat} {n p k : Nat} (h : ps.Pairwise (· < ·)) (hp : (ps.find? fun q => decide (n < q)) = some p)
    (hk : k ∈ ps) (hn : n < k) : p ≤ k := by
  rw [← List.head?_filter] at hp
  exact head_le_of_ascending (h.filter _) hp (List.mem_filter.mpr ⟨hk, by simpa using hn⟩)

/-- The channel taken from the list of the served positions is the one R135 describes. -/
theorem State.channelAfter_nextAbove (s : State) (n : Nat) : s.channelAfter n (nextAbove n s.servedList) := by
  have up := s.servedList_ascending
  unfold nextAbove
  cases hf : s.servedList.find? (fun q => decide (n < q)) with
  | some p =>
    exact ⟨State.mem_servedList.mp (List.mem_of_find?_eq_some hf), .inl ⟨by simpa using List.find?_some hf,
      fun k hk hn => find_above_le up hf (State.mem_servedList.mpr hk) hn⟩⟩
  | none =>
    have low : ∀ k, s.served k → k ≤ n := fun k hk => by simpa using List.find?_eq_none.mp hf k (State.mem_servedList.mpr hk)
    cases hh : s.servedList.head? with
    | none =>
      intro k hk
      have := State.mem_servedList.mpr hk
      rw [List.head?_eq_none_iff.mp hh] at this
      exact absurd this List.not_mem_nil
    | some p =>
      exact ⟨State.mem_servedList.mp (List.mem_of_head? hh), .inr ⟨low, fun k hk =>
        head_le_of_ascending up hh (State.mem_servedList.mpr hk)⟩⟩

/-- The channel of the interval that starts now is the one R135 describes. -/
theorem State.channelAfter_channel (s : State) : s.channelAfter s.sampler.last s.channel := by
  rw [State.channel_eq]
  exact s.channelAfter_nextAbove _

theorem State.channelAfter_of {s : State} {n : Nat} {c : Option Nat} (h : nextAbove n s.servedList = c) : s.channelAfter n c :=
  h ▸ s.channelAfter_nextAbove n

/-- R135 leaves one channel for an interval. -/
theorem State.channelAfter_unique {s : State} {n : Nat} {c d : Option Nat} (hc : s.channelAfter n c) (hd : s.channelAfter n d) :
    c = d := by
  cases c with
  | none =>
    cases d with
    | none => rfl
    | some q => exact absurd hd.1 (hc q)
  | some p =>
    cases d with
    | none => exact absurd hc.1 (hd p)
    | some q =>
      obtain ⟨sp, hp⟩ := hc
      obtain ⟨sq, hq⟩ := hd
      congr 1
      rcases hp with ⟨ap, lp⟩ | ⟨bp, lp⟩ <;> rcases hq with ⟨aq, lq⟩ | ⟨bq, lq⟩
      · exact Nat.le_antisymm (lp q sq aq) (lq p sp ap)
      · exact absurd (bq p sp) (by omega)
      · exact absurd (bp q sq) (by omega)
      · exact Nat.le_antisymm (lp q sq) (lq p sp)

/-! ### The end of a conversion -/

/-- The end of a conversion: the sample delivered, the web the last one converted, and the channel of the next interval, all three read from
the state the event found (R134, R135). -/
theorem State.endConversion_eq {s : State} {w : Nat} (n : Nat) (h : s.sampler.converting = some w) :
    s.endConversion n = { s.deliverSample w n with sampler := ⟨w, nextAbove w s.servedList⟩ } := by
  have same : ({ s.deliverSample w n with sampler := ⟨w, none⟩ } : State).servedList = s.servedList := by
    unfold State.deliverSample
    split <;> rfl
  simp only [State.endConversion, h, State.chooseChannel, State.channel_eq, same]

end Sys2Proof.Machine
end

