-- ==== Sys2Proof/Laws/Transmit.lean ====
section
/-!
SUPPORT. What a free transmitter's start of its next frame leaves alone, field by field, and what it brings about: neither
transmitter stands free while a frame it may send waits.
-/

namespace Sys2Proof.Machine

/-! ### `State.startLineFrame` -/

/-- The line link transmitter changes the line link and the Notice Queue, and nothing else. -/
theorem State.startLineFrame_eq (s : State) : s.startLineFrame = { s with
    link := s.startLineFrame.link, notices := s.startLineFrame.notices } := by
  unfold State.startLineFrame
  split <;> rfl

@[simp] theorem State.startLineFrame_pending (s : State) : s.startLineFrame.pending = s.pending := by rw [State.startLineFrame_eq]
@[simp] theorem State.startLineFrame_clock (s : State) : s.startLineFrame.clock = s.clock := by rw [State.startLineFrame_eq]
@[simp] theorem State.startLineFrame_nodes (s : State) : s.startLineFrame.nodes = s.nodes := by rw [State.startLineFrame_eq]
@[simp] theorem State.startLineFrame_routes (s : State) : s.startLineFrame.routes = s.routes := by rw [State.startLineFrame_eq]
@[simp] theorem State.startLineFrame_reels (s : State) : s.startLineFrame.reels = s.reels := by rw [State.startLineFrame_eq]
@[simp] theorem State.startLineFrame_rest (s : State) : s.startLineFrame.rest = s.rest := by rw [State.startLineFrame_eq]
@[simp] theorem State.startLineFrame_bays (s : State) : s.startLineFrame.bays = s.bays := by rw [State.startLineFrame_eq]
@[simp] theorem State.startLineFrame_demands (s : State) : s.startLineFrame.demands = s.demands := by rw [State.startLineFrame_eq]
@[simp] theorem State.startLineFrame_orders (s : State) : s.startLineFrame.orders = s.orders := by rw [State.startLineFrame_eq]
@[simp] theorem State.startLineFrame_vehicles (s : State) : s.startLineFrame.vehicles = s.vehicles := by rw [State.startLineFrame_eq]
@[simp] theorem State.startLineFrame_locks (s : State) : s.startLineFrame.locks = s.locks := by rw [State.startLineFrame_eq]
@[simp] theorem State.startLineFrame_vlink (s : State) : s.startLineFrame.vlink = s.vlink := by rw [State.startLineFrame_eq]
@[simp] theorem State.startLineFrame_vconfig (s : State) : s.startLineFrame.vconfig = s.vconfig := by rw [State.startLineFrame_eq]
@[simp] theorem State.startLineFrame_positions (s : State) : s.startLineFrame.positions = s.positions := by rw [State.startLineFrame_eq]
@[simp] theorem State.startLineFrame_estop (s : State) : s.startLineFrame.estop = s.estop := by rw [State.startLineFrame_eq]
@[simp] theorem State.startLineFrame_sampler (s : State) : s.startLineFrame.sampler = s.sampler := by rw [State.startLineFrame_eq]
@[simp] theorem State.startLineFrame_webs (s : State) : s.startLineFrame.webs = s.webs := by rw [State.startLineFrame_eq]
@[simp] theorem State.startLineFrame_lines (s : State) : s.startLineFrame.lines = s.lines := by rw [State.startLineFrame_eq]
@[simp] theorem State.startLineFrame_slots (s : State) : s.startLineFrame.slots = s.slots := by rw [State.startLineFrame_eq]
@[simp] theorem State.startLineFrame_link_phase (s : State) : s.startLineFrame.link.phase = s.link.phase := by
  unfold State.startLineFrame; split <;> rfl
@[simp] theorem State.startLineFrame_link_rate (s : State) : s.startLineFrame.link.rate = s.link.rate := by
  unfold State.startLineFrame; split <;> rfl
@[simp] theorem State.startLineFrame_link_rx (s : State) : s.startLineFrame.link.rx = s.link.rx := by
  unfold State.startLineFrame; split <;> rfl
@[simp] theorem State.startLineFrame_link_requests (s : State) : s.startLineFrame.link.requests = s.link.requests := by
  unfold State.startLineFrame; split <;> rfl
@[simp] theorem State.startLineFrame_link_counts (s : State) : s.startLineFrame.link.counts = s.link.counts := by
  unfold State.startLineFrame; split <;> rfl
@[simp] theorem State.startLineFrame_notices_overflow (s : State) : s.startLineFrame.notices.overflow = s.notices.overflow := by
  unfold State.startLineFrame; split <;> rfl
@[simp] theorem State.startLineFrame_notices_sequence (s : State) : s.startLineFrame.notices.sequence = s.notices.sequence := by
  unfold State.startLineFrame; split <;> rfl
@[simp] theorem State.startLineFrame_notices_handling (s : State) : s.startLineFrame.notices.handling = s.notices.handling := by
  unfold State.startLineFrame; split <;> rfl

/-! ### `State.startVehicleFrame` -/

/-- The vehicle link transmitter changes the vehicle link and nothing else. -/
theorem State.startVehicleFrame_eq (s : State) : s.startVehicleFrame = { s with vlink := s.startVehicleFrame.vlink } := by
  unfold State.startVehicleFrame
  split <;> rfl

@[simp] theorem State.startVehicleFrame_pending (s : State) : s.startVehicleFrame.pending = s.pending := by rw [State.startVehicleFrame_eq]
@[simp] theorem State.startVehicleFrame_clock (s : State) : s.startVehicleFrame.clock = s.clock := by rw [State.startVehicleFrame_eq]
@[simp] theorem State.startVehicleFrame_nodes (s : State) : s.startVehicleFrame.nodes = s.nodes := by rw [State.startVehicleFrame_eq]
@[simp] theorem State.startVehicleFrame_routes (s : State) : s.startVehicleFrame.routes = s.routes := by rw [State.startVehicleFrame_eq]
@[simp] theorem State.startVehicleFrame_reels (s : State) : s.startVehicleFrame.reels = s.reels := by rw [State.startVehicleFrame_eq]
@[simp] theorem State.startVehicleFrame_rest (s : State) : s.startVehicleFrame.rest = s.rest := by rw [State.startVehicleFrame_eq]
@[simp] theorem State.startVehicleFrame_bays (s : State) : s.startVehicleFrame.bays = s.bays := by rw [State.startVehicleFrame_eq]
@[simp] theorem State.startVehicleFrame_demands (s : State) : s.startVehicleFrame.demands = s.demands := by rw [State.startVehicleFrame_eq]
@[simp] theorem State.startVehicleFrame_orders (s : State) : s.startVehicleFrame.orders = s.orders := by rw [State.startVehicleFrame_eq]
@[simp] theorem State.startVehicleFrame_vehicles (s : State) : s.startVehicleFrame.vehicles = s.vehicles := by rw [State.startVehicleFrame_eq]
@[simp] theorem State.startVehicleFrame_locks (s : State) : s.startVehicleFrame.locks = s.locks := by rw [State.startVehicleFrame_eq]
@[simp] theorem State.startVehicleFrame_vconfig (s : State) : s.startVehicleFrame.vconfig = s.vconfig := by rw [State.startVehicleFrame_eq]
@[simp] theorem State.startVehicleFrame_positions (s : State) : s.startVehicleFrame.positions = s.positions := by rw [State.startVehicleFrame_eq]
@[simp] theorem State.startVehicleFrame_estop (s : State) : s.startVehicleFrame.estop = s.estop := by rw [State.startVehicleFrame_eq]
@[simp] theorem State.startVehicleFrame_sampler (s : State) : s.startVehicleFrame.sampler = s.sampler := by rw [State.startVehicleFrame_eq]
@[simp] theorem State.startVehicleFrame_webs (s : State) : s.startVehicleFrame.webs = s.webs := by rw [State.startVehicleFrame_eq]
@[simp] theorem State.startVehicleFrame_lines (s : State) : s.startVehicleFrame.lines = s.lines := by rw [State.startVehicleFrame_eq]
@[simp] theorem State.startVehicleFrame_slots (s : State) : s.startVehicleFrame.slots = s.slots := by rw [State.startVehicleFrame_eq]
@[simp] theorem State.startVehicleFrame_link (s : State) : s.startVehicleFrame.link = s.link := by rw [State.startVehicleFrame_eq]
@[simp] theorem State.startVehicleFrame_notices (s : State) : s.startVehicleFrame.notices = s.notices := by rw [State.startVehicleFrame_eq]
@[simp] theorem State.startVehicleFrame_vlink_rx (s : State) : s.startVehicleFrame.vlink.rx = s.vlink.rx := by
  unfold State.startVehicleFrame; split <;> rfl
@[simp] theorem State.startVehicleFrame_vlink_discarded (s : State) : s.startVehicleFrame.vlink.discarded = s.vlink.discarded := by
  unfold State.startVehicleFrame; split <;> rfl

/-! ### `State.transmit` -/

@[simp] theorem State.transmit_pending (s : State) : s.transmit.pending = s.pending := by
  unfold State.transmit; dsimp only; repeat' split
  all_goals simp
@[simp] theorem State.transmit_clock (s : State) : s.transmit.clock = s.clock := by
  unfold State.transmit; dsimp only; repeat' split
  all_goals simp
@[simp] theorem State.transmit_nodes (s : State) : s.transmit.nodes = s.nodes := by
  unfold State.transmit; dsimp only; repeat' split
  all_goals simp
@[simp] theorem State.transmit_routes (s : State) : s.transmit.routes = s.routes := by
  unfold State.transmit; dsimp only; repeat' split
  all_goals simp
@[simp] theorem State.transmit_reels (s : State) : s.transmit.reels = s.reels := by
  unfold State.transmit; dsimp only; repeat' split
  all_goals simp
@[simp] theorem State.transmit_rest (s : State) : s.transmit.rest = s.rest := by
  unfold State.transmit; dsimp only; repeat' split
  all_goals simp
@[simp] theorem State.transmit_bays (s : State) : s.transmit.bays = s.bays := by
  unfold State.transmit; dsimp only; repeat' split
  all_goals simp
@[simp] theorem State.transmit_demands (s : State) : s.transmit.demands = s.demands := by
  unfold State.transmit; dsimp only; repeat' split
  all_goals simp
@[simp] theorem State.transmit_orders (s : State) : s.transmit.orders = s.orders := by
  unfold State.transmit; dsimp only; repeat' split
  all_goals simp
@[simp] theorem State.transmit_vehicles (s : State) : s.transmit.vehicles = s.vehicles := by
  unfold State.transmit; dsimp only; repeat' split
  all_goals simp
@[simp] theorem State.transmit_locks (s : State) : s.transmit.locks = s.locks := by
  unfold State.transmit; dsimp only; repeat' split
  all_goals simp
@[simp] theorem State.transmit_vconfig (s : State) : s.transmit.vconfig = s.vconfig := by
  unfold State.transmit; dsimp only; repeat' split
  all_goals simp
@[simp] theorem State.transmit_positions (s : State) : s.transmit.positions = s.positions := by
  unfold State.transmit; dsimp only; repeat' split
  all_goals simp
@[simp] theorem State.transmit_estop (s : State) : s.transmit.estop = s.estop := by
  unfold State.transmit; dsimp only; repeat' split
  all_goals simp
@[simp] theorem State.transmit_sampler (s : State) : s.transmit.sampler = s.sampler := by
  unfold State.transmit; dsimp only; repeat' split
  all_goals simp
@[simp] theorem State.transmit_webs (s : State) : s.transmit.webs = s.webs := by
  unfold State.transmit; dsimp only; repeat' split
  all_goals simp
@[simp] theorem State.transmit_lines (s : State) : s.transmit.lines = s.lines := by
  unfold State.transmit; dsimp only; repeat' split
  all_goals simp
@[simp] theorem State.transmit_slots (s : State) : s.transmit.slots = s.slots := by
  unfold State.transmit; dsimp only; repeat' split
  all_goals simp
@[simp] theorem State.transmit_link_phase (s : State) : s.transmit.link.phase = s.link.phase := by
  unfold State.transmit; dsimp only; repeat' split
  all_goals simp
@[simp] theorem State.transmit_link_rate (s : State) : s.transmit.link.rate = s.link.rate := by
  unfold State.transmit; dsimp only; repeat' split
  all_goals simp
@[simp] theorem State.transmit_link_rx (s : State) : s.transmit.link.rx = s.link.rx := by
  unfold State.transmit; dsimp only; repeat' split
  all_goals simp
@[simp] theorem State.transmit_link_requests (s : State) : s.transmit.link.requests = s.link.requests := by
  unfold State.transmit; dsimp only; repeat' split
  all_goals simp
@[simp] theorem State.transmit_link_counts (s : State) : s.transmit.link.counts = s.link.counts := by
  unfold State.transmit; dsimp only; repeat' split
  all_goals simp
@[simp] theorem State.transmit_vlink_rx (s : State) : s.transmit.vlink.rx = s.vlink.rx := by
  unfold State.transmit; dsimp only; repeat' split
  all_goals simp
@[simp] theorem State.transmit_vlink_discarded (s : State) : s.transmit.vlink.discarded = s.vlink.discarded := by
  unfold State.transmit; dsimp only; repeat' split
  all_goals simp
@[simp] theorem State.transmit_notices_overflow (s : State) : s.transmit.notices.overflow = s.notices.overflow := by
  unfold State.transmit; dsimp only; repeat' split
  all_goals simp
@[simp] theorem State.transmit_notices_sequence (s : State) : s.transmit.notices.sequence = s.notices.sequence := by
  unfold State.transmit; dsimp only; repeat' split
  all_goals simp
@[simp] theorem State.transmit_notices_handling (s : State) : s.transmit.notices.handling = s.notices.handling := by
  unfold State.transmit; dsimp only; repeat' split
  all_goals simp

/-- A transmitter that is sending goes on with its frame. -/
theorem State.transmit_of_busy {s : State} (h : s.link.tx.isSome = true) (k : s.vlink.tx.isSome = true) : s.transmit = s := by
  simp [State.transmit, h, k]

/-! ### No transmitter stands free while a frame waits -/

/-- A transmitter finds no frame to send exactly when every queued frame is a GO under an emergency stop (R79, R80). -/
theorem takeSendable_none {e : Bool} {q : List VehicleFrame} (h : takeSendable e q = none) :
    ∀ f ∈ q, e = true ∧ f.isGo = true := by
  induction q with
  | nil => simp
  | cons f fs ih =>
    unfold takeSendable at h
    split at h
    · split at h
      · simp at h
      · rename_i hf _ hn
        simp only [Bool.and_eq_true] at hf
        exact List.forall_mem_cons.mpr ⟨hf, ih hn⟩
    · simp at h

theorem State.startLineFrame_idle {s : State} (h : s.startLineFrame.link.tx = none) :
    s.startLineFrame.link.portReplies = [] ∧ s.startLineFrame.link.replies = [] ∧ s.startLineFrame.notices.queue = [] := by
  unfold State.startLineFrame at h ⊢
  split at h <;> simp_all

theorem State.startVehicleFrame_idle {s : State} (h : s.startVehicleFrame.vlink.tx = none) :
    ∀ f ∈ s.startVehicleFrame.vlink.queue, s.estop.level = true ∧ f.isGo = true := by
  unfold State.startVehicleFrame at h ⊢
  split at h
  · simp [State.setFrames] at h
  · rename_i hn
    exact takeSendable_none hn

/-- The event has ended: no transmitter stands free while a frame it may send waits. -/
theorem State.transmit_sending (s : State) : s.transmit.sending := by
  have hl : ∀ u : State, u = (if s.link.tx.isSome then s else s.startLineFrame) → u.link.tx = none →
      u.link.portReplies = [] ∧ u.link.replies = [] ∧ u.notices.queue = [] := by
    intro u hu h
    by_cases hb : s.link.tx.isSome = true
    · simp_all
    · rw [if_neg hb] at hu
      subst hu
      exact State.startLineFrame_idle h
  unfold State.transmit
  generalize hu : (if s.link.tx.isSome then s else s.startLineFrame) = u
  by_cases hb : u.vlink.tx.isSome = true
  · simp only [hb, if_true]
    exact ⟨hl u hu.symm, fun h => by simp [h] at hb⟩
  · rw [if_neg hb]
    refine ⟨fun h => by simpa using hl u hu.symm (by simpa using h), fun h => ?_⟩
    rw [State.startVehicleFrame_estop]
    exact State.startVehicleFrame_idle h

end Sys2Proof.Machine
end

