-- ==== Sys2Proof/Tests/Slice0.lean ====
section
/-!
SUPPORT. Tests: the well-formedness checks, the spec's worked cases, and for every statement with hypotheses a concrete state and
operands that meet them, named after the statement. A worked case's expected values are the spec's own.
-/

namespace Sys2Proof.Tests

-- One theorem at a time, so that checking the tests stays within the memory a compile may use.
set_option Elab.async false

open Sys2Proof.Machine

/-! ### Small states -/

/-- A whole floor plan in CONFIG: nodes 1 to 4, two routes, two bays. -/
def plan : State :=
  { State.reset with
    nodes := ⟨[(1, ⟨1, .bayAccess⟩), (2, ⟨2, .stand⟩), (3, ⟨3, .intake⟩), (4, ⟨4, .waste⟩)]⟩
    routes := ⟨[(258, ⟨1, 2, [9], 30⟩), (769, ⟨3, 1, [], 20⟩)]⟩
    bays := ⟨[(1, ⟨1, 3, [], 0⟩), (2, ⟨1, 1, [], 0⟩)]⟩ }

/-- The plan committed. -/
def hall : State := { plan with link := { plan.link with phase := .run } }

/-- A record in a state at a place. -/
def reelAt (st : ReelState) (l : Location) : Reel := ⟨1, 1, 1000, 70, 0, 0, 0, .intake, st, l, none, none, none⟩

/-- Reel 7 STORED alone in bay 1. -/
def stocked : State := (hall.setReel 7 (reelAt .stored (.inBay 1 1))).setBay 1 ⟨1, 3, [7], 0⟩

/-- Position 1 enabled at the stand with this record. -/
def standing (s : State) (x : Position) : State := s.setPos 1 { x with enabled := true, standNode := 2 }

/-- A WEB position: reel 7 runs on arm A, reel 8 lies on arm B, the sequence as given. -/
def web (q : Sequence) : Position :=
  { Position.reset with
    armA := some 7, armB := some 8, running := some .A, sequence := q, enabled := true, standNode := 2
    gauge := { Gauge.reset with estimate := some 9600, remaining := 700000, caliper := 70 } }

/-- Position 1 with that web and its reels. -/
def running (q : Sequence) : State :=
  ((hall.setPos 1 (web q)).setReel 7 (reelAt .running (.onArm 1 .A))).setReel 8 (reelAt .staged (.onArm 1 .B))

/-- Vehicle 1 at node 1, its zone held. -/
def cart (st : VehicleState) : Vehicle := ⟨st, none, none, 1, some 1, none, false, 80, none, none, 0, 0, none⟩

def driving (s : State) (x : Vehicle) : State := { s with locks := s.locks.insert 1 1 }.setVeh 1 x

/-- A RELOCATE of reel 7 from bay 1 to bay 2. -/
def shift : Order := hall.newOrder ⟨.relocate, .normal, some 7, .bay 1 1, .bay 2 0, none, none⟩

/-- The order under tag 5, bound to vehicle 1. -/
def tasked (s : State) (x : Vehicle) (o : Order) : State :=
  (driving s { x with order := some 5 }).setOrder 5 { o with vehicle := some 1 }

/-- The leg of order 5. -/
def legFive (target : Nat) (zones : List Nat) : Leg := ⟨5, 1, target, zones, 0⟩

/-- Line 1 with this record. -/
def lined (x : Line) : State := hall.setLine 1 x

/-- The state after a command. -/
def after (c : Instr) (s : State) : State :=
  match exec c s with
  | .next t => t
  | _ => s

/-- The status byte of the reply in transmission: the byte after sync, length, kind and tag (12.1). -/
def lastStatus (s : State) : Option Byte := s.link.tx.bind fun b => b[5]?

/-! ### Well-formedness: each check refuses an ill-formed term -/

theorem test_wf_tag : (Instr.ident 65536).wellFormed = false ∧ (Instr.ident 65535).wellFormed = true := by decide
theorem test_wf_byte : (Instr.halt 1 256).wellFormed = false ∧ (Instr.halt 1 255).wellFormed = true := by decide
theorem test_wf_pair : (Instr.resttime 1 1 65536).wellFormed = false := by decide
theorem test_wf_quad : (Instr.setclock 1 4294967296).wellFormed = false := by decide +kernel
theorem test_wf_reel : (Instr.intake 1 ⟨7, 256, 1, 1000, 70, 0⟩ 0 0).wellFormed = false := by decide
theorem test_wf_params : (Instr.poscfg 1 1 { defaultParams with matchTolerance := 256 }).wellFormed = false := by decide +kernel
theorem test_wf_zones : (Instr.defroute 1 1 2 30 [1, 2, 3, 4, 5, 6, 7, 8, 9]).wellFormed = false := by decide
theorem test_wf_zone : (Instr.defroute 1 1 2 30 [256]).wellFormed = false := by decide
theorem test_wf_envset_clear : (Instr.envset 1 1 2 [0] [] 0).wellFormed = false ∧ (Instr.envset 1 1 2 [] [] 0).wellFormed = true := by
  decide
theorem test_wf_envset_write : (Instr.envset 1 1 1 [0] [0] 0).wellFormed = false := by decide
theorem test_wf_oversize : (Instr.oversizeLength .line 240#8).wellFormed = false := by decide
theorem test_wf_vehicle : (Instr.ready 0).wellFormed = false ∧ (Instr.ready 13).wellFormed = false := by decide
theorem test_wf_order : (Instr.zoneWaitLimit 0).wellFormed = false := by decide +kernel
theorem test_wf_position : (Instr.webCount 9).wellFormed = false := by decide
theorem test_wf_line : (Instr.copyEvent 0).wellFormed = false := by decide
theorem test_wf_sample : (Instr.tensionSampleDelivered 4096).wellFormed = false := by decide +kernel
theorem test_wf_input : (Instr.inputFilterSample (.spliceConfirm 9) true).wellFormed = false := by decide

/-! ### The spec's worked cases -/

/-- R167: the check of the bytes 49 to 57. -/
theorem test_check_sum :
    crc [0x31#8, 0x32#8, 0x33#8, 0x34#8, 0x35#8, 0x36#8, 0x37#8, 0x38#8, 0x39#8] = 10673#16 := by decide +kernel

/-- A BUTTOFF frame of position 3, arm B, tag 0x0102, field by field (12.1, 12.3). -/
theorem test_read_buttoff : readRequest 0x2D [3#8, 2#8] = some (.buttoff 3 2) := by decide +kernel

/-- An ENVSET CLEAR and a DEFROUTE with two zones (12.3). -/
theorem test_read_counted : readRequest 0x3A [2#8, 2#8] = some (.envset 2 2 [] [] 0) ∧
    readRequest 0x0A [1#8, 96#8, 7#8, 208#8, 2#8, 9#8, 48#8] = some (.defroute 1 96 2000 [9, 48]) ∧
    readRequest 0x0A [1#8, 96#8, 7#8, 208#8, 3#8, 9#8, 48#8] = none := by decide +kernel

/-- The envelope of section 8.2's worked case. -/
def worked : Envelope := ⟨[6, 7, 4, 0, 0, 0, 0, 0, 0, 0, 0, 0], [24, 12, 8, 8, 8, 8, 8, 8, 8, 8, 8, 8], -2⟩

theorem test_envelope_signature : worked.signature = 2222 ∧ worked.length = 390 ∧
    worked.boundaries = [100, 250, 300, 310, 320, 330, 340, 350, 360, 370, 380, 390] := by decide +kernel

theorem test_envelope_thresholds :
    [50, 100, 130, 175, 249, 250, 299, 300, 389].map worked.thresholdAt = [22, 22, 20, 16, 11, 10, 7, 6, 6] := by decide +kernel

/-- Section 5.3's worked case: an update from 9600 at 1870 counts. -/
theorem test_diameter_update : measured 1870 = 9524 ∧ judgeSample 9600 9524 = .update 9581 ∧ (9581 + 8) / 16 = 599 ∧
    paperLength 599 130 70 = 3836129 := by decide +kernel

/-- Section 5.3's second case: marks 1, 2 and 5. -/
theorem test_diameter_limits : measured 3142 = 16002 ∧ judgeSample 20000 16002 = .reject ∧ measured 3141 = 15997 ∧
    judgeSample 15997 15992 = .update 15996 ∧ paperLength 1000 130 70 = 11030382 := by decide +kernel

/-- The reseed of that case: the fourth rejection. -/
theorem test_mark_reseeds :
    let x := { web .ready with gauge := { Gauge.reset with estimate := some 20000, rejections := 3, deltaL := 3141, caliper := 70 } }
    let g := ((after (.revolutionMark 1) (hall.setPos 1 x)).pos 1).gauge
    g.estimate = some 15997 ∧ g.remaining = 11030382 ∧ g.rejections = 0 ∧ g.flagS = true ∧ g.flagH = false := by decide +kernel

/-- R134: deviations at setpoints 2000 and 100. -/
theorem test_deviation : deviationOf 2110 2000 = 11 ∧ deviationOf 2400 2000 = 40 ∧ deviationOf 2001 2000 = 1 ∧
    deviationOf 0 2000 = 200 ∧ deviationOf 4095 100 = 255 := by decide +kernel

/-- R115: at 12,000 mm/s with tolerance 5 a standby speed of 11,940 passes and 11,930 fails. -/
theorem test_match :
    Position.matches { web .accel with gauge := { Gauge.reset with speed := 12000, standbySpeed := 11940 } } = true ∧
    Position.matches { web .accel with gauge := { Gauge.reset with speed := 12000, standbySpeed := 11930 } } = false := by
  decide +kernel

/-- Section 7.4's example: webs 5 and 7 of line 2, tested 9 and 21, charge record 12. -/
theorem test_classify :
    let w (k : EnvelopeKind) (m : Nat) (slot link : Option Nat) : Web :=
      { Web.blank with kind := k, maximum := m, fresh := true, slot := slot, link := link, index := 100 }
    let s := ((hall.setPos 5 (web .ready)).setPos 7 (web .ready)).setWeb 7 (w .splice 21 (some 1) (some 12))
    let e : Envelope := ⟨[15, 0, 0, 0, 0, 0, 0, 0, 0, 0, 0, 0], [20, 0, 0, 0, 0, 0, 0, 0, 0, 0, 0, 0], 0⟩
    let s := { s with slots := s.slots.insert 1 e }
    (s.setWeb 5 (w .steady 9 none none)).classify 2 = .splice 12 ∧ (s.setWeb 5 (w .steady 6 none none)).classify 2 = .splice 12 ∧
    ((s.setWeb 7 (w .splice 18 (some 1) (some 12))).setWeb 5 (w .steady 9 none none)).classify 2 = .tension ∧
    ((s.setWeb 7 (w .splice 18 (some 1) (some 12))).setWeb 5 (w .steady 6 none none)).classify 2 = .good := by decide +kernel

/-- R19 and R139: the clamps of RESTTIME and LINECFG. -/
theorem test_resttime_clamps : (after (.resttime 1 3 5000) hall).restMinutes 3 = 4320 := by decide +kernel
theorem test_linecfg_clamps : ((after (.linecfg 1 2 40 1) hall).line 2).steady = 31 ∧
    ((after (.linecfg 1 2 40 1) hall).line 2).filterCount = 2 := by decide +kernel

/-- Section 11.3's worked sequence: the ORDER_DONE of 415 is refused, the NOSTOCK of 416 displaces the ORDER_DONE of 412. -/
def crowded : Notices :=
  ⟨(List.replicate 3 ⟨1, 0, 1, .vehicleFault 1 .drive 0 0 0 0 0 0⟩) ++ (List.replicate 25 ⟨2, 0, 2, .orderHeld 1 1 0 0 0⟩) ++
    [⟨3, 0, 410, .spliceDone 1 1 1 1 1 .confirm⟩, ⟨3, 0, 402, .orderDone 1 .ret 1 1⟩, ⟨3, 0, 407, .orderDone 2 .ret 1 1⟩,
      ⟨3, 0, 412, .orderDone 3 .ret 1 1⟩], false, 412, defaultHandling⟩

theorem test_notice_refused : (crowded.offer ⟨3, 0, 415, .orderDone 4 .ret 1 1⟩).queue = crowded.queue ∧
    (crowded.offer ⟨3, 0, 415, .orderDone 4 .ret 1 1⟩).overflow = true := by decide +kernel

theorem test_notice_displaces : ((crowded.offer ⟨2, 0, 416, .noStock 1 1 1⟩).queue.map (·.sequence)) =
    [1, 1, 1, 416] ++ List.replicate 25 2 ++ [410, 402, 407] := by decide +kernel

/-! ### The hypotheses of the statements are met -/

theorem test_witness_StepRunsTheFrontCommand : State.reset.pending = [] := rfl

theorem test_witness_RequestFrameIsAccepted : (Request.defroute 1 96 2000 [1, 48]).fits = true ∧ hall.link.rx.held = [] ∧
    hall.link.requests.length < 4 := by decide +kernel

/-- The request queue, and the port reply queue, full. -/
def askedFull : State := { hall with link := { hall.link with requests := List.replicate 4 ⟨1, .ident⟩ } }
def portFull : State := { hall with link := { hall.link with portReplies := List.replicate 4 ⟨128, 0, []⟩ } }

theorem test_witness_RefusedFrames : hall.link.rx.held = [] ∧ hall.link.portReplies.length < 4 ∧ 255 ∉ requestKinds ∧
    3 ∈ requestKinds ∧ readRequest 3 [1#8] = none ∧ (readRequest 1 []).isSome = true ∧ 4 ≤ askedFull.link.requests.length ∧
    4 ≤ portFull.link.portReplies.length ∧
    (0#8).toNat ≤ 240 ∧ [1#8, 0#8, 0#8, 0#8, 0#8].length = 5 + (0#8).toNat ∧ syncByte ≠ 0#8 ∧
    syncByte ∉ [1#8, 0#8, 0#8, 0#8, 0#8] ∧
    crcBytes (0#8 :: [1#8, 0#8, 0#8, 0#8, 0#8].take 3) ≠ [1#8, 0#8, 0#8, 0#8, 0#8].drop 3 := by decide +kernel

/-- Both receivers inside a frame. -/
def midFrame : State :=
  { hall with link := { hall.link with rx := ⟨[syncByte, 1#8, 2#8], 3⟩ }, vlink := { hall.vlink with rx := ⟨[syncByte], 0⟩ } }

theorem test_witness_OversizeAndGap : 240 < (241#8).toNat ∧ hall.link.rx.held.length ≤ 1 ∧ midFrame.vlink.rx.held.length ≤ 1 ∧
    midFrame.link.rx.held ≠ [] ∧ midFrame.vlink.rx.held ≠ [] ∧ hall.link.rx.held = [] ∧ hall.vlink.rx.held = [] := by decide +kernel

/-- No free place for a reply. -/
def repliesFull : State := { hall with link := { hall.link with replies := List.replicate 8 ⟨128, 0, []⟩ } }

theorem test_witness_RequestTakenRunsTheHead : (Instr.halt 5 3).request = some (5, .halt 3) ∧ hall.link.replies.length < 8 ∧
    hall.link.requests = [] ∧ 8 ≤ repliesFull.link.replies.length ∧
    askedFull.link.requests = ⟨1, .ident⟩ :: List.replicate 3 ⟨1, .ident⟩ ∧ askedFull.link.replies.length < 8 := by decide +kernel

theorem test_witness_RequestsOutOfPhase : (Instr.restart 5).request = some (5, .restart) ∧ plan.link.phase = .config ∧
    kindOf .restart ∉ [1, 2, 3, 8, 9, 10, 11, 12] ∧ (Instr.commit 5).request = some (5, .commit) ∧ hall.link.phase = .run ∧
    kindOf .commit ∈ [8, 9, 10, 11, 12] ∧ 8 ≤ repliesFull.link.replies.length := by decide +kernel

theorem test_witness_LineTransmitterOrder : portFull.link.portReplies = ⟨128, 0, []⟩ :: List.replicate 3 ⟨128, 0, []⟩ ∧
    repliesFull.link.portReplies = [] ∧ repliesFull.link.replies = ⟨128, 0, []⟩ :: List.replicate 7 ⟨128, 0, []⟩ ∧
    hall.link.portReplies = [] ∧ hall.link.replies = [] ∧ hall.notices.queue = [] ∧
    ({ hall with notices := crowded } : State).notices.queue =
      ⟨1, 0, 1, .vehicleFault 1 .drive 0 0 0 0 0 0⟩ :: crowded.queue.tail ∧
    hall.link.tx = none ∧ hall.vlink.tx ≠ none ∧ (after .lineFrameSent portFull).link.tx ≠ none ∧
    (after .lineFrameSent portFull).vlink.tx ≠ none ∧ (State.resetAt .baud115200).link.tx = none ∧
    (State.resetAt .baud115200).vlink.tx = none ∧
    (after .lineFrameSent { portFull with vlink := (State.resetAt .baud115200).vlink }).link.tx ≠ none ∧
    (after .lineFrameSent { portFull with vlink := (State.resetAt .baud115200).vlink }).vlink.tx = none := by decide +kernel

/-- A queue of 32 in queue order, of level 2. -/
def fullQueue : Notices := ⟨(List.range 32).map fun k => ⟨2, 0, k, .noStock 1 1 1⟩, false, 31, defaultHandling⟩

theorem test_witness_NoticeOverflow : fullQueue.queue.Pairwise (fun a b => a.before b = true) ∧ fullQueue.queue.length = 32 ∧
    (∀ m ∈ fullQueue.queue, m.sequence < 99) ∧ (∃ m ∈ fullQueue.queue, 1 < m.level) ∧
    (∀ m ∈ fullQueue.queue, m.level ≤ 2) ∧ hall.notices.queue.length < 32 := by decide +kernel

theorem test_witness_NoticeHandling : hall.takes = true ∧ noticeModeOf 2 = some (some .both) ∧ noticeLevelOf 255 = some none ∧
    6 ∈ [6, 7, 9] ∧ 15 ∉ [6, 7, 9] ∧ (hall.handling 1).mode = .report ∧ (hall.handling 6).mode = .both ∧
    ((after (.noticecfg 1 6 1 0) hall).handling 6).mode = .auto ∧ ((after (.noticecfg 1 1 3 0) hall).handling 1).mode = .off ∧
    ((3 < 4 ∧ 4 ≠ 255) ∨ (3 < 0 ∧ 0 ≠ 255)) ∧ noticeModeOf 4 = none ∧ noticeLevelOf 254 = none := by
  decide +kernel

theorem test_witness_QueriesChangeNothing : stocked.takes = true ∧ stocked.reel 7 = some (reelAt .stored (.inBay 1 1)) ∧
    stocked.bay 1 = some ⟨1, 3, [7], 0⟩ ∧ (tasked stocked (cart .idle) shift).order 5 = some { shift with vehicle := some 1 } ∧
    hall.slot 4 = none ∧ ({ hall with slots := hall.slots.insert 4 worked } : State).slot 4 = some worked := by decide +kernel

theorem test_witness_QueriesInTurn : stocked.takes = true ∧ stocked.canonical = true ∧ stocked.reel 7 ≠ none ∧
    (∀ j < 7, stocked.reel j = none) ∧ stocked.bay 2 ≠ none ∧ (tasked stocked (cart .idle) shift).order 5 ≠ none ∧
    (∀ j < 5, (tasked stocked (cart .idle) shift).order j = none) ∧ (tasked stocked (cart .idle) shift).canonical = true := by
  decide +kernel

theorem test_witness_QueriesInTurn_none : (∀ j, hall.reel j = none) ∧ (∀ j, hall.order j = none) ∧ ∀ j, State.reset.bay j = none :=
  ⟨fun _ => rfl, fun _ => rfl, fun _ => rfl⟩

/-- Press running of line 1. -/
def pressing : Line := { Line.reset with press := ⟨true, 0⟩ }

theorem test_witness_StatusAndRestart : hall.link.replies.length < 8 ∧ hall.takes = true ∧ (lined pressing).takes = true ∧
    ((lined pressing).line 1).press.level = true ∧ (hall.line 1).press.level = false ∧ (hall.line 2).press.level = false ∧
    ({ hall with sampler := ⟨3, some 4⟩ } : State).restarted.sampler = ⟨0, some 4⟩ := by
  decide +kernel

/-- Order 5 HELD(ZONES) since second 79, at second 199. -/
def waiting : State :=
  { tasked stocked (cart .idle) { shift with state := .heldZones, heldSince := some 79 } with clock := ⟨199, 0⟩, rest := ⟨hall.rest.minutes, some 200⟩ }

theorem test_witness_HallClock : hall.link.replies.length < 8 ∧ waiting.clock.seconds < counterMax ∧
    waiting.rest.watch = some (waiting.clock.seconds + 1) ∧ waiting.order 5 ≠ none ∧
    waiting.vconfig.zoneWait < waiting.clock.seconds + 1 - 79 ∧
    ({ waiting with clock := ⟨counterMax, 0⟩ } : State).clock.seconds = counterMax ∧
    ({ waiting with clock := ⟨200, 0⟩ } : State).rest.watch = some 200 ∧ hall.rest.watch = none ∧
    waiting.vconfig.zoneWait < ({ waiting with clock := ⟨200, 0⟩ } : State).clock.seconds - 79 ∧
    (let h : Order := { shift with state := .heldZones, heldSince := some 79, vehicle := some 1 };
      let w : State := { waiting with clock := ⟨200, 0⟩ };
      w.order 5 = some h ∧ w.secondsHeld h = 121 ∧ w.vconfig.zoneWait < 121 ∧ waiting.secondsHeld h ≤ waiting.vconfig.zoneWait ∧
      h.holdReported = false ∧ w.order 6 = none ∧ hall.orders.table.entries = [] ∧
      (after (.setclock 3 200) waiting).notices.queue.length = 1) := by decide +kernel

/-- 1024 routes, none of them from node 1 to node 2. -/
def manyRoutes : State := { plan with routes := ⟨(List.range 1024).map fun k => (1000 + k, ⟨9, 9, [], 1⟩)⟩ }

theorem test_witness_FloorPlanRequests : plan.plans = true ∧ nodeKindOf 6 = some .charger ∧ (plan.route 1 2).isSome = true ∧
    [1, 48].Nodup ∧ ¬[9, 9].Nodup ∧ plan.routes.count < 1024 ∧ manyRoutes.route 1 2 = none ∧ 1024 ≤ manyRoutes.routes.count ∧
    manyRoutes.plans = true := by decide +kernel

theorem test_witness_CommitNeedsAWholePlan : plan.plans = true ∧ State.reset.plans = true ∧
    (∀ e ∈ plan.bays.entries, (plan.nodes.find e.2.node).map (·.kind) = some .bayAccess) ∧
    (∀ e ∈ plan.routes.entries, plan.nodes.has e.2.src = true ∧ plan.nodes.has e.2.dst = true) ∧
    (∀ p ∈ allPositions, (plan.pos p).enabled = false) ∧ (∃ e ∈ plan.nodes.entries, e.2.kind = .intake) ∧
    (∃ e ∈ plan.nodes.entries, e.2.kind = .waste) ∧ ¬(∃ e ∈ State.reset.nodes.entries, e.2.kind = .waste) ∧
    lastStatus (after (.commit 1) plan) = some 0#8 ∧ lastStatus (after (.commit 1) State.reset) = some 6#8 := by decide +kernel

/-- Reel 7 INCOMING at the intake without an order. -/
def incoming : State := hall.setReel 7 (reelAt .incoming (.atIntake 3))

theorem test_witness_IntakeMakesAnOrder : hall.takes = true ∧ reelDataOk ⟨7, 1, 1, 1000, 70, 0⟩ = true ∧ hall.ordersFull = false ∧
    hall.reel 7 = none ∧ hall.reels.count < 512 ∧ hall.nodeOfKind .intake = some 3 ∧ hall.targetBay 0 1 1 none = some 1 ∧
    hall.nodeHasKind 3 .intake = true ∧ hall.targetBay 2 1 1 none = some 2 ∧ (hall.bay 2).isSome = true ∧
    incoming.reel 7 = some (reelAt .incoming (.atIntake 3)) ∧ incoming.targetBay 0 1 1 none = some 1 ∧
    incoming.nodeHasKind 3 .intake = true := by decide +kernel

theorem test_witness_RestockAndRemove : hall.takes = true ∧ originOf 2 = some .returned ∧ hall.bay 1 = some ⟨1, 3, [], 0⟩ ∧
    hall.topFree ⟨1, 3, [], 0⟩ = true ∧ hall.reel 7 = none ∧ stocked.reel 7 = some (reelAt .stored (.inBay 1 1)) ∧
    (reelAt .stored (.inBay 1 1)).place = some (1, 1) ∧ stocked.bay 1 = some ⟨1, 3, [7], 0⟩ ∧ [7].Nodup ∧
    [7] = [] ++ 7 :: [] ∧
    incoming.reel 7 = some (reelAt .incoming (.atIntake 3)) ∧ (reelAt .incoming (.atIntake 3)).place = none ∧
    (running .ready).reel 7 = some (reelAt .running (.onArm 1 .A)) ∧ (running .ready).takes = true := by decide +kernel

theorem test_witness_RestTime : hall.takes = true := by decide +kernel

theorem test_witness_SelectionRule : stocked.bays.wf = true ∧ stocked.bay 1 = some ⟨1, 3, [7], 0⟩ ∧ [7].getLast? = some 7 ∧
    stocked.reel 7 = some (reelAt .stored (.inBay 1 1)) ∧ stocked.select 1 1 = some 7 ∧ stocked.select 2 1 = none := by decide +kernel

/-- One bay alone, with this content. -/
def oneBay (b : Bay) : State := { stocked with bays := ⟨[(1, b)]⟩ }

theorem test_oneBay (b c : Bay) (n : Nat) (h : (oneBay b).bay n = some c) : n = 1 ∧ c = b := by
  simp only [oneBay, State.bay, Table.find, Table.findIn] at h
  split at h <;> simp_all

theorem test_witness_AutomaticBayChoice : (oneBay ⟨1, 3, [7], 0⟩).bays.wf = true ∧ (oneBay ⟨1, 3, [7], 0⟩).bay 1 = some ⟨1, 3, [7], 0⟩ ∧
    (oneBay ⟨1, 3, [7], 0⟩).autoBay 1 1 none = some 1 ∧ (oneBay ⟨1, 3, [], 0⟩).autoBay 1 1 none = some 1 ∧
    (oneBay ⟨1, 3, [7], 0⟩).autoBay 2 1 none = some 1 ∧ (oneBay ⟨1, 1, [7], 0⟩).autoBay 1 1 none = none := by decide +kernel

/-- Position 1 enabled with a demand; reel 7 reserved for it. -/
def demanding : State := stocked.setPos 1 { Position.reset with enabled := true, standNode := 2, demand := some ⟨1, 1⟩ }
def reserved : State := demanding.setReel 7 { reelAt .reserved (.inBay 1 1) with reservation := some 1 }

theorem test_witness_DeliverRequest : demanding.takes = true ∧ priorityOf 1 = some .urgent ∧ (demanding.pos 1).enabled = true ∧
    demanding.deliverOf 1 = none ∧ demanding.ordersFull = false ∧ demanding.reel 7 = some (reelAt .stored (.inBay 1 1)) ∧
    demanding.openReservation 1 = none ∧ demanding.eligibleSelf 7 = true ∧ (demanding.pos 1).demand = some ⟨1, 1⟩ ∧
    demanding.select 1 1 = some 7 ∧ reserved.openReservation 1 = some 7 ∧ reserved.deliverOf 1 = none ∧ reserved.takes = true ∧
    reserved.select 1 1 = none ∧ reserved.demandEntry 1 = none ∧
    (standing hall { Position.reset with demand := some ⟨1, 1⟩ }).openReservation 1 = none ∧
    (standing hall { Position.reset with demand := some ⟨1, 1⟩ }).select 1 1 = none ∧
    (standing hall { Position.reset with demand := some ⟨1, 1⟩ }).takes = true ∧
    (let w : State := { standing hall { Position.reset with demand := some ⟨1, 1⟩ } with demands := [⟨2, 1, 1, 0⟩, ⟨1, 1, 1, 0⟩] };
      w.openReservation 1 = none ∧ (w.pos 1).demand = some ⟨1, 1⟩ ∧ w.select 1 1 = none ∧ w.demandEntry 1 ≠ none ∧
      w.demands = [⟨2, 1, 1, 0⟩] ++ ⟨1, 1, 1, 0⟩ :: [] ∧ (∀ i ∈ ([⟨2, 1, 1, 0⟩] : List DemandEntry), i.position ≠ 1) ∧
      w.deliverOf 1 = none ∧ w.takes = true) := by decide +kernel

/-- The state with a full Order List. -/
def listFull (s : State) : State := { s with orders := { s.orders with table := ⟨(List.range 32).map fun k => (k + 100, shift)⟩ } }

/-- The state with this backlog. -/
def backlogged (s : State) (b : List BacklogItem) : State := s.setBacklog b

/-- A butt of position 1 on arm A. -/
def butted : State :=
  (standing hall { Position.reset with armA := some 7, disposalA := some .manual }).setReel 7 (reelAt .butt (.onArm 1 .A))

theorem test_witness_OrderRequests : stocked.takes = true ∧ priorityOf 0 = some .normal ∧ stocked.ordersFull = false ∧
    stocked.reel 7 = some (reelAt .stored (.inBay 1 1)) ∧ stocked.bay 1 = some ⟨1, 3, [7], 0⟩ ∧ [7].getLast? = some 7 ∧
    stocked.targetBay 0 1 1 (some 1) = some 2 ∧ butted.takes = true ∧ butted.ordersFull = false ∧ (butted.pos 1).arm .A = some 7 ∧
    butted.reel 7 = some (reelAt .butt (.onArm 1 .A)) ∧ butted.targetBay 0 1 1 none = some 1 ∧ butted.nodeOfKind .waste = some 4 ∧
    (driving hall (cart .idle)).takes = true ∧ (driving hall (cart .idle)).nodes.has 4 = true ∧
    ((driving hall (cart .idle)).veh 1).state = .idle ∧ ((driving hall (cart .idle)).veh 1).order = none ∧
    (driving hall (cart .idle)).parkNames 1 = false := by decide +kernel

/-- A RELOCATE whose carry leg goes to an arm, for HELD(ARM). -/
def toArm : Order := { shift with kind := .deliver, destination := .arm 1 none, progress := 2, position := some 1 }

theorem test_witness_LegRequest :
    let s := tasked stocked (cart .idle) shift
    let away := tasked stocked { cart .idle with node := 3 } shift
    let off := tasked stocked { cart .idle with node := 2 } shift
    let held := { tasked stocked { cart .idle with node := 3, zone := some 3 } shift with locks := ⟨[(1, 2)]⟩ }
    let o := { shift with vehicle := some 1 }
    s.order 5 = some o ∧ (s.veh 1).state = .idle ∧ s.targetNode o = some 1 ∧ o.progress = 1 ∧
    (s.veh 1).node = 1 ∧ (∀ z ∈ s.askedZones [] 1, s.holder z = none ∨ s.holder z = some 1) ∧
    (away.veh 1).node ≠ 1 ∧ (away.route 3 1).map (·.zones) = some [] ∧
    (off.veh 1).node ≠ 1 ∧ off.route 2 1 = none ∧ off.order 5 = some o ∧ off.targetNode o = some 1 ∧
    (∃ z ∈ held.askedZones [] 1, held.holder z = some 2) ∧ held.order 5 = some o ∧ (held.route 3 1).map (·.zones) = some [] ∧
    (let t := tasked (running .standby) (cart .idle) toArm;
      t.order 5 = some { toArm with vehicle := some 1 } ∧ t.targetNode { toArm with vehicle := some 1 } = some 2 ∧
      (t.pos 1).arm (t.pos 1).standbyArm ≠ none) ∧
    (let t := tasked stocked (cart .idle) { shift with state := .heldZones };
      t.order 5 = some { shift with state := .heldZones, vehicle := some 1 } ∧
      (∀ z ∈ t.askedZones [] 1, t.holder z = none ∨ t.holder z = some 1)) ∧
    (let t := tasked (standing stocked { web .noStandby with armB := none }) (cart .idle) toArm;
      t.order 5 = some { toArm with vehicle := some 1 } ∧ t.targetNode { toArm with vehicle := some 1 } = some 2 ∧
      (t.pos 1).arm (t.pos 1).standbyArm = none ∧ (t.veh 1).node ≠ 2 ∧ (t.route 1 2).map (·.zones) = some [9] ∧
      (∀ z ∈ t.askedZones [9] 2, t.holder z = none ∨ t.holder z = some 1) ∧
      (t.requestLeg 5).order 5 = some { toArm with
        vehicle := some 1, targetArm := some .B, state := .offered, legZones := [9] }) := by decide +kernel

/-- The RELOCATE loaded, reel 7 on vehicle 1. -/
def carried : State :=
  (tasked hall { cart .idle with load := some 7, verified := true } { shift with progress := 2, state := .suspended, reason := some .vehicle }).setReel 7
    { reelAt .inTransit (.onVehicle 1) with tag := some 5, lastBay := some 1 }

theorem test_witness_OrderRemovedOrConverted : (tasked stocked (cart .idle) shift).order 5 = some { shift with vehicle := some 1 } ∧
    stocked.orders.backlog = [] ∧ (tasked reserved (cart .idle) { shift with kind := .deliver, position := some 1 }).order 5 ≠ none ∧
    reserved.reel 7 = some { reelAt .reserved (.inBay 1 1) with reservation := some 1 } ∧
    stocked.reel 7 = some (reelAt .stored (.inBay 1 1)) ∧ stocked.bay 2 ≠ none ∧
    (butted.reel 7).map (·.location) = some (.onArm 1 .A) ∧ (tasked butted (cart .idle) { shift with kind := .clear }).order 5 ≠ none ∧
    ((tasked stocked (cart .idle) shift).veh 1).order = some 5 ∧
    (carried.order 5).bind carried.conversionBay = some 1 ∧ carried.bay 2 ≠ none ∧
    (carried.order 5).map (·.destination) = some (.bay 2 0) ∧
    (let v := tasked stocked { cart .stopped with prior := some .offered } { shift with state := .offered };
      (v.veh 1).state = .stopped ∧ (v.veh 1).prior = some .offered ∧ (v.veh 1).order = some 5 ∧ shift.goSent = false ∧
      v.holder 1 = some 1 ∧ some 1 = v.standingZone 1 ∧ v.locks.wf = true ∧
      (v.giveZones 1 [9]).holder 9 = some 1 ∧ some 9 ≠ (v.giveZones 1 [9]).standingZone 1) ∧
    (carried.veh 1).state ≠ .stopped ∧ ((tasked stocked (cart .faulted) shift).veh 1).state = .faulted ∧
    (listFull stocked).ordersFull = true ∧ stocked.ordersFull = false ∧
    (backlogged stocked [.delivery 1 7 .normal]).orders.backlog = .delivery 1 7 .normal :: [] ∧
    (butted.pos 1).arm .A = some 7 ∧ butted.reel 7 = some (reelAt .butt (.onArm 1 .A)) ∧ butted.autoBay 1 1 none = some 1 ∧
    ({ butted with bays := ⟨[]⟩ } : State).autoBay 1 1 none = none ∧ butted.nodeOfKind .waste = some 4 ∧
    (let w := carried.setOrder 5 { shift with
        progress := 2, state := .suspended, reason := some .vehicle, vehicle := some 1, destination := .bay 1 0 };
      (w.order 5).bind w.conversionBay = some 1 ∧ w.bay 1 ≠ none) ∧
    (carried.reel 7).bind (·.lastBay) = some 1 ∧ (carried.order 5).map (·.reel) = some (some 7) ∧
    (let w := carried.setReel 7 { reelAt .inTransit (.onVehicle 1) with tag := some 5 };
      (w.order 5).bind w.conversionBay = some 1 ∧ (w.reel 7).bind (·.lastBay) = none) ∧
    (let w := carried.setBay 1 ⟨1, 0, [], 0⟩; (w.order 5).bind w.conversionBay = some 2) ∧
    (let w : State := { carried with bays := ⟨[]⟩ }; (w.order 5).map w.conversionBay = some none) := by decide +kernel

theorem test_witness_CancelRequest :
    let go := tasked stocked (cart .driving) { shift with state := .active }
    let still := { tasked stocked (cart .idle) shift with orders := { (tasked stocked (cart .idle) shift).orders with nextSequence := 1 } }
    let full := { carried with bays := ⟨[]⟩ }
    stocked.takes = true ∧ go.order 5 = some { shift with state := .active, vehicle := some 1 } ∧
    ({ shift with state := .active, vehicle := some 1 } : Order).inFlight = true ∧
    ({ shift with state := .cancelling } : Order).cancelRefused = true ∧
    still.order 5 = some { shift with vehicle := some 1 } ∧ ({ shift with vehicle := some 1 } : Order).inFlight = false ∧
    shift.loaded = false ∧ shift.cancelRefused = false ∧ shift.sequence < still.orders.nextSequence ∧
    (carried.order 5).map Order.inFlight = some false ∧ (carried.order 5).map (·.loaded) = some true ∧
    (carried.order 5).map (·.cancelRefused) = some false ∧ (carried.order 5).bind carried.conversionBay = some 1 ∧
    (full.order 5).map (·.loaded) = some true ∧ (full.order 5).bind full.conversionBay = none ∧
    hall.takes = true ∧ hall.order 5 = none ∧
    ({ shift with state := .offered, goSent := true } : Order).inFlight = true ∧ ({ shift with state := .offered } : Order).inFlight = false := by decide +kernel

theorem test_witness_ResolveRequest :
    let wrong := tasked stocked (cart .idle) { shift with state := .suspended, reason := some .wrongReel }
    let stuck := tasked stocked (cart .faulted) { shift with state := .suspended, reason := some .noRoute }
    let room := carried.setOrder 5 { shift with state := .suspended, reason := some .noSpace, progress := 2, vehicle := some 1 }
    stocked.takes = true ∧ (tasked stocked (cart .idle) shift).order 5 = some { shift with vehicle := some 1 } ∧ shift.state ≠ .suspended ∧
    (wrong.order 5).map (·.state) = some .suspended ∧ (wrong.order 5).map (·.reason) = some (some .wrongReel) ∧
    (wrong.veh 1).state = .idle ∧ (stuck.veh 1).state ≠ .idle ∧ (stuck.order 5).map (·.reason) = some (some .noRoute) ∧
    (room.order 5).bind room.conversionBay = some 1 ∧ ({ room with bays := ⟨[]⟩ } : State).conversionBay shift = none ∧
    (stuck.order 5).map (·.cancelRefused) = some false ∧ (stuck.order 5).map (·.loaded) = some false ∧
    shift.sequence < ({ stuck with orders := { stuck.orders with nextSequence := 1 } } : State).orders.nextSequence ∧
    hall.takes = true ∧ hall.order 5 = none ∧
    ({ shift with state := .suspended, converted := true } : Order).cancelRefused = true ∧ carried.takes = true ∧
    (carried.order 5).map (fun o => (o.state, o.cancelRefused, o.loaded)) = some (.suspended, false, true) ∧
    (carried.order 5).bind carried.conversionBay = some 1 ∧
    (carried.order 5).bind ({ carried with bays := ⟨[]⟩ } : State).conversionBay = none := by decide +kernel

/-- R52, R61: RESOLVE CANCEL of a loaded order answers OK, the order's state (OFFERED: its leg to the bay is granted) and CONVERTED. -/
theorem test_resolve_cancel_reply :
    ((after (.resolve 2 5 3) carried).link.tx.map fun b => (b.drop 5).take 3) = some [0#8, 2#8, 3#8] := by decide +kernel

/-- Reel 8 set down on reel 7 since the RELOCATE of reel 7 was made. -/
def buried : State :=
  ((tasked stocked (cart .idle) shift).setBay 1 ⟨1, 3, [7, 8], 0⟩).setReel 8 (reelAt .stored (.inBay 1 2))

/-- R1: a pick from below the top takes the order's own reel, and every STORED reel stays in one stack at its level. -/
theorem test_buried_pick :
    let t := buried.completeFetch 5 1
    t.bay 1 = some ⟨1, 3, [8], 0⟩ ∧ t.reel 8 = some (reelAt .stored (.inBay 1 1)) ∧
    t.reel 7 = some { reelAt .inTransit (.onVehicle 1) with lastBay := some 1 } := by decide +kernel

theorem test_witness_FetchCompleted_buried : buried.order 5 = some { shift with vehicle := some 1 } ∧ shift.reel = some 7 ∧
    shift.source = .bay 1 1 ∧ buried.bay 1 = some ⟨1, 3, [7, 8], 0⟩ ∧ [7, 8] = [] ++ 7 :: [8] ∧ [7, 8].Nodup ∧ [8][0]? = some 8 ∧
    buried.reel 8 = some (reelAt .stored (.inBay 1 2)) ∧ buried.reel 7 ≠ none ∧ [7] = [] ++ [7] := by decide +kernel

theorem test_witness_FetchCompleted : (tasked stocked (cart .idle) shift).order 5 = some { shift with vehicle := some 1 } ∧
    shift.reel = some 7 ∧ stocked.reel 7 = some (reelAt .stored (.inBay 1 1)) ∧ shift.source = .bay 1 1 ∧
    stocked.bay 1 = some ⟨1, 3, [7], 0⟩ ∧ (tasked butted (cart .idle) { shift with kind := .clear, source := .arm 1 (some .A) }).order 5 ≠ none ∧
    butted.reel 7 ≠ none ∧ (tasked incoming (cart .idle) { shift with source := .node 3 }).order 5 ≠ none ∧
    incoming.reel 7 ≠ none := by decide +kernel

theorem test_witness_OrderCompleted : carried.orders.backlog = [] ∧ shift.reel = some 7 ∧ carried.reel 7 ≠ none ∧
    shift.destination = .bay 2 0 ∧ carried.bay 2 ≠ none ∧ toArm.destination = .arm 1 none ∧
    ((running .noStandby).pos 1).running = some (otherArm .B) ∧ ((running .noStandby).pos 1).sequence = .noStandby ∧
    (running .noStandby).orders.backlog = [] ∧
    (backlogged carried [.delivery 1 7 .normal]).orders.backlog = [.delivery 1 7 .normal] := by decide +kernel

theorem test_witness_HaltAndResume :
    let s := driving hall (cart .driving)
    let t := tasked stocked { cart .stopped with prior := some .offered } { shift with state := .offered }
    s.takes = true ∧ (hall.veh 12).state = .absent ∧ (s.veh 1).state = .driving ∧
    ((driving hall (cart .offered)).veh 1).state = .offered ∧ ((driving hall (cart .idle)).veh 1).state = .idle ∧
    (driving hall (cart .idle)).goQueued 1 = false ∧ hall.vlink.queue.length < 16 ∧ s.estop.level = false ∧
    (s.veh 1).state ≠ .stopped ∧ ((driving hall { cart .stopped with prior := some .driving }).veh 1).prior = some .driving ∧
    t.takes = true ∧ (t.veh 1).order = some 5 ∧ t.order 5 = some { shift with state := .offered, vehicle := some 1 } ∧
    t.targetNode shift = some 1 ∧ ({ s with estop := ⟨true, 0⟩ } : State).estop.level = true ∧
    (let g := { driving hall (cart .idle) with vlink := ⟨⟨[], 0⟩, 0, [.go 1 5 1 1 .pick []], [], none⟩ };
      g.takes = true ∧ (g.veh 1).state = .idle ∧ g.goQueued 1 = true) ∧ (∀ v ∈ allVehicles, (hall.veh v).state ≠ .stopped) ∧
    hall.takes = true ∧ hall.estop.level = false ∧ ((driving hall (cart .faulted)).veh 1).state ≠ .idle ∧ t.goQueued 1 = false ∧
    ({ t with vlink := ⟨⟨[], 0⟩, 0, [.go 1 5 1 1 .pick []], [], none⟩ } : State).goQueued 1 = true := by decide +kernel

theorem test_witness_RetireAndVehcfg : (hall.veh 1).state = .absent ∧ (carried.veh 1).state ≠ .absent ∧ carried.takes = true ∧
    (∀ e ∈ carried.orders.table.entries, e.2.vehicle = some 1 → carried.retiredOrder 1 = some e.1) ∧
    (carried.veh 1).load = some 7 ∧ (carried.veh 1).verified = true ∧
    1000 * max 2 (min 2 30) ≤ ((driving hall { cart .idle with silenceMs := 2000 }).veh 1).silenceMs ∧
    (let s := tasked stocked { cart .offered with offerMs := some 1000, silenceMs := 1999 } { shift with state := .offered };
      s.takes = true ∧ s.retiredOrder 1 = some 5 ∧ s.order 5 = some { shift with state := .offered, vehicle := some 1 } ∧
      (s.veh 1).state = .offered ∧ (s.veh 1).offerMs = some 1000 ∧ 1000 * max 1 (min 1 10) ≤ 1000 ∧
      (s.veh 1).silenceMs < 1000 * max 2 (min 2 30) ∧ ((after (.vehcfg 1 1 2 20 120) s).veh 1).state = .faulted ∧
      s.orders.backlog = [] ∧ s.demands = [] ∧ ((after (.retire 1 1) s).order 5).isNone = true) ∧
    (driving hall (cart .idle)).retiredOrder 1 = none ∧ carried.retiredOrder 1 = some 5 ∧
    (carried.order 5).map (·.loaded) = some true ∧ shift.destination = .bay 2 0 ∧ carried.bay 2 ≠ none ∧
    ((after (.retire 1 1) carried).order 5).isNone = true ∧
    (let w := tasked hall (cart .idle) toArm; w.retiredOrder 1 = some 5 ∧ (w.order 5).map (·.kind) = some .deliver) ∧
    (driving hall { cart .idle with order := some 9 }).order 9 = none := by decide +kernel

/-- R86 and R78: with no vehicle past a limit, a shorter zone wait limit reports a hold at once. -/
theorem test_witness_RetireAndVehcfg_holds :
    (∀ v ∈ allVehicles, (waiting.veh v).silenceMs < 1000 * 2 ∧ (waiting.veh v).offerMs = none) ∧
    waiting.order 5 = some { shift with state := .heldZones, heldSince := some 79, vehicle := some 1 } ∧ waiting.takes = true ∧
    max 10 (min 100 600) < waiting.clock.seconds - 79 ∧
    ((after (.vehcfg 1 1 2 20 100) waiting).notices.queue.length = 1) := by decide +kernel

theorem test_witness_JoinFrame : hall.link.phase = .run ∧ (hall.veh 12).state = .absent ∧ hall.nodeZone 1 = some 1 ∧
    hall.holder 1 = none ∧ hall.nodeZone 96 = none ∧ (driving hall (cart .idle)).holder 1 = some 1 ∧
    ((driving hall (cart .idle)).veh 2).state = .absent ∧ plan.link.phase = .config ∧
    ((driving hall (cart .lost)).veh 1).state ≠ .absent ∧
    (let s := driving hall { cart .idle with load := some 7, verified := true };
      s.nodeZone 1 = some 1 ∧ s.nodeZone 2 = some 2 ∧ s.nodeZone 96 = none ∧ (s.veh 1).zone = some 1 ∧
      (after (.join 1 1 7 80) s).holder 1 = some 1 ∧ ((after (.join 1 2 7 80) s).veh 1).node = 2 ∧
      (after (.join 1 2 7 80) s).holder 2 = some 1 ∧ ((after (.join 1 2 7 80) s).veh 1).faultCode = some .link ∧
      ((after (.join 1 96 8 80) s).veh 1).node = 1 ∧ ((after (.join 1 96 8 80) s).veh 1).faultCode = some .load ∧
      ((after (.join 1 1 8 80) s).veh 1).load = some 7 ∧ { s with locks := s.locks.insert 2 12 }.holder 2 = some 12 ∧
      ((after (.join 1 2 0 80) ({ s with locks := s.locks.insert 2 12 } : State)).veh 1).node = 1 ∧
      ((after (.join 1 1 8 80) (driving hall (cart .faulted))).veh 1).load = some 8) := by decide +kernel

theorem test_witness_TakeAndPass :
    let x := { cart .offered with leg := some (legFive 2 [9]) }
    let y := { cart .driving with leg := some (legFive 2 [9]) }
    x.onLeg 5 1 = true ∧ x.onLeg 5 2 = false ∧ ((driving hall x).veh 1).state = .offered ∧
    ({ cart .stopped with prior := some .offered, leg := some (legFive 2 [9]) } : Vehicle).onLeg 5 1 = true ∧
    (tasked stocked x shift).order 5 ≠ none ∧ y.moves = true ∧ (driving hall y).nextZone y = some 9 ∧
    (driving hall y).holder 1 = some 1 ∧ y.zone = some 1 ∧ (driving hall y).locks.wf = true ∧ (cart .idle).moves = false ∧
    (driving hall y).nextZone y ≠ some 48 := by decide +kernel

theorem test_witness_DoneFrame :
    let x := { cart .driving with leg := some (legFive 1 []) }
    let s := tasked stocked x { shift with state := .active }
    (s.veh 1).state.onDuty = true ∧ (s.veh 1).leg = some (legFive 1 []) ∧ s.nodeZone 1 = some 1 ∧ s.holder 1 = some 1 ∧
    s.order 5 = some { shift with state := .active, vehicle := some 1 } ∧ shift.kind ≠ .park ∧ shift.progress = 1 ∧
    shift.reel = some 7 ∧ shift.reel ≠ some 8 ∧ shift.loaded = false ∧ ({ shift with progress := 2 } : Order).loaded = true ∧
    s.armOccupied { shift with progress := 2 } = false ∧ (driving hall x).order 5 = none ∧ s.nodeZone 3 = some 3 ∧
    s.holder 3 ≠ some 1 ∧ (tasked stocked x { shift with state := .cancelling }).order 5 ≠ none ∧
    (let o : Order := { toArm with targetArm := some .B, state := .active };
      let w := tasked (running .standby) x o;
      w.armOccupied { o with vehicle := some 1 } = true ∧ w.order 5 = some { o with vehicle := some 1 } ∧ o.kind ≠ .park ∧
      o.progress ≠ 1 ∧ w.nodeZone 1 = some 1 ∧ w.holder 1 = some 1 ∧
      (tasked (running .standby) x { o with state := .cancelling }).armOccupied o = true) ∧
    (tasked stocked x { shift with kind := .park, state := .cancelling }).order 5 =
      some { shift with kind := .park, state := .cancelling, vehicle := some 1 } ∧
    (tasked stocked x { shift with progress := 2, state := .cancelling }).armOccupied { shift with progress := 2 } = false ∧
    ({ shift with kind := .clear, source := .arm 1 (some .A), state := .cancelling } : Order).source = .arm 1 (some .A) ∧
    (∀ p ∈ allPositions, ∀ a ∈ [none, some Arm.A, some Arm.B], shift.source ≠ .arm p a) ∧
    (s.veh 1).state ≠ .absent ∧ (s.veh 1).state ≠ .lost ∧ (s.veh 1).onLeg 5 1 = true ∧ (s.veh 1).onLeg 5 2 = false ∧
    (s.veh 1).onLeg 6 1 = false ∧ s.nodeZone 96 = none ∧ ((driving hall (cart .idle)).veh 1).state.onDuty = false := by
  decide +kernel

theorem test_witness_AliveFaultReady :
    let s := driving hall (cart .idle)
    let f := tasked stocked (cart .faulted) { shift with state := .suspended, reason := some .vehicle }
    (hall.veh 1).state = .absent ∧ ((driving hall (cart .lost)).veh 1).state = .lost ∧ (s.veh 1).state ≠ .absent ∧
    (s.veh 1).state ≠ .lost ∧ ((driving hall (cart .driving)).veh 1).state ∈ [.driving, .stopped, .faulted] ∧
    (s.veh 1).state ∈ [.idle, .offered] ∧ s.nodeZone 1 = some 1 ∧ (s.veh 1).zone = some 1 ∧ s.nodeZone 2 ≠ (s.veh 1).zone ∧
    s.nodeZone 96 = none ∧ ((driving hall (cart .faulted)).veh 1).state = .faulted ∧
    ((driving hall (cart .faulted)).veh 1).node ≠ 0 ∧ ((driving hall (cart .faulted)).veh 1).order = none ∧
    (f.veh 1).order = some 5 ∧ (f.order 5).map (·.reason) = some (some .vehicle) ∧ (f.veh 1).state = .faulted ∧ (f.veh 1).state ≠ .lost ∧
    ((tasked stocked (cart .driving) { shift with state := .active }).veh 1).state ≠ .faulted ∧
    ((tasked stocked (cart .driving) { shift with state := .active }).veh 1).order = some 5 := by decide +kernel

theorem test_witness_VehicleFramesRead : hall.vlink.rx.held = [] ∧ hall.vlink.rx.gapMs = 0 ∧
    readVehicle 0x16 (be1 3) = some (.fault .obstacle) ∧ readVehicle 0x16 (be1 200) = none ∧ readVehicle 0x13 [] = none ∧
    (0#8).toNat ≤ 240 ∧ [1#8, 0#8, 0#8, 0#8].length = 4 + (0#8).toNat ∧ syncByte ≠ 0#8 ∧ syncByte ∉ [1#8, 0#8, 0#8, 0#8] ∧
    crcBytes (0#8 :: [1#8, 0#8, 0#8, 0#8].take 2) ≠ [1#8, 0#8, 0#8, 0#8].drop 2 := by
  decide +kernel

/-- A GO of order 5 in transmission. -/
def goOut : State :=
  { tasked stocked (cart .idle) { shift with state := .offered } with
    vlink := ⟨⟨[], 0⟩, 0, [.halt 1], [], some ⟨.go 1 5 1 1 .pick [], []⟩⟩ }

theorem test_witness_VehicleTransmitter : goOut.vlink.tx = some ⟨.go 1 5 1 1 .pick [], []⟩ ∧ (goOut.veh 1).state = .idle ∧
    (goOut.veh 1).order = some 5 ∧ goOut.order 5 = some { shift with state := .offered, vehicle := some 1 } ∧
    shift.goSent = false ∧ goOut.goQueued 1 = false ∧ ({ goOut with orders := hall.orders } : State).order 5 = none ∧
    (State.resetAt .baud115200).vlink.tx = none ∧ (State.resetAt .baud115200).vlink.queue = .halt 0 :: [] ∧
    (State.resetAt .baud115200).vlink.waiting = [] ∧ (State.resetAt .baud115200).estop.level = false ∧
    ({ hall with vlink := ⟨⟨[], 0⟩, 0, [], [], none⟩ } : State).vlink.queue = [] ∧
    ((after .vehicleFrameSent { goOut with estop := ⟨true, 0⟩ }).vlink.tx).map (·.frame) = some (.halt 1) := by decide +kernel

/-- HALTs of two vehicles, a GO, then RESUMEs of ten vehicles and three GOs: sixteen frames. -/
def outbound : List VehicleFrame :=
  [.halt 2, .halt 3, .go 4 6 1 1 .pick []] ++ (List.range 10).map (fun k => .resume (k + 3)) ++
    [.go 1 5 1 1 .pick [9], .abandon 2 7 1, .resume 1]

/-- A queue of these frames, one frame waiting. -/
def outQueue (q : List VehicleFrame) : State := { goOut with vlink := ⟨⟨[], 0⟩, 0, q, [.resume 2], none⟩ }

theorem test_witness_VehicleTransmitter_halt :
    let s := outQueue outbound
    let rest : List VehicleFrame := outbound.drop 2
    let dull : List VehicleFrame := [.halt 2] ++ (List.range 12).map .resume ++ [.abandon 1 5 1, .abandon 2 6 1, .abandon 3 7 1]
    let brisk : List VehicleFrame := .go 1 5 1 1 .pick [9] :: dull.tail
    s.vlink.queue.length = 16 ∧ .halt 1 ∉ s.vlink.queue ∧ .halt 0 ∉ s.vlink.queue ∧
    s.vlink.queue = [.halt 2, .halt 3] ++ rest ∧ (∀ h ∈ [VehicleFrame.halt 2, .halt 3], h.isHalt = true) ∧
    (∀ f ∈ rest, f.isHalt = false) ∧
    rest = rest.take 11 ++ .go 1 5 1 1 .pick [9] :: [.abandon 2 7 1, .resume 1] ∧
    (∀ f ∈ [VehicleFrame.abandon 2 7 1, .resume 1], f.isGo = false) ∧
    dull.length = 16 ∧ (∀ f ∈ dull.tail, f.isGo = false ∧ f.isHalt = false) ∧
    dull.tail = dull.tail.take 14 ++ [.abandon 3 7 1] ∧
    .halt 2 ∈ s.vlink.queue ∧ .halt 0 ∈ (State.resetAt .baud115200).vlink.queue ∧
    (s.vlink.queue.filter fun f => !f.isHalt).length < 16 ∧
    (brisk.filter fun f => !f.isHalt) = [] ++ .go 1 5 1 1 .pick [9] :: dull.tail ∧ brisk.length = 16 ∧
    ((VehicleFrame.resume 1 :: dull.tail).filter fun f => !f.isHalt).length = 16 ∧
    (∀ g ∈ s.vlink.queue ++ s.vlink.waiting, g.slot ≠ VehicleFrame.slot (.abandon 1 5 1)) ∧ 16 ≤ s.vlink.queue.length ∧
    (∀ g ∈ [VehicleFrame.halt 1] ++ [.resume 2], g.slot ≠ VehicleFrame.slot (.resume 9)) ∧
    (∃ g ∈ s.vlink.queue ++ s.vlink.waiting, g.slot = VehicleFrame.slot (.go 1 6 2 3 .drop [])) := by decide +kernel

/-- R80, R43: a HALT into a full queue costs the youngest GO its place, its order (without a load) its vehicle. -/
theorem test_halt_displaces_go :
    let t := (outQueue outbound).queueHalt 1
    t.vlink.queue.length = 16 ∧ t.vlink.queue.take 3 = [.halt 2, .halt 3, .halt 1] ∧ t.goQueued 1 = false ∧ t.goQueued 4 = true ∧
    (t.order 5).map (·.state) = some .waiting ∧ (t.veh 1).order = none ∧ t.holder 1 = some 1 := by decide +kernel

theorem test_witness_VehicleTransmitter_displaced :
    (goOut.order 5).bind (·.vehicle) = some 1 ∧ (goOut.order 5).map (fun o => (o.state, o.loaded)) = some (.offered, false) ∧
    (let w := (tasked stocked (cart .idle) { shift with state := .offered, progress := 2 });
      (w.order 5).bind (·.vehicle) = some 1 ∧ (w.order 5).map (fun o => (o.state, o.loaded)) = some (.offered, true)) ∧
    (let w := (tasked stocked (cart .idle) { shift with state := .cancelling });
      (w.order 5).bind (·.vehicle) = some 1 ∧ (w.order 5).map (fun o => (o.state, o.loaded)) = some (.cancelling, false)) ∧
    (let w := (tasked stocked (cart .idle) { shift with state := .cancelling, progress := 2 });
      (w.order 5).bind (·.vehicle) = some 1 ∧ (w.order 5).map (fun o => (o.state, o.loaded)) = some (.cancelling, true)) := by
  decide +kernel

theorem test_witness_OfferAndSilence :
    let s := tasked stocked (cart .offered) { shift with state := .offered }
    (s.veh 1).state = .offered ∧ (s.veh 1).state ≠ .absent ∧ (s.veh 1).state ≠ .lost ∧ (hall.veh 12).state = .absent ∧
    (s.veh 1).order = some 5 ∧ s.order 5 = some { shift with state := .offered, vehicle := some 1 } ∧ shift.loaded = false ∧
    (carried.veh 1).order = some 5 ∧ (carried.order 5).map (·.loaded) = some true ∧ (carried.order 5).map (·.state) = some .suspended ∧
    ({ shift with progress := 2, state := .active } : Order).loaded = true ∧
    ({ shift with progress := 2, state := .active } : Order).cancelPending = false ∧
    ({ shift with state := .cancelling } : Order).loaded = false ∧ ((driving hall (cart .faulted)).veh 1).state = .faulted ∧
    ((driving hall (cart .lost)).veh 1).state = .lost ∧ (hall.veh 1).order = none ∧
    (let w := tasked stocked { cart .faulted with load := some 7 } { shift with progress := 2, state := .cancelling, cancelPending := true };
      (w.veh 1).order = some 5 ∧ (w.order 5).map (fun o => (o.loaded, o.state, o.cancelPending, o.vehicle)) =
        some (true, .cancelling, true, some 1) ∧ (w.veh 1).state = .faulted ∧ (w.order 5).bind w.conversionBay = some 1 ∧
      (w.order 5).bind ({ w with bays := ⟨[]⟩ } : State).conversionBay = none) := by decide +kernel

theorem test_witness_PassesThatEndAnEvent : waiting.holder 1 = some 1 ∧ waiting.order 5 ≠ none ∧ hall.demands = [] ∧
    stocked.reel 7 ≠ none ∧ hall.reel 7 = none ∧ VehicleFrame.halt 1 ∈ goOut.vlink.queue ++ goOut.vlink.waiting ∧
    waiting.orders.table.wf = true ∧
    (let w := (driving stocked (cart .idle)).setOrder 5 shift;
      w.order 5 = some shift ∧ shift.state = .waiting ∧ w.targetNode shift = some 1 ∧ w.orders.table.wf = true ∧
      (w.veh 1).state = .idle ∧ (w.veh 1).order = none ∧ (w.veh 1).load = none ∧ w.vconfig.lowBattery ≤ (w.veh 1).battery ∧
      (w.veh 1).node = 1 ∧ shift.kind ≠ .park ∧ (∀ v ∈ allVehicles, w.freeVehicle v = true → v = 1) ∧
      assignmentDue stocked w = true ∧ assignmentDue w w = false ∧
      (w.assignOne 5).order 5 = some { shift with vehicle := some 1, state := .offered }) ∧
    (∀ v ∈ allVehicles, (stocked.veh v).state ≠ .idle) ∧
    (let q : Order := { shift with kind := .park, source := .absent, destination := .node 1, reel := none, vehicle := some 1 };
      let w := (driving stocked (cart .idle)).setOrder 5 q;
      w.order 5 = some q ∧ w.targetNode q = some 1 ∧ (w.veh 1).node = 1 ∧ (w.veh 1).state = .idle ∧ (w.veh 1).order = none ∧
      (((driving stocked (cart .driving)).setOrder 5 q).veh 1).state ≠ .idle) ∧
    (let d : DemandEntry := ⟨1, 1, 1, 0⟩;
      demanding.select d.grade d.width = some 7 ∧ demanding.reel 7 = some (reelAt .stored (.inBay 1 1)) ∧
      hall.select d.grade d.width = none ∧ (demanding.handling 7).mode = .both ∧ demanding.ordersFull = false ∧
      (listFull demanding).select d.grade d.width = some 7 ∧ (listFull demanding).ordersFull = true ∧
      (∀ i ∈ (listFull demanding).orders.backlog, i.isDeliveryOf d.position = false) ∧
      (∃ i ∈ ((listFull demanding).setBacklog [.delivery 1 7 .normal]).orders.backlog, i.isDeliveryOf d.position = true) ∧
      ((after (.noticecfg 1 7 0 255) demanding).handling 7).mode = .report ∧
      (after (.noticecfg 1 7 0 255) demanding).select d.grade d.width = some 7) := by decide +kernel

theorem test_witness_TimeToSplice :
    let x (n : Nat) : Position := { web .ready with gauge := { (web .ready).gauge with windowCounts := n } }
    ((standing hall (x 9)).pos 1).enabled = true ∧ ((standing hall (x 9)).pos 1).isWeb = true ∧
    10 * ((standing hall (x 9)).pos 1).gauge.windowCounts < 100 ∧ 100 ≤ 10 * ((standing hall (x 10)).pos 1).gauge.windowCounts := by
  decide +kernel

/-- A WEB position with a demand and an empty standby arm. -/
def hungry : State :=
  standing ((stocked.setReel 8 (reelAt .running (.onArm 1 .A)))) { web .noStandby with armA := some 8, armB := none, demand := some ⟨1, 1⟩ }

theorem test_witness_SpeedWindow : (hungry.pos 1).enabled = true ∧ (hungry.pos 1).demand = some ⟨1, 1⟩ ∧ (hungry.pos 1).isWeb = true ∧
    hungry.standbyClear 1 = true ∧ hungry.deliverOf 1 = none ∧ (hungry.pos 1).callOff.state = .none ∧
    ((hungry.pos 1).window 100).gauge.remaining ≤ (hungry.pos 1).params.callOffLength ∧ (hungry.handling 7).mode = .both ∧
    ((after (.noticecfg 1 7 0 255) hungry).handling 7).mode = .report ∧ hungry.select 1 1 = some 7 ∧
    hungry.reel 7 = some (reelAt .stored (.inBay 1 1)) ∧ hungry.ordersFull = false ∧
    (hungry.delReel 7).select 1 1 = none ∧ ((running .accel).pos 1).sequence = .accel ∧ ((running .armed).pos 1).sequence = .armed ∧
    ((running .ready).pos 1).sequence ∉ [.accel, .matched, .armed] ∧ ((running .ready).pos 1).demand = none ∧
    Position.matches { web .accel with gauge := { Gauge.reset with speed := 100, standbySpeed := 100 } } = true ∧
    (listFull hungry).ordersFull = true ∧ (listFull hungry).select 1 1 = some 7 ∧ (listFull hungry).deliverOf 1 = none ∧
    (hungry.pos 1).params.urgentMargin < ((hungry.pos 1).window 100).gauge.timeToSplice ∧
    (let x : Position := { web .failed with gauge := { (web .failed).gauge with windowCounts := 300 } };
      let w := (standing hall x).setOrder 5 toArm;
      (w.pos 1).demand = none ∧ w.orders.table.wf = true ∧ (w.pos 1).isWeb = true ∧
      ((w.pos 1).window 100).gauge.timeToSplice ≤ (w.pos 1).params.urgentMargin ∧
      (w.pos 1).callOff.urgencyReported = false ∧ w.deliverOf 1 = some 5 ∧ (w.handling 6).mode = .both ∧
      ((after (.speedWindow 1 100) w).order 5).map (·.priority) = some .urgent ∧
      ((after (.noticecfg 1 6 0 255) w).handling 6).mode = .report) ∧
    (running .ready).deliverOf 1 = none ∧ (running .ready).orders.backlog = [] ∧ hungry.demandEntry 1 = none ∧
    ({ hungry.delReel 7 with demands := [⟨1, 1, 1, 0⟩] } : State).demandEntry 1 ≠ none ∧
    (∀ i ∈ (listFull hungry).orders.backlog, i.isDeliveryOf 1 = false) ∧
    (∃ i ∈ ((listFull hungry).setBacklog [.delivery 1 7 .normal]).orders.backlog, i.isDeliveryOf 1 = true) ∧
    hungry.orders.table.wf = true ∧ (listFull hungry).orders.table.wf = true ∧
    (let w := hungry.setPos 1 { hungry.pos 1 with gauge := { (hungry.pos 1).gauge with windowCounts := 300 } };
      ((w.pos 1).window 100).gauge.timeToSplice ≤ (w.pos 1).params.urgentMargin ∧
      ((w.pos 1).window 100).gauge.timeToSplice ≤ (w.pos 1).params.leadTime ∧
      ((after (.speedWindow 1 100) w).order 1).map (·.priority) = some .urgent ∧
      ((after (.speedWindow 1 100) w).pos 1).callOff = ⟨.ordered, false, true⟩) ∧
    ((after (.speedWindow 1 100) hungry).pos 1).callOff = ⟨.ordered, false, false⟩ := by decide +kernel

theorem test_witness_WebCount :
    let at_ (q : Sequence) (n : Nat) : Position := { web q with gauge := { (web q).gauge with remaining := n } }
    ((running .ready).pos 1).enabled = true ∧ ((running .ready).pos 1).isWeb = true ∧
    (running .ready).mayDrive 1 699999 = false ∧
    ((running .ready).setLine 1 pressing).mayDrive 1 ((at_ .ready 600001).gauge.remaining - 1) = true ∧
    defaultParams.armLength < (at_ .matched 60002).gauge.remaining - 1 ∧
    (at_ .matched 60001).gauge.remaining - 1 ≤ defaultParams.armLength ∧
    defaultParams.fireLength < (at_ .matched 60001).gauge.remaining - 1 ∧
    (at_ .armed 3001).gauge.remaining - 1 ≤ defaultParams.fireLength ∧
    defaultParams.fireLength < (at_ .armed 3002).gauge.remaining - 1 ∧
    defaultParams.pasteToCut ≤ min 65535 (1199 + 1) ∧ min 65535 (1198 + 1) < defaultParams.pasteToCut ∧
    min 65535 (3998 + 1) < defaultParams.confirmLength ∧ defaultParams.confirmLength ≤ min 65535 (3999 + 1) ∧
    (at_ .standby 1).gauge.remaining = 1 ∧ (at_ .standby 1).splice.missed = false := by decide +kernel

theorem test_witness_RevolutionMark :
    ((running .ready).pos 1).isWeb = true ∧ ((running .ready).pos 1).gauge.estimate = some 9600 ∧
    (1870 * 160000 + 15708) / 31416 ≤ 9600 ∧ (9600 - (1870 * 160000 + 15708) / 31416) * 8 ≤ 9600 ∧
    9600 < (1886 * 160000 + 15708) / 31416 ∧ (1886 * 160000 + 15708) / 31416 ≤ 9600 + 32 ∧
    9600 + 32 < (1893 * 160000 + 15708) / 31416 ∧ 9600 < (9600 - (0 * 160000 + 15708) / 31416) * 8 ∧
    (running .ready |>.pos 1).gauge.rejections < 3 ∧ (running .ready |>.pos 1).gauge.markPending = false ∧
    (let at_ (q : Sequence) : State := hall.setPos 1 { web q with
        gauge := { Gauge.reset with estimate := some 2088, remaining := 500, deltaL := 363, caliper := 70 } };
      (363 * 160000 + 15708) / 31416 ≤ 2088 ∧ (2088 - (363 * 160000 + 15708) / 31416) * 8 ≤ 2088 ∧
      ((after (.revolutionMark 1) (at_ .matched)).pos 1).gauge.remaining = 0 ∧ ((at_ .matched).pos 1).splice.missed = false ∧
      ((after (.revolutionMark 1) (at_ .matched)).pos 1).sequence = .firing ∧
      ((after (.revolutionMark 1) (at_ .armed)).pos 1).sequence = .firing ∧
      ((after (.revolutionMark 1) (at_ .ready)).pos 1).sequence = .ready ∧
      ((after (.revolutionMark 1) (at_ .ready)).pos 1).outputs.webEnd = true) ∧
    ((running .firing).pos 1).sequence ∉ [.ready, .matched, .armed] ∧
    (((running .ready).setLine 1 pressing).mayDrive 1 0) = true ∧ ((running .ready).mayDrive 1 0) = false := by decide +kernel

theorem test_witness_SpliceTimers :
    let x : Position := { web .accel with splice := { SpliceSequence.reset with matchMs := some 2000 } }
    let y : Position := { web .firing with splice := { SpliceSequence.reset with pasteMs := some 100, cutMs := some 0, cutStarted := true } }
    x.enabled = true ∧ x.sequence = .accel ∧ x.splice.matchMs.isSome = true ∧ x.params.armLength < x.gauge.remaining ∧
    defaultParams.fireLength < 60000 ∧ 60000 ≤ defaultParams.armLength ∧ 3000 ≤ defaultParams.fireLength ∧
    y.sequence = .firing ∧ y.splice.pasteMs.isSome = true ∧ y.splice.cutMs ≠ none ∧ y.splice.cutStarted = true ∧
    y.splice.latch = false ∧ ({ y with splice := { y.splice with cutMs := none, latch := true } } : Position).splice.cutMs = none ∧
    ({ y with splice := { y.splice with pasteMs := none } } : Position).splice.pasteMs = none ∧
    (web .firing).splice.cutStarted = false ∧ (web .confirm).sequence = .confirm := by decide +kernel

theorem test_witness_SwapOfReels : ((running .firing).pos 1).sequence = .firing ∧ ((running .confirm).pos 1).sequence = .confirm ∧
    ((running .failed).pos 1).sequence ∉ [.firing, .confirm] ∧ ((running .confirm).pos 1).running = some .A ∧
    ((running .confirm).pos 1).arm .A = some 7 ∧ ((running .confirm).pos 1).arm .B = some 8 ∧ (running .confirm).reel 7 ≠ none ∧
    (running .confirm).reel 8 ≠ none ∧ ((running .confirm).line 1).run.state ≠ .active ∧
    (((running .confirm).setLine 1 { Line.reset with run := { Run.reset with state := .active } }).line 1).run.state = .active ∧
    ((after (.noticecfg 1 9 0 255) (running .confirm)).handling 9).mode = .report ∧
    (let c (n : Nat) : State := (running .confirm).setLine 1 { Line.reset with run := { Run.reset with
        state := .active, splices := List.replicate n ⟨1, 7, 8, 0, 0, 0, .confirm, 1⟩ } };
      ((c 62).line 1).run.splices.length < 63 ∧ ((c 63).line 1).run.splices.length = 63 ∧
      ((c 64).line 1).run.splices = List.replicate 63 ⟨1, 7, 8, 0, 0, 0, .confirm, 1⟩ ++ [⟨1, 7, 8, 0, 0, 0, .confirm, 1⟩] ∧
      (((after (.confirmEdge 1) (c 64)).line 1).run.splices.getLast?).map (·.splices) = some 2) ∧
    ((running .confirm).handling 9).mode = .both ∧ (running .confirm).ordersFull = false ∧
    (listFull (running .confirm)).ordersFull = true ∧ ((running .confirm).pos 1).gauge.diameter = 600 ∧
    (∀ i ∈ (listFull (running .confirm)).orders.backlog, i.isDisposalOf 1 .A = false) ∧
    (∃ i ∈ ((listFull (running .confirm)).setBacklog [.disposal 1 .A .ret .normal]).orders.backlog, i.isDisposalOf 1 .A = true) ∧
    ((running .confirm).pos 1).params.returnDiameter ≤ 600 ∧ (running .confirm).autoBay 1 1 none = some 1 ∧
    ({ running .confirm with bays := ⟨[]⟩ } : State).autoBay 1 1 none = none ∧ ¬((web .confirm).params.returnDiameter ≤ 299) ∧
    ({ Gauge.reset with estimate := some 4784 } : Gauge).diameter = 299 ∧ (running .confirm).nodeOfKind .waste = some 4 ∧
    (let w := (running .confirm).setReel 8 { reelAt .staged (.onArm 1 .B) with diameter := 130 };
      (max (16 * (web .confirm).params.coreDiameter) (min (16 * 130) 24000) + 8) / 16 ≤ (web .confirm).params.spliceDiameter ∧
      ((after (.confirmEdge 1) w).pos 1).splice.missed = true ∧ ((after (.confirmEdge 1) w).pos 1).outputs.webEnd = true) ∧
    (after (.confirmEdge 1) (running .confirm)).notices.queue.map (·.subjects) =
      [.spliceDone 1 7 600 8 1000 .confirm] ∧
    ((after (.confirmEdge 1) (running .confirm)).pos 1).disposal .A = some .ordered := by decide +kernel

theorem test_witness_SpliceRequests :
    let s := running .standby
    s.takes = true ∧ (s.pos 1).enabled = true ∧ armOf 2 = some .B ∧ armOf 1 = some .A ∧ (s.pos 1).arm .B = some 8 ∧
    s.reel 8 = some (reelAt .staged (.onArm 1 .B)) ∧ (s.pos 1).running ≠ some .B ∧ (s.pos 1).isWeb = true ∧
    (s.pos 1).sequence = .standby ∧ s.mayDrive 1 (s.pos 1).gauge.remaining = false ∧
    (((running .standby).setLine 1 pressing).mayDrive 1 600000) = true ∧ (s.pos 1).running = some .A ∧
    ((running .matched).pos 1).sequence = .matched ∧ ((running .failed).pos 1).sequence = .failed ∧
    (running .failed).armState 1 ((running .failed).pos 1).standbyArm = some .staged ∧
    ((running .failed).setReel 8 (reelAt .prepared (.onArm 1 .B))).armState 1 .B = some .prepared ∧
    ((running .failed).delReel 8).armState 1 .B = none ∧ ((running .failed).pos 1).running = some (otherArm .B) ∧
    (let f := (((running .failed).setReel 8 (reelAt .prepared (.onArm 1 .B))).setLine 1 pressing).setPos 1 { web .failed with
        gauge := { (web .failed).gauge with remaining := 0 } };
      (f.pos 1).sequence = .failed ∧ (f.pos 1).running = some .A ∧ f.armState 1 (f.pos 1).standbyArm = some .prepared ∧
      f.mayDrive 1 (f.pos 1).gauge.remaining = true ∧ ((after (.splicefix 1 1 1) f).pos 1).sequence = .accel ∧ f.takes = true) := by
  decide +kernel

theorem test_witness_PoscfgAndDemand :
    let q := defaultParams
    hall.takes = true ∧ ((running .accel).pos 1).sequence ∉ [.noWeb, .noStandby, .standby, .ready] ∧
    ((running .ready).pos 1).sequence ∈ [.noWeb, .noStandby, .standby, .ready] ∧ ((running .ready).pos 1).enabled = true ∧
    (clampParams { q with spliceDiameter := 119 }).spliceDiameter < (clampParams { q with spliceDiameter := 119 }).coreDiameter + 20 ∧
    (clampParams { q with armLength := 5000, fireLength := 5001 }).armLength < (clampParams { q with armLength := 5000, fireLength := 5001 }).fireLength ∧
    (clampParams q).coreDiameter + 20 ≤ (clampParams q).spliceDiameter ∧ (clampParams q).fireLength ≤ (clampParams q).armLength ∧
    (clampParams q).armLength ≤ (clampParams q).accelLength ∧ (clampParams q).urgentMargin ≤ (clampParams q).leadTime ∧
    16 * (clampParams q).coreDiameter ≤ 9600 ∧ (demanding.pos 1).enabled = true ∧ demanding.deliverOf 1 = none ∧
    demanding.openReservation 1 = none ∧
    (let q3 := clampParams { q with accelLength := 50000, armLength := 50001 };
      q3.coreDiameter + 20 ≤ q3.spliceDiameter ∧ q3.fireLength ≤ q3.armLength ∧ q3.accelLength < q3.armLength) ∧
    (let q4 := clampParams { q with leadTime := 60, urgentMargin := 61 };
      q4.coreDiameter + 20 ≤ q4.spliceDiameter ∧ q4.fireLength ≤ q4.armLength ∧ q4.armLength ≤ q4.accelLength ∧
      q4.leadTime < q4.urgentMargin) ∧
    (let q5 := clampParams { q with coreDiameter := 150, spliceDiameter := 170 };
      q5.coreDiameter + 20 ≤ q5.spliceDiameter ∧ q5.fireLength ≤ q5.armLength ∧ q5.armLength ≤ q5.accelLength ∧
      q5.urgentMargin ≤ q5.leadTime ∧ 2399 < 16 * q5.coreDiameter) ∧
    (hall.pos 1).enabled = false ∧ reserved.takes = true ∧ (reserved.pos 1).enabled = true ∧ reserved.deliverOf 1 = none ∧
    reserved.openReservation 1 = some 7 ∧ reserved.reel 7 ≠ none ∧ (demanding.setOrder 5 toArm).deliverOf 1 ≠ none ∧
    (demanding.setOrder 5 toArm).takes = true := by decide +kernel

/-- Position 1 not WEB, reel 7 STAGED on arm A, reel 8 PREPARED on arm B. -/
def loaded : State :=
  ((standing hall { Position.reset with armA := some 7, armB := some 8 }).setReel 7 (reelAt .staged (.onArm 1 .A))).setReel 8
    (reelAt .prepared (.onArm 1 .B))

theorem test_witness_ThreadStartsAWeb : loaded.takes = true ∧ (loaded.pos 1).enabled = true ∧ (loaded.pos 1).arm .A = some 7 ∧
    (loaded.pos 1).arm (otherArm .A) ≠ some 7 ∧ loaded.reel 7 = some (reelAt .staged (.onArm 1 .A)) ∧ (loaded.pos 1).running = none ∧
    (loaded.line 1).press.level = false ∧ ((running .ready).pos 1).running ≠ none ∧
    loaded.armState 1 .B = some .prepared ∧ (loaded.setReel 8 (reelAt .staged (.onArm 1 .B))).armState 1 .B = some .staged ∧
    (loaded.delReel 8).armState 1 .B = none ∧ (loaded.setReel 7 (reelAt .butt (.onArm 1 .A))).reel 7 ≠ none ∧
    (reelAt .butt (.onArm 1 .A)).state ∉ [.staged, .prepared] := by decide +kernel

theorem test_witness_LoadUnloadButtoff :
    let s := standing stocked { Position.reset with enabled := true }
    s.takes = true ∧ reelIdOk 7 = true ∧ (s.pos 1).arm .A = none ∧ s.reel 7 = some (reelAt .stored (.inBay 1 1)) ∧
    s.bay 1 = some ⟨1, 3, [7], 0⟩ ∧ s.reel 99 = none ∧ reelDataOk ⟨99, 1, 1, 1000, 70, 0⟩ = true ∧ s.reels.count < 512 ∧
    ((running .ready).pos 1).arm .A ≠ none ∧ ((running .ready).line 1).press.level = false ∧
    ((running .ready).pos 1).sequence ∈ [.noStandby, .standby, .ready] ∧ ((running .ready).pos 1).running = some .A ∧
    (running .ready).reel 7 = some (reelAt .running (.onArm 1 .A)) ∧ ((running .armed).pos 1).sequence ∉ [.noStandby, .standby, .ready] ∧
    (butted.pos 1).arm .A = some 7 ∧ butted.reel 7 = some (reelAt .butt (.onArm 1 .A)) ∧ (butted.pos 1).enabled = true ∧
    (loaded.pos 1).arm .A = some 7 ∧ butted.takes = true ∧
    s.canonical = true ∧
    reelDataOk ⟨99, 1, 1, 2000, 70, 0⟩ = false ∧ ((standing hall (web .ready)).handling 9).mode = .both ∧
    ((after (.noticecfg 1 9 0 255) (running .ready)).handling 9).mode = .report ∧
    (let m := standing { hall with reels := ⟨(List.range 512).map fun k => (k + 1000, reelAt .stored (.inBay 1 1))⟩ } Position.reset;
      512 ≤ m.reels.count ∧ (m.pos 1).arm .A = none ∧ m.reel 7 = none ∧ m.takes = true) ∧
    (let n := standing (hall.setReel 7 (reelAt .butt (.onArm 2 .A))) Position.reset;
      n.reel 7 = some (reelAt .butt (.onArm 2 .A)) ∧ (n.pos 1).arm .A = none) ∧
    (let u := (running .ready).setReel 9 { reelAt .reserved (.inBay 1 1) with reservation := some 1 };
      u.openReservation 1 = some 9 ∧ (running .ready).openReservation 1 = none ∧ u.takes = true ∧
      ((after (.unload 1 1) u).reel 9).map (·.state) = some .stored ∧
      ((after (.unload 1 1) u).pos 1).disposal .A = some .ordered) ∧
    (listFull (running .ready)).ordersFull = true ∧ (running .ready).ordersFull = false := by decide +kernel

/-- Line 1 counting: press running, its run ACTIVE, web 1 in this envelope with this tested value. -/
def counting (k : EnvelopeKind) (m gross : Nat) : State :=
  (((running .ready).setLine 1 { pressing with run := { Run.reset with state := .active, gross := gross, good := gross, target := 1 } }).setWeb 1
    { Web.blank with kind := k, maximum := m, fresh := true, link := if k = .splice then some 1 else none })

theorem test_witness_CopyEvent : (counting .steady 8 0).gateOpen 1 = true ∧ hall.gateOpen 1 = false ∧
    ((counting .steady 8 counterMax).line 1).run.gross = counterMax ∧ ((counting .steady 8 0).line 1).run.gross < counterMax ∧
    (∀ w ∈ positionsOfLine 1, ((counting .steady 8 0).pos w).isWeb = true → ¬(counting .steady 8 0).threshold 1 w < 8) ∧
    ((counting .steady 8 0).line 1).run.target ≠ 0 ∧ ((counting .steady 8 0).line 1).run.good + 1 = ((counting .steady 8 0).line 1).run.target ∧
    (counting .start 1 0).threshold 1 1 < 1 ∧ ((counting .start 1 0).web 1).kind = .start ∧ (counting .splice 1 0).threshold 1 1 < 1 ∧
    ((counting .splice 1 0).web 1).kind = .splice ∧ ((counting .splice 1 0).web 1).link = some 1 ∧ (counting .steady 9 0).threshold 1 1 < 9 ∧
    ((counting .steady 9 0).web 1).fresh = true ∧ (((counting .steady 9 0).setWeb 1 Web.blank).web 1).fresh = false ∧
    (let w (n : Nat) : State := { (counting .start 1 0).setWeb 1 { Web.blank with kind := .start, slot := some 2, index := n } with
        slots := hall.slots.insert 2 worked };
      ((w 389).line 1).press.level = true ∧ ((w 389).web 1).slot = some 2 ∧ (w 389).slot 2 = some worked ∧ worked.length = 389 + 1 ∧
      worked.length ≠ 388 + 1 ∧ ((after (.copyEvent 1) (w 389)).web 1).kind = .steady ∧
      ((after (.copyEvent 1) (w 388)).web 1).index = 389) ∧
    (((running .ready).setWeb 1 { Web.blank with kind := .start, slot := some 2 }).line 1).press.level = false ∧
    ((counting .steady 8 0).line 1).run.reached = none ∧ ((counting .steady 8 5).line 1).run.good + 1 ≠ 1 := by decide +kernel

theorem test_witness_LevelInputs : (hall.line 1).divert.level ≠ true ∧ (hall.line 1).press.level = false ∧
    ((lined pressing).line 1).press.level = true ∧ ((running .ready).pos 1).isWeb = true ∧ ((running .ready).pos 1).sequence = .ready ∧
    defaultParams.accelLength ≤ 600000 ∧ hall.estop.level = false ∧ ((running .armed).pos 1).sequence ∈ [.accel, .matched, .armed] ∧
    ((running .firing).pos 1).sequence ∉ [.accel, .matched, .armed] ∧ inputExists (.spliceConfirm 8) = true ∧
    (hall.filter (.copy 2)).level = inputActive (.copy 2) true ∧ (hall.filter (.copy 2)).level ≠ inputActive (.copy 2) false ∧
    (hall.filter (.copy 2)).run + 1 < hall.filterCount (.copy 2) ∧
    (let s := hall.setFilter (.copy 2) ⟨false, 3⟩; s.filterCount (.copy 2) ≤ (s.filter (.copy 2)).run + 1) ∧
    (let s := (hall.setFilter (.divert 2) ⟨true, 3⟩);
      (s.filter (.divert 2)).level = true ∧ inputActive (.divert 2) false = false ∧ s.filterCount (.divert 2) ≤ (s.filter (.divert 2)).run + 1) := by decide +kernel

theorem test_witness_EmergencyStop : hall.estop.level = false ∧ ((driving hall (cart .offered)).veh 1).state = .offered ∧
    ((driving hall (cart .driving)).veh 1).state = .driving ∧ ((running .matched).pos 1).sequence ∈ [.accel, .matched, .armed] ∧
    ({ running .ready with estop := ⟨true, 0⟩ } : State).estop.level = true ∧
    (hall.vlink.queue.filter fun f => !f.isHalt).length < 16 ∧ ((running .firing).pos 1).sequence ∉ [.accel, .matched, .armed] ∧
    (lined pressing).pressRunning (lineOfPosition 4) = true := by decide +kernel

/-- Positions 2 and 3 in FIRING and CONFIRM (the worked sequence of chapter 7, before copy k), a third web ready. -/
def dwelling : State := ((hall.setPos 2 (web .firing)).setPos 3 (web .confirm)).setPos 4 (web .ready)

/-- The sampler dwells on webs 2 and 3 alternately (chapter 7, before copy k): each sample starts the conversion of the other web. -/
theorem test_dwell_alternates :
    (after (.tensionSampleDelivered 2000) { dwelling with sampler := ⟨3, some 2⟩ }).sampler = ⟨2, some 3⟩ ∧
    (after (.tensionSampleDelivered 2000) { dwelling with sampler := ⟨2, some 3⟩ }).sampler = ⟨3, some 2⟩ := by decide +kernel

/-- "From the next interval the sampler converts web 3 at every interval" (chapter 7, between k and k + 1). -/
theorem test_dwell_on_one :
    (after (.tensionSampleDelivered 2000) { dwelling.setPos 2 (web .ready) with sampler := ⟨2, some 3⟩ }).sampler = ⟨3, some 3⟩ := by
  decide +kernel

/-- The three cases of a channel: one above the last converted, the lowest, none. -/
theorem test_witness_SamplerConversion_channel :
    dwelling.channelAfter 2 (some 3) ∧ dwelling.channelAfter 3 (some 2) ∧ (running .ready).channelAfter 0 (some 1) ∧
    (running .ready).channelAfter 1 (some 1) ∧ hall.channelAfter 8 none :=
  ⟨State.channelAfter_of (by decide +kernel), State.channelAfter_of (by decide +kernel), State.channelAfter_of (by decide +kernel),
    State.channelAfter_of (by decide +kernel), State.channelAfter_of (by decide +kernel)⟩

theorem test_witness_SamplerConversion :
    let s := { dwelling with sampler := ⟨2, none⟩ }
    let t := { dwelling with sampler := ⟨3, none⟩ }
    let u := { running .ready with sampler := ⟨0, some 1⟩ }
    let v := { hall with sampler := ⟨0, some 1⟩ }
    s.sampler.converting = none ∧ t.sampler.converting = none ∧ ({ hall with sampler := ⟨8, none⟩ } : State).sampler.converting = none ∧
    u.sampler.converting = some 1 ∧ 0 < (u.pos 1).params.tensionSetpoint ∧ (u.pos 1).isWeb = true ∧
    v.sampler.converting = some 1 ∧ 0 < (v.pos 1).params.tensionSetpoint ∧ (v.pos 1).isWeb = false := by decide +kernel

theorem test_witness_LineConfiguration : hall.takes = true ∧ ((hall.setWeb 1 { Web.blank with kind := .steady }).web 1).kind = .steady := by
  decide +kernel

theorem test_witness_Envelopes :
    let s := { hall with slots := hall.slots.insert 2 worked }
    let t := s.setLine 1 { Line.reset with startSlot := 2, run := { Run.reset with state := .active } }
    s.takes = true ∧ worked.codes.length = 12 ∧ worked.levels.length = 12 ∧ (∀ c ∈ worked.codes, c ≤ 15) ∧
    (∀ c ∈ worked.levels, c ≤ 31) ∧ worked.offset = max (-8) (min (-2) 7) ∧ ({ worked with offset := 7 } : Envelope).offset = max (-8) (min 100 7) ∧ t.slotSelected 2 = true ∧
    (s.setWeb 1 { Web.blank with slot := some 2 }).slotOpened 2 = true ∧ s.slotSelected 2 = false ∧ s.slotOpened 2 = false ∧
    s.slot 2 = some worked ∧ s.slot 1 = none ∧ worked.signature = 2222 ∧ worked.signature ≠ 0 ∧ 389 < worked.length ∧
    (t.line 1).startSlot = 2 ∧ (∃ c ∈ [16], 15 < c) ∧ (∃ c ∈ [32], 31 < c) ∧ (s.slot 2).map Envelope.signature = some 2222 ∧
    (let u := s.setLine 2 { Line.reset with spliceSlot := 2, startSlot := 1 };
      u.slotSelected 2 = false ∧ u.slotOpened 2 = false ∧ u.slot 2 ≠ none ∧ u.slot 4 = none ∧
      ((after (.envset 1 2 2 [] [] 0) u).line 2).spliceSlot = 0 ∧ ((after (.envset 1 2 2 [] [] 0) u).line 2).startSlot = 1) := by
  decide +kernel

theorem test_witness_Runs : hall.takes = true ∧ (hall.line 1).run.state ≠ .active ∧
    ((counting .steady 8 0).line 1).run.state = .active ∧ (counting .steady 8 0).takes = true := by decide +kernel

/-- The state after power-on is the pin reset state with the HALT-ALL in transmission. -/
theorem test_reset_transmits : (State.resetAt .baud115200).transmit = State.reset := by decide +kernel

/-- R80: a vehicle has at most one RESUME queued. -/
theorem test_one_resume : ((hall.enqueue (.resume 3)).enqueue (.resume 3)).vlink.queue = [.resume 3] := by decide +kernel

/-- R68, R85: the silence timer of a LOST vehicle stands still, and reads 0xFFFF (12.2); the time since its last frame goes on. -/
theorem test_lost_is_silent : ((driving hall { cart .lost with silenceMs := 5000 }).millisecond.veh 1).silenceMs = 5000 ∧
    ((driving hall { cart .lost with sinceFrameMs := 5999 }).millisecond.veh 1).sinceFrameMs = 6000 ∧
    ((after (.ready 1) (driving hall { cart .lost with sinceFrameMs := 5999 })).veh 1).sinceFrameMs = 0 ∧
    timerBytes none = be2 65535 ∧ VehicleState.lost.listening = false := by decide +kernel

/-- A number in a field of open width: its bytes with zeros ahead, held at the most the field carries. -/
theorem test_held_bytes : heldBytes 3 300 = [0#8, 1#8, 44#8] ∧ heldBytes 2 70000 = be2 65535 ∧ heldBytes 2 300 = be2 300 := by
  decide +kernel

/-- R87: what a position measured in CONFIG goes when DEFPOS disables it. -/
theorem test_disabled_position_reads_nothing :
    ((after (.defpos 1 1 5 1) (plan.setPos 1 { Position.reset with enabled := true, gauge := { Gauge.reset with speed := 50 } })).pos 1).gauge.speed
      = 50 ∧
    ((after (.defpos 1 1 5 0) (plan.setPos 1 { Position.reset with enabled := true, gauge := { Gauge.reset with speed := 50 } })).pos 1).gauge
      = Gauge.reset := by decide +kernel

/-- R52: a CANCEL while the GO is in transmission removes the order at once, and no ABANDON follows. -/
theorem test_cancel_before_go : (after (.cancel 1 5) goOut).order 5 = none ∧
    (after (.cancel 1 5) goOut).vlink.queue = [.halt 1] := by decide +kernel

theorem test_witness_ResetMeetsTheInvariants : State.reset.sending :=
  ⟨fun _ => ⟨rfl, rfl, rfl⟩, fun h => by simp [State.reset] at h⟩

/-- R80, R31, R49: two HALTs, frames of four vehicles, a demand and two items of one position, within the bounds. -/
theorem test_witness_listed :
    (({ hall with
        vlink := ⟨⟨[], 0⟩, 0, [.halt 2, .go 1 5 1 1 .pick [9], .resume 1], [.abandon 12 7 1], none⟩, demands := [⟨8, 1, 1, 0⟩] } : State).setBacklog
      [.delivery 8 7 .normal, .disposal 8 .A .ret .normal]).listed :=
  ⟨⟨by decide, by decide, by decide, by decide, by decide⟩, ⟨by decide, by decide, by decide⟩, ⟨by decide, by decide, by decide⟩,
    fun t o h => by change none = some o at h; cases h⟩

theorem test_witness_TablesStayBounded : State.reset.sending ∧ State.reset.canonical = true ∧ State.reset.bounded = true ∧
    (match step { State.reset with pending := [.defnode 1 1 1 1] } with | .next t => t.nodes.count | _ => 0) = 1 :=
  ⟨test_witness_ResetMeetsTheInvariants, by decide +kernel⟩

/-- Position 1 in FIRING with its paste driven is sound. -/
theorem test_witness_OutputsStaySound :
    ({ web .firing with outputs := ⟨false, true, true, false, false⟩, splice := { SpliceSequence.reset with pasteMs := some 5 } } : Position).sound := by
  refine ⟨by decide, fun a h => ?_, fun _ => by decide, fun h => by simp at h, fun h => by simp at h⟩
  cases a
  · simp [Outputs.accel] at h
  · decide

/-- A line with one copy of SPLICE waste charged to its one record. -/
theorem test_witness_BooksStayBalanced :
    Run.balanced { Run.reset with gross := 1, wasteSplice := 1, splices := [⟨1, 7, 8, 0, 0, 1, .confirm, 1⟩] } := by
  unfold Run.balanced
  decide +kernel

end Sys2Proof.Tests
end

section
/-!
The taking of a request, case by case (R171, R173), and RESTTIME's statement from it.
-/
namespace Sys2Proof.Machine

/-! ### A request taken -/

theorem State.takes_iff {s : State} : s.takes = true ↔ s.link.phase = .run ∧ s.link.replies.length < 8 := by
  simp [State.takes]

/-- A request that is allowed and finds room among the replies is what its block makes of it, its reply queued. -/
theorem State.serve_of_allowed {s : State} {r : Request} (tag : Nat) (hroom : s.link.replies.length < 8)
    (hallowed : allowedIn s.link.phase r = true) :
    s.serve tag r = ((s.perform r).1.pushReply (replyTo tag r (s.perform r).2)).transmit := by
  simp [State.serve, State.respond, State.answer, hroom, hallowed]

section
variable {c : Instr} {s : State} {kind tag : Nat} {r : Request}

/-- A request that its block grants is answered OK. -/
theorem answered_of_grant {t : State} {data : Bytes} (hexec : exec c s = .next (s.serve tag r)) (hkind : kindOf r = kind)
    (hroom : s.link.replies.length < 8) (hallowed : allowedIn s.link.phase r = true) (hgrant : s.perform r = t.grant data) :
    answered c s kind tag data t := by
  unfold answered
  rw [hexec, State.serve_of_allowed tag hroom hallowed, hgrant, ← hkind]
  rfl

/-- A request that its block refuses is answered with the status alone. -/
theorem refusedWith_of_refuse {e : Status} {code : Nat} (hexec : exec c s = .next (s.serve tag r)) (hkind : kindOf r = kind)
    (hroom : s.link.replies.length < 8) (hallowed : allowedIn s.link.phase r = true) (hrefuse : s.perform r = s.refuse e)
    (hcode : e.code = code) : refusedWith c s kind tag code := by
  unfold refusedWith
  rw [hexec, State.serve_of_allowed tag hroom hallowed, hrefuse, ← hkind, ← hcode]
  simp [State.refuse, replyTo, noReply]

end

/-! ### RESTTIME (R12, R19) -/

theorem gradeOk_iff {g : Nat} : gradeOk g = true ↔ 1 ≤ g ∧ g ≤ 15 := by simp [gradeOk]

theorem exec_resttime (tag g m : Nat) (s : State) :
    exec (.resttime tag g m) s = .next (s.serve tag (.resttime g m)) := rfl

/-- RESTTIME is a RUN request: the phase that takes it allows it. -/
theorem allowedIn_resttime {s : State} (hphase : s.link.phase = .run) (g m : Nat) :
    allowedIn s.link.phase (.resttime g m) = true := by
  rw [hphase]
  rfl

/-- The part with a grade's rest period set to `m` minutes, held at three days (R19). -/
def State.withRestMinutes (s : State) (g m : Nat) : State :=
  { s with rest := { s.rest with minutes := s.rest.minutes.insert g (min m 4320) } }

theorem State.restMinutes_withRestMinutes (s : State) (g m : Nat) :
    (s.withRestMinutes g m).restMinutes g = min m 4320 := by
  simp [State.withRestMinutes, State.restMinutes]

theorem State.restUntilFor_eq (s : State) (arrival g : Nat) :
    s.restUntilFor arrival g = min (arrival + 60 * s.restMinutes g) counterMax := rfl

theorem State.perform_resttime_grant (s : State) {g : Nat} (m : Nat) (hg : gradeOk g = true) :
    s.perform (.resttime g m) = (s.withRestMinutes g m).grant (be2 (min m 4320)) := if_pos hg

theorem State.perform_resttime_refuse (s : State) {g : Nat} (m : Nat) (hg : ¬gradeOk g = true) :
    s.perform (.resttime g m) = s.refuse .range := if_neg hg

/-- Settles O19: a grade in range is granted, one out of range refused, and rest-until reads the minutes just set. -/
theorem restTime : Obligations.RestTime := by
  intro s tag g m htakes
  obtain ⟨hphase, hroom⟩ := State.takes_iff.1 htakes
  have hallowed := allowedIn_resttime hphase g m
  refine ⟨fun hlow hhigh => ?granted, fun hout => ?refused, fun arrival => ?restUntil⟩
  case granted =>
    exact answered_of_grant (exec_resttime tag g m s) rfl hroom hallowed
      (s.perform_resttime_grant m (gradeOk_iff.2 ⟨hlow, hhigh⟩))
  case refused =>
    have hgrade : ¬gradeOk g = true := by
      rw [gradeOk_iff]
      omega
    exact refusedWith_of_refuse (exec_resttime tag g m s) rfl hroom hallowed (s.perform_resttime_refuse m hgrade) rfl
  case restUntil =>
    change (s.withRestMinutes g m).restUntilFor arrival g = _
    rw [State.restUntilFor_eq, State.restMinutes_withRestMinutes]

end Sys2Proof.Machine
end

section
/-!
The gauge of a position over the close of a speed window (R91, R97): transport leaves it alone, the call-off and urgency tests are chains of
transport moves, and so the readings the window takes are those the event ends with.
-/
namespace Sys2Proof.Machine

variable {s₀ s t : State}

/-! ### What keeps a gauge -/

theorem Move.gauge (m : Move s t) (p : Nat) : (t.pos p).gauge = (s.pos p).gauge := by
  rcases m.positions with same | ⟨q, x, hcalm, hset⟩
  · rw [State.pos_of_positions same]
  · rw [State.pos_of_positions hset, State.pos_setPos]
    split
    case isTrue hpq => rw [hcalm.gauge, hpq]
    case isFalse => rfl

/-- A transport operation leaves every gauge alone. -/
theorem Moves.gauge (h : Moves s t) (p : Nat) : (t.pos p).gauge = (s.pos p).gauge := by
  induction h with
  | refl => rfl
  | tail _ m ih => rw [m.gauge, ih]

/-- The match test moves the sequence and its timer, never the gauge (R115, R116). -/
@[simp] theorem Position.matchTest_gauge (x : Position) : x.matchTest.gauge = x.gauge := by
  unfold Position.matchTest
  repeat' split
  all_goals rfl

/-! ### The tests of a window as transport moves -/

theorem Moves.answerCallOff (h : Moves s₀ s) (p : Nat) (d : Demand) : Moves s₀ (s.answerCallOff p d) := by
  unfold State.answerCallOff
  split
  case h_1 r _ => exact (h.reserve r p).deliverOrBacklog p r
  case h_2 => exact h.joinQueue p d

theorem Moves.raiseCallOff (h : Moves s₀ s) (p : Nat) (d : Demand) : Moves s₀ (s.raiseCallOff p d) := by
  have hclear := h.clearUrgency p
  unfold State.raiseCallOff
  dsimp only
  split
  case isTrue => exact (hclear.answerCallOff p d).raise _
  case isFalse => exact (hclear.setCallOff p _ _).raise _

theorem Moves.testCallOff (h : Moves s₀ s) (p : Nat) : Moves s₀ (s.testCallOff p) := by
  unfold State.testCallOff
  split
  case h_1 d _ =>
    split
    case isTrue => exact h.raiseCallOff p d
    case isFalse => exact h
  case h_2 => exact h

theorem Moves.testUrgency (h : Moves s₀ s) (p : Nat) : Moves s₀ (s.testUrgency p) := by
  unfold State.testUrgency
  dsimp only
  split
  case isTrue =>
    have hreported := h.onPos p (f := fun x => { x with callOff := { x.callOff with urgencyReported := true } }) (.callOff _ _)
    split
    case isTrue => exact (hreported.raiseUrgency p).raise _
    case isFalse => exact hreported.raise _
  case isFalse => exact h

/-! ### The close of a window -/

theorem State.measures_iff {p : Nat} : s.measures p = true ↔ 1 ≤ p ∧ p ≤ 8 ∧ (s.pos p).enabled = true := by
  simp [State.measures, positionOk, and_assoc]

theorem exec_speedWindow_of_measures {p : Nat} (n : Nat) (hmeasures : s.measures p = true) :
    exec (.speedWindow p n) s = .next ((s.closeWindow p n).close s false).transmit :=
  congrArg Host.Outcome.next (if_pos hmeasures)

/-- The tests of a window leave the gauge the window itself took (R91). -/
theorem State.closeWindow_gauge (s : State) (p n : Nat) : ((s.closeWindow p n).pos p).gauge = ((s.pos p).window n).gauge := by
  have htests : Moves (s.onPos p fun x => x.window n) (((s.onPos p fun x => x.window n).testCallOff p).testUrgency p) :=
    (Moves.testCallOff .refl p).testUrgency p
  simp [State.closeWindow, htests.gauge p]

/-- The passes that end a window's event leave its readings alone. -/
theorem State.closeWindow_close_gauge (s pre : State) (force : Bool) (p n : Nat) :
    (((s.closeWindow p n).close pre force).pos p).gauge = ((s.pos p).window n).gauge :=
  ((Moves.close .refl pre force).gauge p).trans (s.closeWindow_gauge p n)

/-! ### The readings of a window -/

/-- The gauge with both speeds of a window taken and its counts begun again (R91). -/
def Gauge.withSpeeds (g : Gauge) (n : Nat) : Gauge :=
  { g with speed := 10 * g.windowCounts, standbySpeed := 10 * n, windowCounts := 0 }

theorem Position.window_gauge_of_web {x : Position} (n : Nat) (hweb : x.isWeb = true) :
    (x.window n).gauge = (x.gauge.withSpeeds n).timed := if_pos hweb

@[simp] theorem Gauge.timed_speed (g : Gauge) : g.timed.speed = g.speed := by
  unfold Gauge.timed
  split <;> rfl

theorem Gauge.timed_of_slow {g : Gauge} (h : g.speed < 100) : g.timed = { g with timeToSplice := 65535, flagZ := true } :=
  if_pos h

theorem Gauge.timed_of_fast {g : Gauge} (h : 100 ≤ g.speed) :
    g.timed = { g with timeToSplice := min 65535 (g.remaining / g.speed), flagZ := false } :=
  if_neg (Nat.not_lt.2 h)

/-- Settles O40: the event ends with the gauge of the window, and that gauge is timed at the window's speed. -/
theorem timeToSplice : Obligations.TimeToSplice := by
  intro s p n hlow hhigh henabled hweb
  have hreadings : (((s.closeWindow p n).close s false).pos p).gauge = ((s.pos p).gauge.withSpeeds n).timed :=
    (s.closeWindow_close_gauge s false p n).trans (Position.window_gauge_of_web n hweb)
  have hmeasures : s.measures p = true := State.measures_iff.2 ⟨hlow, hhigh, henabled⟩
  refine ⟨_, exec_speedWindow_of_measures n hmeasures, ?speed, fun hslow => ?slow, fun hfast => ?fast⟩
  case speed =>
    rw [hreadings, Gauge.timed_speed]
    rfl
  case slow =>
    rw [hreadings, Gauge.timed_of_slow hslow]
    exact ⟨rfl, rfl⟩
  case fast =>
    rw [hreadings, Gauge.timed_of_fast hfast]
    exact ⟨rfl, rfl⟩

end Sys2Proof.Machine
end

section
/-!
LINECFG (R139): the line as it stores it, and what reads its two values: the filters (R130), the threshold of a STEADY web (R150) and the
two resets.
-/
namespace Sys2Proof.Machine

/-- A line with the steady level and the filter count of a LINECFG, each in its range (R139). -/
def Line.configured (x : Line) (steady filter : Nat) : Line :=
  { x with steady := min steady 31, filterCount := clampTo 2 8 filter }

theorem lineOk_iff {l : Nat} : lineOk l = true ↔ 1 ≤ l ∧ l ≤ 2 := by simp [lineOk]

theorem exec_linecfg (tag l a b : Nat) (s : State) : exec (.linecfg tag l a b) s = .next (s.serve tag (.linecfg l a b)) := rfl

/-- LINECFG is a RUN request: the phase that takes it allows it. -/
theorem allowedIn_linecfg {s : State} (hphase : s.link.phase = .run) (l a b : Nat) :
    allowedIn s.link.phase (.linecfg l a b) = true := by
  rw [hphase]
  rfl

theorem State.perform_linecfg_grant (s : State) {l : Nat} (a b : Nat) (hline : lineOk l = true) :
    s.perform (.linecfg l a b) =
      (s.setLine l ((s.line l).configured a b)).grant (be1 (min a 31) ++ be1 (clampTo 2 8 b)) := if_pos hline

/-- A STEADY web is tested against its line's steady level (R143, R150). -/
theorem State.threshold_of_steady {s : State} {w : Nat} (l : Nat) (hsteady : (s.web w).kind = .steady) :
    s.threshold l w = (s.line l).steady := by simp [State.threshold, hsteady]

/-- After pin reset every line stands at its reset values (R182). -/
theorem State.pinReset_line (s : State) (r : LinkRate) (l : Nat) : (s.pinReset r).line l = Line.reset := by
  change (Table.findIn l [(1, Line.reset), (2, Line.reset)]).getD Line.reset = Line.reset
  simp only [Table.findIn]
  split
  case isTrue => rfl
  case isFalse => split <;> rfl

/-- RESTART restarts each line (R182). -/
theorem State.restarted_line (s : State) (l : Nat) : s.restarted.line l = (s.line l).restarted := by
  change ((s.lines.mapEntries fun _ x => x.restarted).find l).getD Line.reset = ((s.lines.find l).getD Line.reset).restarted
  rw [Table.find_mapEntries]
  cases s.lines.find l with
  | none => rfl
  | some x => rfl

/-- Settles O54: the request is granted with the configured line, which the filters and a STEADY web's threshold then read. -/
theorem lineConfiguration : Obligations.LineConfiguration := by
  refine ⟨fun s t tag l a b htakes hlow hhigh ht => ?configured, fun s r l => ?resets⟩
  case configured =>
    obtain ⟨hphase, hroom⟩ := State.takes_iff.1 htakes
    have hline : t.line l = (s.line l).configured a b := by
      rw [ht, State.line_setLine_same]
      rfl
    have hcount : (t.line l).filterCount = max 2 (min b 8) := by
      rw [hline]
      rfl
    refine ⟨?reply, hcount, hcount, hcount, fun w hsteady => ?threshold⟩
    case reply =>
      rw [ht]
      exact answered_of_grant (exec_linecfg tag l a b s) rfl hroom (allowedIn_linecfg hphase l a b)
        (s.perform_linecfg_grant a b (lineOk_iff.2 ⟨hlow, hhigh⟩))
    case threshold =>
      have hweb : t.web w = s.web w := by rw [ht]; rfl
      rw [State.threshold_of_steady l (hweb ▸ hsteady), hline]
      rfl
  case resets =>
    rw [s.pinReset_line r l, s.restarted_line l]
    exact ⟨rfl, rfl, rfl, rfl⟩

end Sys2Proof.Machine
end

section
/-!
Steps 2 and 3 of a copy event (R132): the maxima cleared and the envelopes advanced, each running web of the line by itself
(`State.WebsChanged`, `State.websChanged_clear_advance`).
-/
namespace Sys2Proof.Machine

/-! ### Webs changed one by one -/

/-- `t` is `s` with each web of `ws` changed by `f`, and nothing else. -/
structure State.WebsChanged (s t : State) (ws : List Nat) (f : Web → Web) : Prop where
  rest : t = { s with webs := t.webs }
  inside : ∀ w ∈ ws, t.web w = f (s.web w)
  outside : ∀ w ∉ ws, t.web w = s.web w

namespace State.WebsChanged

variable {s t u : State} {ws : List Nat} {f g : Web → Web}

theorem line (h : s.WebsChanged t ws f) (l : Nat) : t.line l = s.line l := by rw [h.rest]; rfl
theorem notices (h : s.WebsChanged t ws f) : t.notices = s.notices := by rw [h.rest]
theorem slots (h : s.WebsChanged t ws f) : t.slots = s.slots := by rw [h.rest]
theorem hall (h : s.WebsChanged t ws f) : t.hall = s.hall := by rw [h.rest]; rfl
theorem pressRunning (h : s.WebsChanged t ws f) (l : Nat) : t.pressRunning l = s.pressRunning l := by rw [h.rest]; rfl
theorem runningWebs (h : s.WebsChanged t ws f) (l : Nat) : t.runningWebs l = s.runningWebs l := by rw [h.rest]; rfl

theorem empty (s : State) (f : Web → Web) : s.WebsChanged s [] f := ⟨rfl, fun _ hw => absurd hw List.not_mem_nil, fun _ _ => rfl⟩

theorem onWeb (s : State) (w : Nat) (f : Web → Web) : s.WebsChanged (s.onWeb w f) [w] f where
  rest := rfl
  inside k hk := by
    obtain rfl := List.mem_singleton.1 hk
    exact s.web_setWeb_same k _
  outside k hk := s.web_setWeb_other (by simpa using hk) _

/-- Two changes of the same webs, one after the other. -/
theorem trans (hst : s.WebsChanged t ws f) (htu : t.WebsChanged u ws g) : s.WebsChanged u ws (g ∘ f) where
  rest := by rw [htu.rest, hst.rest]
  inside w hw := by rw [htu.inside w hw, hst.inside w hw, Function.comp_apply]
  outside w hw := by rw [htu.outside w hw, hst.outside w hw]

/-- A web changed, and then others by the same function. -/
theorem cons {w : Nat} (hw : w ∉ ws) (hst : s.WebsChanged t [w] f) (htu : t.WebsChanged u ws f) : s.WebsChanged u (w :: ws) f where
  rest := by rw [htu.rest, hst.rest]
  inside k hk := by
    rcases List.mem_cons.1 hk with rfl | hk
    · rw [htu.outside k hw, hst.inside k (List.mem_singleton_self k)]
    · have hne : k ≠ w := fun h => hw (h ▸ hk)
      rw [htu.inside k hk, hst.outside k (by simpa using hne)]
  outside k hk := by
    obtain ⟨hne, hk⟩ := not_or.1 (mt List.mem_cons.2 hk)
    rw [htu.outside k hk, hst.outside k (by simpa using hne)]

/-- A loop over webs changes each of them by what its step does to one; a step may read the slots. -/
theorem forEach {step : Nat → State → State} (hnodup : ws.Nodup) (s : State)
    (hstep : ∀ (w : Nat) (t : State), t.slots = s.slots → t.WebsChanged (step w t) [w] f) : s.WebsChanged (forEach ws step s) ws f := by
  induction ws generalizing s with
  | nil => exact empty s f
  | cons w ws ih =>
    obtain ⟨hw, hnodup⟩ := List.nodup_cons.1 hnodup
    have hfirst := hstep w s rfl
    exact hfirst.cons hw (ih hnodup (step w s) fun k t ht => hstep k t (ht.trans hfirst.slots))

end State.WebsChanged

theorem State.mem_runningWebs {s : State} {l w : Nat} :
    w ∈ s.runningWebs l ↔ w ∈ positionsOfLine l ∧ (s.pos w).isWeb = true := List.mem_filter

/-- The feed positions of a line ascend (R87). -/
theorem positionsOfLine_ascending (l : Nat) : (positionsOfLine l).Pairwise (· < ·) := by
  unfold positionsOfLine
  split <;> decide

theorem State.runningWebs_ascending (s : State) (l : Nat) : (s.runningWebs l).Pairwise (· < ·) :=
  (positionsOfLine_ascending l).filter _

theorem State.runningWebs_nodup (s : State) (l : Nat) : (s.runningWebs l).Nodup := (s.runningWebs_ascending l).imp Nat.ne_of_lt

/-! ### The maxima and the envelopes (steps 2 and 3 of R132) -/

/-- A web's tension record after a copy event (R134). -/
def Web.cleared (x : Web) : Web := { x with maximum := 0, fresh := false }

/-- A web's envelope advanced by one copy, by the content of the slots (R149). -/
def Web.advanced (slots : Table Envelope) (x : Web) : Web :=
  if x.kind ∈ [.start, .splice] then
    if (x.slot.bind slots.find).map Envelope.length = some (x.index + 1) then
      { x with kind := .steady, index := 0, slot := none, link := none }
    else { x with index := x.index + 1 }
  else x

theorem Web.advanced_of_quiet {slots : Table Envelope} {x : Web} (h : x.kind ∉ [.start, .splice]) : x.advanced slots = x := if_neg h

theorem Web.advanced_of_ended {slots : Table Envelope} {x : Web} {k : Nat} {e : Envelope} (h : x.kind ∈ [.start, .splice])
    (hslot : x.slot = some k) (hfull : slots.find k = some e) (hlength : e.length = x.index + 1) :
    x.advanced slots = { x with kind := .steady, index := 0, slot := none, link := none } := by
  rw [Web.advanced, if_pos h]
  simp [hslot, hfull, hlength]

theorem Web.advanced_of_open {slots : Table Envelope} {x : Web} {k : Nat} {e : Envelope} (h : x.kind ∈ [.start, .splice])
    (hslot : x.slot = some k) (hfull : slots.find k = some e) (hlength : e.length ≠ x.index + 1) :
    x.advanced slots = { x with index := x.index + 1 } := by
  rw [Web.advanced, if_pos h]
  simp [hslot, hfull, hlength]

theorem State.advanceWeb_of_open {s : State} {w : Nat} (h : (s.web w).kind ∈ [.start, .splice]) :
    s.advanceWeb w = s.onWeb w (Web.advanced s.slots) := by
  have hkind : (s.web w).kind = .start ∨ (s.web w).kind = .splice := by simpa using h
  unfold State.advanceWeb State.onWeb Web.advanced
  rw [if_pos h, apply_ite (s.setWeb w)]
  rcases hkind with hkind | hkind <;> simp only [hkind] <;> rfl

theorem State.advanceWeb_of_quiet {s : State} {w : Nat} (h : (s.web w).kind ∉ [.start, .splice]) : s.advanceWeb w = s := by
  have hkind : (s.web w).kind ≠ .start ∧ (s.web w).kind ≠ .splice := by simpa using h
  simp only [State.advanceWeb]
  split
  case h_1 hstart => exact absurd hstart hkind.1
  case h_2 hsplice => exact absurd hsplice hkind.2
  case h_3 => rfl

/-- The advance of one web is a change of that web. -/
theorem State.websChanged_advanceWeb (s : State) (w : Nat) : s.WebsChanged (s.advanceWeb w) [w] (Web.advanced s.slots) := by
  by_cases hopen : (s.web w).kind ∈ [.start, .splice]
  case pos =>
    rw [State.advanceWeb_of_open hopen]
    exact .onWeb s w _
  case neg =>
    rw [State.advanceWeb_of_quiet hopen]
    refine ⟨rfl, fun k hk => ?_, fun _ _ => rfl⟩
    obtain rfl := List.mem_singleton.1 hk
    rw [Web.advanced_of_quiet hopen]

/-- What a copy event makes of a running web of its line: the maximum cleared, and the envelope advanced while the press runs (R132). -/
def Web.copied (slots : Table Envelope) (press : Bool) (x : Web) : Web := if press then x.cleared.advanced slots else x.cleared

theorem State.websChanged_clearMaxima (s : State) (l : Nat) : s.WebsChanged (s.clearMaxima l) (s.runningWebs l) Web.cleared :=
  .forEach (s.runningWebs_nodup l) s fun w t _ => .onWeb t w Web.cleared

theorem State.websChanged_advanceEach (s : State) (l : Nat) :
    s.WebsChanged (forEach (s.runningWebs l) (fun w t => t.advanceWeb w) s) (s.runningWebs l) (Web.advanced s.slots) :=
  .forEach (s.runningWebs_nodup l) s fun w t hslots => hslots ▸ t.websChanged_advanceWeb w

theorem State.websChanged_clear_advance (s : State) (l : Nat) :
    s.WebsChanged ((s.clearMaxima l).advanceWebs l) (s.runningWebs l) (Web.copied s.slots (s.pressRunning l)) := by
  have hclear := s.websChanged_clearMaxima l
  have hadvance := (s.clearMaxima l).websChanged_advanceEach l
  rw [hclear.runningWebs l, hclear.slots] at hadvance
  unfold State.advanceWebs
  rw [hclear.pressRunning l, hclear.runningWebs l]
  cases s.pressRunning l with
  | false => exact hclear
  | true => exact hclear.trans hadvance

end Sys2Proof.Machine
end

section
/-!
What a counted copy is classed as (R137), and what the account of its line makes of it (R156, R158).
-/
namespace Sys2Proof.Machine

/-! ### The class of a counted copy (R137) -/

section
variable {s : State} {l : Nat}

/-- A web exceeds when it runs and its tested value is above its threshold (R136, R137). -/
theorem State.mem_exceeding {w : Nat} :
    w ∈ s.exceeding l ↔ w ∈ positionsOfLine l ∧ (s.pos w).isWeb = true ∧ s.threshold l w < (s.web w).tested := by
  simp [State.exceeding, State.mem_runningWebs, and_assoc]

theorem State.exceeding_ascending (s : State) (l : Nat) : (s.exceeding l).Pairwise (· < ·) := (s.runningWebs_ascending l).filter _

theorem State.classify_of_divert (h : (s.line l).divert.level = true) : s.classify l = .divert := if_pos h

theorem State.classify_of_none (hdivert : (s.line l).divert.level = false) (hnone : s.exceeding l = []) : s.classify l = .good := by
  simp [State.classify, hdivert, hnone]

theorem State.classify_of_start {w : Nat} (hdivert : (s.line l).divert.level = false) (hw : w ∈ s.exceeding l)
    (hstart : (s.web w).kind = .start) : s.classify l = .start := by
  have hany : (s.exceeding l).any (fun w => decide ((s.web w).kind = .start)) = true :=
    List.any_eq_true.2 ⟨w, hw, decide_eq_true hstart⟩
  simp only [State.classify, hdivert, if_neg (List.ne_nil_of_mem hw), if_pos hany]
  rfl

/-- With a web beyond its threshold and none of those in START, the links of those in SPLICE decide. -/
theorem State.classify_of_no_start {w : Nat} (hdivert : (s.line l).divert.level = false) (hw : w ∈ s.exceeding l)
    (hstart : ∀ v ∈ s.exceeding l, (s.web v).kind ≠ .start) :
    s.classify l = ((s.linkAmong (s.exceeding l)).map CopyClass.splice).getD .tension := by
  have hany : ¬(s.exceeding l).any (fun w => decide ((s.web w).kind = .start)) = true := by simpa using hstart
  simp only [State.classify, hdivert, if_neg (List.ne_nil_of_mem hw), if_neg hany]
  cases s.linkAmong (s.exceeding l) <;> rfl

/-- Only a copy that is not diverted and exceeds nowhere is good. -/
theorem State.classify_eq_good_iff : s.classify l = .good ↔ (s.line l).divert.level = false ∧ s.exceeding l = [] := by
  refine ⟨fun h => ?_, fun ⟨hdivert, hnone⟩ => State.classify_of_none hdivert hnone⟩
  unfold State.classify at h
  split at h
  case isTrue => cases h
  case isFalse hdivert =>
    dsimp only at h
    split at h
    case isTrue hnone => exact ⟨by simpa using hdivert, hnone⟩
    case isFalse =>
      split at h
      case isTrue => cases h
      case isFalse => split at h <;> cases h

end

/-- The link among webs in rising order is that of the lowest-numbered one in SPLICE with a link (R137). -/
theorem State.linkAmong_of_lowest {s : State} {ws : List Nat} {w r : Nat} (hasc : ws.Pairwise (· < ·)) (hw : w ∈ ws)
    (hkind : (s.web w).kind = .splice) (hlink : (s.web w).link = some r)
    (hlow : ∀ v ∈ ws, v < w → ¬((s.web v).kind = .splice ∧ (s.web v).link ≠ none)) : s.linkAmong ws = some r := by
  induction ws with
  | nil => cases hw
  | cons v ws ih =>
    obtain ⟨hfirst, hasc⟩ := List.pairwise_cons.1 hasc
    rw [State.linkAmong, List.findSome?_cons]
    rcases List.mem_cons.1 hw with rfl | hw
    · rw [if_pos hkind, hlink]
    · have hskip : (if (s.web v).kind = .splice then (s.web v).link else none) = none := by
        by_contra hne
        exact hlow v List.mem_cons_self (hfirst w hw) (by simpa using hne)
      rw [hskip]
      exact ih hasc hw fun k hk => hlow k (List.mem_cons_of_mem v hk)

theorem State.linkAmong_of_no_link {s : State} {ws : List Nat}
    (h : ∀ v ∈ ws, ¬((s.web v).kind = .splice ∧ (s.web v).link ≠ none)) : s.linkAmong ws = none := by
  refine List.findSome?_eq_none_iff.2 fun v hv => ?_
  by_contra hne
  exact h v hv (by simpa using hne)

/-! ### The account of a counted copy (R156, R158) -/

theorem Run.take_of_full {x : Run} (c : CopyClass) (now : Nat) (h : x.gross = counterMax) : x.take c now = { x with frozen := true } :=
  if_pos h

theorem Run.take_of_room {x : Run} (c : CopyClass) (now : Nat) (h : x.gross ≠ counterMax) :
    x.take c now = { x.classed c with
      gross := x.gross + 1, reached := if x.reaches c then some ⟨now, x.gross + 1⟩ else (x.classed c).reached } := by
  simp only [Run.take, if_neg h]
  split <;> rfl

@[simp] theorem Run.classed_reached (x : Run) (c : CopyClass) : (x.classed c).reached = x.reached := by cases c <;> rfl

theorem Run.reaches_iff {x : Run} {c : CopyClass} : x.reaches c = true ↔
    c = .good ∧ x.gross ≠ counterMax ∧ x.target ≠ 0 ∧ x.good + 1 = x.target ∧ x.reached = none := by
  simp [Run.reaches, and_assoc]

end Sys2Proof.Machine
end

section
/-!
A copy event (R132): the gate's step changes its line and the notices alone (`State.gateCopy_eq`), and the webs follow.
-/
namespace Sys2Proof.Machine

/-! ### The gate (step 1 of R132) -/

@[simp] theorem State.setLine_setLine (s : State) (l : Nat) (x y : Line) : (s.setLine l x).setLine l y = s.setLine l y := by
  simp [State.setLine]

/-- The TARGET a line raises with the copy that reaches its target (R158, R185). -/
def Run.targetNotice (x : Run) (l : Nat) : Subjects := .target l x.number x.target (x.good + 1) (x.gross + 1)

/-- An account changes its line's run, and raises TARGET when the target is reached. -/
theorem State.account_eq (s : State) (l : Nat) (c : CopyClass) :
    s.account l c =
      if (s.line l).run.reaches c then
        (s.setLine l { s.line l with run := (s.line l).run.take c s.clock.seconds }).raise ((s.line l).run.targetNotice l)
      else s.setLine l { s.line l with run := (s.line l).run.take c s.clock.seconds } := rfl

/-- A line after the gate has taken a copy. -/
def State.gateLine (s : State) (l : Nat) : Line :=
  if s.gateOpen l then { s.line l with
    heldCopies := if s.testedOnHeld l then satAdd (s.line l).heldCopies 1 else (s.line l).heldCopies
    run := (s.line l).run.take (s.classify l) s.clock.seconds }
  else { s.line l with outside := satAdd (s.line l).outside 1 }

/-- The copy taken now is counted and reaches the target of its line. -/
def State.copyReaches (s : State) (l : Nat) : Bool := s.gateOpen l && (s.line l).run.reaches (s.classify l)

/-- The gate changes its line, and raises TARGET when the copy reaches the target. -/
theorem State.gateCopy_eq (s : State) (l : Nat) :
    s.gateCopy l = if s.copyReaches l then (s.setLine l (s.gateLine l)).raise ((s.line l).run.targetNotice l)
      else s.setLine l (s.gateLine l) := by
  unfold State.gateCopy State.gateLine State.copyReaches
  cases hopen : s.gateOpen l with
  | false => rfl
  | true => cases hheld : s.testedOnHeld l <;> simp [State.account_eq, State.onLine]

/-! ### The copy input accepted as active, which is no part of what a copy is judged by -/

section
variable (s : State) (l : Nat)

@[simp] theorem State.setCopy_line (f : Filter) : (s.setFilter (.copy l) f).line l = { s.line l with copy := f } :=
  s.onLine_line_same l _

theorem State.setCopy_threshold (f : Filter) (w : Nat) : (s.setFilter (.copy l) f).threshold l w = s.threshold l w := by
  unfold State.threshold
  rw [State.setCopy_line]
  rfl

theorem State.setCopy_classify (f : Filter) : (s.setFilter (.copy l) f).classify l = s.classify l := by
  have hexceeding : (s.setFilter (.copy l) f).exceeding l = s.exceeding l := by
    simp only [State.exceeding, State.setCopy_threshold]
    rfl
  unfold State.classify
  rw [State.setCopy_line, hexceeding]
  rfl

theorem State.setCopy_gateOpen (f : Filter) : (s.setFilter (.copy l) f).gateOpen l = s.gateOpen l := by
  simp [State.gateOpen, State.pressRunning]

theorem State.setCopy_testedOnHeld (f : Filter) : (s.setFilter (.copy l) f).testedOnHeld l = s.testedOnHeld l := by
  unfold State.testedOnHeld
  rw [State.setCopy_line]
  rfl

theorem State.setCopy_copyReaches (f : Filter) : (s.setFilter (.copy l) f).copyReaches l = s.copyReaches l := by
  simp [State.copyReaches, State.setCopy_gateOpen, State.setCopy_classify]

theorem State.setCopy_gateLine (f : Filter) : (s.setFilter (.copy l) f).gateLine l = { s.gateLine l with copy := f } := by
  unfold State.gateLine
  rw [State.setCopy_gateOpen, State.setCopy_testedOnHeld, State.setCopy_classify, State.setCopy_line]
  split <;> rfl

/-! ### The event -/

/-- The part after the accepted change of a copy input and the gate's step. -/
def State.copyGated : State := (s.setFilter (.copy l) ⟨true, 0⟩).gateCopy l

/-- The part after a copy event, before a free transmitter takes its next frame. -/
def State.copied : State := ((s.copyGated l).clearMaxima l).advanceWebs l

theorem exec_copyEvent {l : Nat} (hlow : 1 ≤ l) (hhigh : l ≤ 2) : exec (.copyEvent l) s = .next (s.copied l).transmit := by
  have hexists : inputExists (.copy l) = true := by simp [inputExists, lineOk, hlow, hhigh]
  change Host.Outcome.next (s.accepted (.copy l) true).transmit = _
  rw [State.accepted, if_pos hexists]
  rfl

theorem State.copyGated_eq : s.copyGated l =
    if s.copyReaches l then (s.setLine l { s.gateLine l with copy := ⟨true, 0⟩ }).raise ((s.line l).run.targetNotice l)
    else s.setLine l { s.gateLine l with copy := ⟨true, 0⟩ } := by
  rw [State.copyGated, State.gateCopy_eq, State.setCopy_copyReaches, State.setCopy_gateLine, State.setCopy_line]
  simp [State.setFilter, State.onLine]

/-- The gate's step is the line set, and perhaps a notice. -/
theorem State.copyGated_rest : s.copyGated l =
    { s.setLine l { s.gateLine l with copy := ⟨true, 0⟩ } with notices := (s.copyGated l).notices } := by
  rw [State.copyGated_eq]
  split
  case isTrue => exact State.raise_eq _ _
  case isFalse => rfl

theorem State.copyGated_notices : (s.copyGated l).notices =
    if s.copyReaches l then (s.raise ((s.line l).run.targetNotice l)).notices else s.notices := by
  rw [State.copyGated_eq]
  split
  case isTrue => exact State.raise_notices_congr (by rfl) (by rfl) _
  case isFalse => rfl

theorem State.gateLine_press : (s.gateLine l).press = (s.line l).press := by
  unfold State.gateLine
  split <;> rfl

theorem State.copyGated_line : (s.copyGated l).line l = { s.gateLine l with copy := ⟨true, 0⟩ } := by
  rw [State.copyGated_rest]
  exact s.line_setLine_same l _

/-- After the gate's step the running webs of the line are all that changes. -/
theorem State.websChanged_copied :
    (s.copyGated l).WebsChanged (s.copied l) (s.runningWebs l) (Web.copied s.slots (s.pressRunning l)) := by
  have hwebs := (s.copyGated l).websChanged_clear_advance l
  have hpress : (s.copyGated l).pressRunning l = s.pressRunning l := by
    rw [State.pressRunning, State.copyGated_line, State.gateLine_press]
    rfl
  have hrunning : (s.copyGated l).runningWebs l = s.runningWebs l := by
    rw [State.copyGated_rest]
    rfl
  have hslots : (s.copyGated l).slots = s.slots := by
    rw [State.copyGated_rest]
    rfl
  rwa [hpress, hrunning, hslots] at hwebs

/-! ### Each part of the state after the event -/

theorem State.copied_line : (s.copied l).line l = { s.gateLine l with copy := ⟨true, 0⟩ } :=
  ((s.websChanged_copied l).line l).trans (s.copyGated_line l)

theorem State.copied_line_other {k : Nat} (hk : k ≠ l) : (s.copied l).line k = s.line k := by
  rw [(s.websChanged_copied l).line k, State.copyGated_rest]
  exact s.line_setLine_other hk _

theorem State.copied_hall : (s.copied l).hall = s.hall := by
  rw [(s.websChanged_copied l).hall, State.copyGated_rest]
  rfl

theorem State.copied_notices : (s.copied l).notices =
    if s.copyReaches l then (s.raise ((s.line l).run.targetNotice l)).notices else s.notices :=
  (s.websChanged_copied l).notices.trans (s.copyGated_notices l)

theorem State.copyGated_web (w : Nat) : (s.copyGated l).web w = s.web w := by
  rw [State.copyGated_rest]
  rfl

theorem State.copied_web_of_running {w : Nat} (hw : w ∈ s.runningWebs l) :
    (s.copied l).web w = (s.web w).copied s.slots (s.pressRunning l) := by
  rw [(s.websChanged_copied l).inside w hw, State.copyGated_web]

theorem State.copied_web_of_not_running {w : Nat} (hw : w ∉ s.runningWebs l) : (s.copied l).web w = s.web w := by
  rw [(s.websChanged_copied l).outside w hw, State.copyGated_web]

end

/-! ### The statement -/

section
variable {s : State} {l : Nat}

theorem State.gateLine_of_closed (h : s.gateOpen l = false) :
    s.gateLine l = { s.line l with outside := satAdd (s.line l).outside 1 } := by simp [State.gateLine, h]

theorem State.gateLine_of_open (h : s.gateOpen l = true) : s.gateLine l = { s.line l with
    heldCopies := if s.testedOnHeld l then satAdd (s.line l).heldCopies 1 else (s.line l).heldCopies
    run := (s.line l).run.take (s.classify l) s.clock.seconds } := if_pos h

theorem State.testedOnHeld_iff : s.testedOnHeld l = true ↔
    (s.line l).divert.level = false ∧ ∃ w ∈ positionsOfLine l, (s.pos w).isWeb = true ∧ (s.web w).fresh = false := by
  simp [State.testedOnHeld, State.mem_runningWebs, and_assoc]

theorem State.not_testedOnHeld (h : (s.line l).divert.level = true ∨
    ∀ w ∈ positionsOfLine l, (s.pos w).isWeb = true → (s.web w).fresh = true) : ¬s.testedOnHeld l = true := by
  rw [State.testedOnHeld_iff]
  rintro ⟨hdivert, w, hmem, hweb, hstale⟩
  rcases h with h | h
  · simp [hdivert] at h
  · simp [h w hmem hweb] at hstale

/-- A copy that reaches the target is counted, good, and the one the target asks for. -/
theorem State.copyReaches_iff : s.copyReaches l = true ↔ s.gateOpen l = true ∧
    ((s.line l).divert.level = false ∧ s.exceeding l = []) ∧ (s.line l).run.gross ≠ counterMax ∧ (s.line l).run.target ≠ 0 ∧
    (s.line l).run.good + 1 = (s.line l).run.target ∧ (s.line l).run.reached = none := by
  rw [State.copyReaches, Bool.and_eq_true, Run.reaches_iff, State.classify_eq_good_iff]

theorem State.not_copyReaches (h : (s.line l).divert.level = true ∨ (∃ w, w ∈ s.exceeding l) ∨ (s.line l).run.target = 0 ∨
    (s.line l).run.good + 1 ≠ (s.line l).run.target ∨ (s.line l).run.reached ≠ none) : ¬s.copyReaches l = true := by
  rw [State.copyReaches_iff]
  rintro ⟨-, ⟨hdivert, hnone⟩, -, htarget, hlast, hunset⟩
  rcases h with h | ⟨w, hw⟩ | h | h | h
  · simp [hdivert] at h
  · simp [hnone] at hw
  · exact htarget h
  · exact h hlast
  · exact h hunset

theorem State.copied_run (h : s.gateOpen l = true) :
    ((s.copied l).line l).run = (s.line l).run.take (s.classify l) s.clock.seconds := by
  rw [State.copied_line, State.gateLine_of_open h]

theorem State.copied_run_of_room (h : s.gateOpen l = true) (hroom : (s.line l).run.gross ≠ counterMax) :
    ((s.copied l).line l).run = { (s.line l).run.classed (s.classify l) with
      gross := (s.line l).run.gross + 1
      reached := if s.copyReaches l then some ⟨s.clock.seconds, (s.line l).run.gross + 1⟩ else (s.line l).run.reached } := by
  rw [State.copied_run h, Run.take_of_room _ _ hroom, Run.classed_reached, State.copyReaches, h, Bool.true_and]

/-- A running web whose envelope is not advanced is cleared and no more. -/
theorem Web.copied_of_quiet {x : Web} {slots : Table Envelope} {press : Bool}
    (h : press = false ∨ x.kind ∉ [.start, .splice]) : x.copied slots press = x.cleared := by
  unfold Web.copied
  split
  case isFalse => rfl
  case isTrue hpress => exact Web.advanced_of_quiet (h.resolve_left (by simp [hpress]))

end

/-- Settles O50: the gate's step gives the line and the notices, and the webs follow one by one. -/
theorem copyEvent : Obligations.CopyEvent := by
  intro s l x beyond hlow hhigh hx hbeyond
  subst hx
  replace hbeyond : ∀ w, beyond w ↔ w ∈ s.exceeding l := fun w => (hbeyond w).trans State.mem_exceeding.symm
  simp only [hbeyond]
  refine ⟨s.copied l, exec_copyEvent s hlow hhigh, s.copied_hall l, by rw [s.copied_line l], fun k => s.copied_line_other l,
    fun w hw => ?still, fun w y hmem hweb hy => ?webs, fun hclosed => ?closed, fun hopen => ?opened⟩
  case still =>
    refine s.copied_web_of_not_running l fun hrunning => ?_
    obtain ⟨hmem, hweb⟩ := State.mem_runningWebs.1 hrunning
    rcases hw with hnot | hnot
    · rw [hnot] at hweb
      cases hweb
    · exact hnot hmem
  case webs =>
    have hcopied := s.copied_web_of_running l (State.mem_runningWebs.2 ⟨hmem, hweb⟩)
    subst hy
    refine ⟨fun hquiet => hcopied.trans (Web.copied_of_quiet hquiet), fun hpress hkind => ?advance⟩
    case advance =>
      replace hcopied : (s.copied l).web w = (s.web w).cleared.advanced s.slots := hcopied.trans (if_pos hpress)
      exact ⟨fun k e hslot hfull hlength => hcopied.trans (Web.advanced_of_ended hkind hslot hfull hlength),
        fun k e hslot hfull hlength => hcopied.trans (Web.advanced_of_open hkind hslot hfull hlength)⟩
  case closed =>
    have hnotarget : ¬s.copyReaches l = true := by simp [State.copyReaches, hclosed]
    rw [s.copied_line l, State.gateLine_of_closed hclosed, s.copied_notices l, if_neg hnotarget]
    exact ⟨rfl, rfl, rfl, rfl⟩
  case opened =>
    have hheld : ((s.copied l).line l).heldCopies =
        if s.testedOnHeld l then min ((s.line l).heldCopies + 1) counterMax else (s.line l).heldCopies := by
      rw [s.copied_line l, State.gateLine_of_open hopen]
      rfl
    refine ⟨?outside, fun hdivert hstale => ?held, fun hfresh => ?notHeld, fun hfull => ?full, fun hroom => ?counted⟩
    case outside => rw [s.copied_line l, State.gateLine_of_open hopen]
    case held => rw [hheld, if_pos (State.testedOnHeld_iff.2 ⟨hdivert, hstale⟩)]
    case notHeld => rw [hheld, if_neg (State.not_testedOnHeld hfresh)]
    case full =>
      have hnotarget : ¬s.copyReaches l = true := by simp [State.copyReaches_iff, hfull]
      rw [State.copied_run hopen, Run.take_of_full _ _ hfull, s.copied_notices l, if_neg hnotarget]
      exact ⟨rfl, rfl⟩
    case counted =>
      have hroom := Nat.ne_of_lt hroom
      have hrun := State.copied_run_of_room hopen hroom
      rw [hrun, s.copied_notices l]
      refine ⟨rfl, fun hdivert => ?divert, fun hdivert hnone => ⟨?good, fun htarget hlast hunset => ?target⟩, fun hmiss => ?noTarget,
        fun hdivert ⟨w, hw, hkind⟩ => ?start, fun w r hdivert hstart hw hkind hlink hlow => ?splice,
        fun hdivert ⟨w, hw⟩ hkinds => ?tension⟩
      case divert => rw [State.classify_of_divert hdivert]; rfl
      case good => rw [State.classify_of_none hdivert (List.eq_nil_iff_forall_not_mem.2 hnone)]; rfl
      case target =>
        have hreaches : s.copyReaches l = true :=
          State.copyReaches_iff.2 ⟨hopen, ⟨hdivert, List.eq_nil_iff_forall_not_mem.2 hnone⟩, hroom, htarget, hlast, hunset⟩
        rw [if_pos hreaches, if_pos hreaches]
        exact ⟨rfl, rfl⟩
      case noTarget =>
        have hnotarget := State.not_copyReaches hmiss
        rw [if_neg hnotarget, if_neg hnotarget]
        exact ⟨rfl, rfl⟩
      case start => rw [State.classify_of_start hdivert hw hkind]; rfl
      case splice =>
        rw [State.classify_of_no_start hdivert hw hstart,
          State.linkAmong_of_lowest (s.exceeding_ascending l) hw hkind hlink hlow]
        exact ⟨rfl, rfl⟩
      case tension =>
        rw [State.classify_of_no_start hdivert hw fun v hv => (hkinds v hv).1,
          State.linkAmong_of_no_link fun v hv => (hkinds v hv).2]
        rfl

end Sys2Proof.Machine
end

section
/-!
RUNSTART and RUNEND (R154, R155, R162, R163): what each makes of its line and of the line's webs, and when it is refused.
-/
namespace Sys2Proof.Machine

/-! ### The state each leaves -/

/-- A web whose splice link is absent (R138). -/
def Web.unlinked (x : Web) : Web := { x with link := none }

/-- The part with the splice link of every web of a line absent (R162). -/
def State.unlinked (s : State) (l : Nat) : State := forEach (positionsOfLine l) (fun w t => t.onWeb w Web.unlinked) s

/-- The part after a RUNSTART that is granted (R162). -/
def State.runStarted (s : State) (l n g : Nat) : State :=
  (s.unlinked l).setLine l { s.line l with run := Run.opened n g s.clock.seconds }

/-- The part after a RUNEND that is granted (R163). -/
def State.runEnded (s : State) (l : Nat) : State :=
  s.setLine l { s.line l with run := (s.line l).run.closed s.clock.seconds }

theorem State.websChanged_unlinked (s : State) (l : Nat) : s.WebsChanged (s.unlinked l) (positionsOfLine l) Web.unlinked :=
  .forEach ((positionsOfLine_ascending l).imp Nat.ne_of_lt) s fun w t _ => .onWeb t w Web.unlinked

section
variable (s : State) {l : Nat} (n g : Nat)

theorem State.runStarted_hall : (s.runStarted l n g).hall = s.hall := (s.websChanged_unlinked l).hall

theorem State.runStarted_line :
    (s.runStarted l n g).line l = { s.line l with run := Run.opened n g s.clock.seconds } :=
  (s.unlinked l).line_setLine_same l _

theorem State.runStarted_line_other {k : Nat} (hk : k ≠ l) : (s.runStarted l n g).line k = s.line k :=
  ((s.unlinked l).line_setLine_other hk _).trans ((s.websChanged_unlinked l).line k)

theorem State.runStarted_web {w : Nat} (hw : w ∈ positionsOfLine l) : (s.runStarted l n g).web w = (s.web w).unlinked :=
  (s.websChanged_unlinked l).inside w hw

theorem State.runStarted_web_other {w : Nat} (hw : w ∉ positionsOfLine l) : (s.runStarted l n g).web w = s.web w :=
  (s.websChanged_unlinked l).outside w hw

/-- The run set on the unlinked part is the run set on the line as it was. -/
theorem State.unlinked_onRun (x : Run) :
    (s.unlinked l).onRun l (fun _ => x) = (s.unlinked l).setLine l { s.line l with run := x } := by
  rw [State.onRun, State.onLine, (s.websChanged_unlinked l).line l]

end

/-! ### The requests performed -/

/-- The fields of a RUNSTART in their ranges (R162). -/
def runstartInRange (l n g : Nat) : Bool := lineOk l && (1 ≤ n && n ≤ counterMax) && decide (g ≤ counterMax)

theorem runstartInRange_iff {l n g : Nat} :
    runstartInRange l n g = true ↔ (1 ≤ l ∧ l ≤ 2) ∧ (1 ≤ n ∧ n ≤ counterMax) ∧ g ≤ counterMax := by
  simp [runstartInRange, lineOk_iff, and_assoc]

theorem exec_runstart (tag l n g : Nat) (s : State) :
    exec (.runstart tag l n g) s = .next (s.serve tag (.runstart l n g)) := rfl

theorem exec_runend (tag l : Nat) (s : State) : exec (.runend tag l) s = .next (s.serve tag (.runend l)) := rfl

section
variable {s : State} {l n g : Nat}

/-- RUNSTART in the order of its checks: the ranges, then the state of the line's run. -/
theorem State.perform_runstart (s : State) (l n g : Nat) : s.perform (.runstart l n g) =
    if !runstartInRange l n g then s.refuse .range
    else if (s.line l).run.state = .active then s.refuse .state
    else (s.runStarted l n g).grant (be4 n ++ be4 g ++ be4 s.clock.seconds) := by
  rw [State.runStarted, ← State.unlinked_onRun]
  rfl

theorem State.perform_runstart_range (hrange : ¬runstartInRange l n g = true) :
    s.perform (.runstart l n g) = s.refuse .range := by
  rw [State.perform_runstart, if_pos (by simpa using hrange)]

theorem State.perform_runstart_active (hrange : runstartInRange l n g = true) (hactive : (s.line l).run.state = .active) :
    s.perform (.runstart l n g) = s.refuse .state := by
  rw [State.perform_runstart, if_neg (by simpa using hrange), if_pos hactive]

theorem State.perform_runstart_grant (hrange : runstartInRange l n g = true) (hidle : (s.line l).run.state ≠ .active) :
    s.perform (.runstart l n g) = (s.runStarted l n g).grant (be4 n ++ be4 g ++ be4 s.clock.seconds) := by
  rw [State.perform_runstart, if_neg (by simpa using hrange), if_neg hidle]

/-- RUNEND on a line that exists: the reply carries the record as it is closed. -/
theorem State.perform_runend (s : State) (hline : lineOk l = true) : s.perform (.runend l) =
    if (s.line l).run.state = .active then (s.runEnded l).grant ((s.line l).run.closed s.clock.seconds).bytes
    else s.refuse .state := by
  have hrun : ((s.runEnded l).line l).run = (s.line l).run.closed s.clock.seconds := by rw [State.runEnded, State.line_setLine_same]
  rw [← hrun]
  exact if_neg (by simp [hline])

end

/-- Settles O56: a RUNSTART out of range or over an ACTIVE run is refused, and otherwise leaves `State.runStarted`; RUNEND leaves
`State.runEnded` on an ACTIVE run and is refused on any other. -/
theorem runs : Obligations.Runs := by
  intro s tag l n g htakes hlow hhigh
  obtain ⟨hphase, hroom⟩ := State.takes_iff.1 htakes
  have hstart : allowedIn s.link.phase (.runstart l n g) = true := by rw [hphase]; rfl
  have hend : allowedIn s.link.phase (.runend l) = true := by rw [hphase]; rfl
  have hperform := s.perform_runend (lineOk_iff.2 ⟨hlow, hhigh⟩)
  have hrange (hpos : 1 ≤ n) (hmax : n ≤ counterMax) (htarget : g ≤ counterMax) : runstartInRange l n g = true :=
    runstartInRange_iff.2 ⟨⟨hlow, hhigh⟩, ⟨hpos, hmax⟩, htarget⟩
  refine ⟨fun hout => ?range, fun hactive hpos hmax htarget => ?active, fun hidle hpos hmax htarget => ?started,
    fun hidle => ?notActive, fun run hactive hrun => ?ended⟩
  case range =>
    have hout : ¬runstartInRange l n g = true := by
      rw [runstartInRange_iff]
      omega
    exact refusedWith_of_refuse (exec_runstart tag l n g s) rfl hroom hstart (State.perform_runstart_range hout) rfl
  case active =>
    exact refusedWith_of_refuse (exec_runstart tag l n g s) rfl hroom hstart
      (State.perform_runstart_active (hrange hpos hmax htarget) hactive) rfl
  case started =>
    exact ⟨s.runStarted l n g,
      answered_of_grant (exec_runstart tag l n g s) rfl hroom hstart (State.perform_runstart_grant (hrange hpos hmax htarget) hidle),
      s.runStarted_hall n g, s.runStarted_line n g, fun k hk => s.runStarted_line_other n g hk,
      fun w hw => s.runStarted_web n g hw, fun w hw => s.runStarted_web_other n g hw⟩
  case notActive =>
    exact refusedWith_of_refuse (exec_runend tag l s) rfl hroom hend (hperform.trans (if_neg hidle)) rfl
  case ended =>
    subst hrun
    exact answered_of_grant (exec_runend tag l s) rfl hroom hend (hperform.trans (if_pos hactive))

end Sys2Proof.Machine
end

section
/-!
The Notice Queue (R186, R187): queue order, the place a notice takes, and the notice the overflow rule discards.
-/
namespace Sys2Proof.Machine

/-! ### Queue order (R186) -/

/-- Queue order is the lexicographic order of level, rank and sequence. -/
theorem Notice.before_iff {m n : Notice} : m.before n = true ↔ m.level < n.level ∨ m.level = n.level ∧
    (m.subjects.source < n.subjects.source ∨ m.subjects.source = n.subjects.source ∧ m.sequence < n.sequence) := by
  unfold Notice.before
  split_ifs <;> simp only [decide_eq_true_eq] <;> omega

theorem Notice.before_trans {a b c : Notice} (hab : a.before b = true) (hbc : b.before c = true) : a.before c = true := by
  rw [Notice.before_iff] at *
  omega

/-- An earlier notice is before any later one that is not before it. -/
theorem Notice.before_of_not_before {m n : Notice} (hlater : m.sequence < n.sequence) (h : ¬n.before m = true) :
    m.before n = true := by
  rw [Notice.before_iff] at *
  omega

/-- A queue that is in queue order. -/
def inQueueOrder (q : List Notice) : Prop := q.Pairwise (fun a b => a.before b = true)

/-! ### A notice inserted -/

theorem insertNotice_perm (n : Notice) (q : List Notice) : (insertNotice n q).Perm (n :: q) := by
  induction q with
  | nil => rfl
  | cons m ms ih =>
    unfold insertNotice
    split
    case isTrue => rfl
    case isFalse => exact (ih.cons m).trans (.swap n m ms)

/-- A notice made after all those queued takes a place that keeps the queue in order. -/
theorem insertNotice_inQueueOrder {n : Notice} {q : List Notice} (hq : inQueueOrder q)
    (hlater : ∀ m ∈ q, m.sequence < n.sequence) : inQueueOrder (insertNotice n q) := by
  induction q with
  | nil => exact List.pairwise_singleton _ n
  | cons m ms ih =>
    obtain ⟨hm, hms⟩ := List.pairwise_cons.1 hq
    unfold insertNotice
    split
    case isTrue hbefore =>
      refine List.pairwise_cons.2 ⟨?_, hq⟩
      exact List.forall_mem_cons.2 ⟨hbefore, fun k hk => Notice.before_trans hbefore (hm k hk)⟩
    case isFalse hafter =>
      obtain ⟨hfirst, hrest⟩ := List.forall_mem_cons.1 hlater
      refine List.pairwise_cons.2 ⟨fun k hk => ?_, ih hms hrest⟩
      rcases List.mem_cons.1 ((insertNotice_perm n ms).mem_iff.1 hk) with rfl | hk
      · exact Notice.before_of_not_before hfirst hafter
      · exact hm k hk

/-! ### The notice discarded (R187) -/

/-- The maximum taken along a list from 0 is 0 or stands in the list, and bounds the list. -/
theorem foldl_max_spec (ks : List Nat) : ks.foldl max 0 ∈ 0 :: ks ∧ ∀ k ∈ 0 :: ks, k ≤ ks.foldl max 0 :=
  List.max?_eq_some_iff.1 List.max?_cons'

theorem worstLevel_eq (q : List Notice) : worstLevel q = (q.map (·.level)).foldl max 0 := List.foldl_map.symm

theorem youngestOf_eq (w : Nat) (q : List Notice) :
    youngestOf w q = ((q.filter (·.level = w)).map (·.sequence)).foldl max 0 := by
  rw [List.foldl_map, List.foldl_filter]
  simp only [decide_eq_true_eq]
  rfl

theorem level_le_worstLevel {q : List Notice} {m : Notice} (hm : m ∈ q) : m.level ≤ worstLevel q := by
  rw [worstLevel_eq]
  exact (foldl_max_spec _).2 _ (List.mem_cons_of_mem _ (List.mem_map_of_mem hm))

/-- A worst level above some level is the level of a notice of the queue. -/
theorem exists_level_eq_worstLevel {q : List Notice} {k : Nat} (h : k < worstLevel q) : ∃ m ∈ q, m.level = worstLevel q := by
  rw [worstLevel_eq] at *
  rcases List.mem_cons.1 (foldl_max_spec (q.map (·.level))).1 with hzero | hmem
  · omega
  · exact List.mem_map.1 hmem

theorem worstLevel_le {q : List Notice} {k : Nat} (h : ∀ m ∈ q, m.level ≤ k) : worstLevel q ≤ k := by
  by_contra hover
  obtain ⟨m, hm, hworst⟩ := exists_level_eq_worstLevel (not_le.1 hover)
  exact hover (hworst ▸ h m hm)

theorem sequence_le_youngestOf {q : List Notice} {m : Notice} (hm : m ∈ q) : m.sequence ≤ youngestOf m.level q := by
  rw [youngestOf_eq]
  exact (foldl_max_spec _).2 _ (List.mem_cons_of_mem _ (List.mem_map_of_mem (List.mem_filter.2 ⟨hm, by simp⟩)))

/-- The highest sequence of a level the queue holds is that of one of its notices of the level. -/
theorem exists_sequence_eq_youngestOf {q : List Notice} {m : Notice} (hm : m ∈ q) :
    ∃ d ∈ q, d.level = m.level ∧ d.sequence = youngestOf m.level q := by
  have hle := sequence_le_youngestOf hm
  rw [youngestOf_eq] at *
  rcases List.mem_cons.1 (foldl_max_spec ((q.filter (·.level = m.level)).map (·.sequence))).1 with hzero | hmem
  · exact ⟨m, hm, rfl, by omega⟩
  · obtain ⟨d, hd, hsequence⟩ := List.mem_map.1 hmem
    obtain ⟨hd, hlevel⟩ := List.mem_filter.1 hd
    exact ⟨d, hd, by simpa using hlevel, hsequence⟩

theorem dropNotice_eq_eraseP (w y : Nat) (q : List Notice) :
    dropNotice w y q = q.eraseP (fun n => n.level = w ∧ n.sequence = y) := by
  induction q with
  | nil => rfl
  | cons n ns ih => simp [dropNotice, List.eraseP_cons, ih]

theorem dropNotice_sublist (w y : Nat) (q : List Notice) : (dropNotice w y q).Sublist q :=
  dropNotice_eq_eraseP w y q ▸ List.eraseP_sublist

/-- Where the queue holds a notice of that level and sequence, one such notice leaves it and no other. -/
theorem exists_dropNotice_perm {q : List Notice} {m : Notice} (hm : m ∈ q) :
    ∃ d ∈ q, d.level = m.level ∧ d.sequence = m.sequence ∧ (d :: dropNotice m.level m.sequence q).Perm q := by
  obtain ⟨d, front, back, -, hd, hq, hdrop⟩ :=
    List.exists_of_eraseP (p := fun n : Notice => n.level = m.level ∧ n.sequence = m.sequence) hm (by simp)
  obtain ⟨hlevel, hsequence⟩ := of_decide_eq_true hd
  refine ⟨d, by simp [hq], hlevel, hsequence, ?_⟩
  rw [dropNotice_eq_eraseP, hdrop, hq]
  exact List.perm_middle.symm

/-- The queue after the overflow rule has made room in it. -/
def withoutWorst (q : List Notice) : List Notice := dropNotice (worstLevel q) (youngestOf (worstLevel q) q) q

/-- A queue with a notice worse than level `k` loses exactly one, of the worst level and the youngest there. -/
theorem exists_withoutWorst_perm {q : List Notice} {k : Nat} (h : k < worstLevel q) :
    ∃ d ∈ q, d.level = worstLevel q ∧ d.sequence = youngestOf (worstLevel q) q ∧ (d :: withoutWorst q).Perm q := by
  obtain ⟨m, hm, hworst⟩ := exists_level_eq_worstLevel h
  obtain ⟨e, he, hlevel, hyoungest⟩ := exists_sequence_eq_youngestOf hm
  rw [hworst] at hlevel hyoungest
  have hdrop := exists_dropNotice_perm he
  rwa [hlevel, hyoungest] at hdrop

/-! ### A notice offered -/

section
variable {q : Notices} (n : Notice)

theorem Notices.offer_of_room (hroom : q.queue.length < 32) : q.offer n = { q with queue := insertNotice n q.queue } := if_pos hroom

theorem Notices.offer_of_better (hfull : 32 ≤ q.queue.length) (hbetter : n.level < worstLevel q.queue) :
    q.offer n = { q with queue := insertNotice n (withoutWorst q.queue), overflow := true } := by
  rw [Notices.offer, if_neg (by omega), if_pos hbetter]
  rfl

theorem Notices.offer_of_no_better (hfull : 32 ≤ q.queue.length) (hworst : worstLevel q.queue ≤ n.level) :
    q.offer n = { q with overflow := true } := by
  rw [Notices.offer, if_neg (by omega), if_neg (by omega)]

end

/-- Settles O9: with room the notice is inserted; at 32 the notice `exists_withoutWorst_perm` names makes room for one of a lower level,
and any other notice is lost. -/
theorem noticeOverflow : Obligations.NoticeOverflow := by
  intro q n hq hlater
  refine ⟨fun hroom => ?room, fun hfull hbetter => ?displaced, fun hfull hworst => ?lost⟩
  case room =>
    rw [Notices.offer_of_room n hroom]
    exact ⟨insertNotice_inQueueOrder hq hlater, insertNotice_perm n q.queue, rfl⟩
  case displaced =>
    obtain ⟨m, hm, hlower⟩ := hbetter
    have hlevel : n.level < worstLevel q.queue := hlower.trans_le (level_le_worstLevel hm)
    obtain ⟨d, hd, hworst, hyoungest, hperm⟩ := exists_withoutWorst_perm hlevel
    have hsub : (withoutWorst q.queue).Sublist q.queue := dropNotice_sublist _ _ _
    rw [Notices.offer_of_better n hfull hlevel]
    refine ⟨d, hd, fun k hk => hworst ▸ level_le_worstLevel hk, fun k hk hsame => ?_, ?_,
      insertNotice_inQueueOrder (hq.sublist hsub) fun k hk => hlater k (hsub.subset hk), rfl⟩
    · rw [hyoungest, ← hworst, ← hsame]
      exact sequence_le_youngestOf hk
    · calc
        (d :: insertNotice n (withoutWorst q.queue)).Perm (d :: n :: withoutWorst q.queue) := (insertNotice_perm n _).cons d
        List.Perm _ (n :: d :: withoutWorst q.queue) := .swap n d _
        List.Perm _ (n :: q.queue) := hperm.cons n
  case lost =>
    rw [Notices.offer_of_no_better n hfull (worstLevel_le hworst)]
    exact ⟨rfl, rfl⟩

end Sys2Proof.Machine
end

section
/-!
PROOF. The invariants of every step (O57 to O60), the changes of the state's parts: a relation `State.Keeps` between a state and the state an
operation makes of it, which says of all the invariants at once that they are kept, with one rule for each primitive change of the state.
-/

namespace Sys2Proof.Machine

variable {s₀ s t u : State}

/-! ### The invariants, kept together -/

/-- What holds of `s` of the invariants holds of `t`, and the reply queue has not grown. -/
structure State.Keeps (s t : State) : Prop where
  canonical : s.canonical = true → t.canonical = true
  bounded : s.canonical = true → s.bounded = true → t.bounded = true
  listed : s.listed → t.listed
  sound : s.sound → t.sound
  balanced : s.balanced → t.balanced
  replies : t.link.replies.length ≤ s.link.replies.length

theorem State.bounded_iff : s.bounded = true ↔ s.link.requests.length ≤ 4 ∧ s.link.portReplies.length ≤ 4 ∧
    s.link.replies.length ≤ 8 ∧ s.notices.queue.length ≤ 32 ∧ s.reels.count ≤ 512 ∧ s.orderCount ≤ 32 ∧ s.routes.count ≤ 1024 := by
  simp only [State.bounded, Bool.and_eq_true, decide_eq_true_eq, and_assoc]

/-- The state with everything at rest that no invariant of a step speaks of but `State.sending`. -/
def State.kernel (s : State) : State := { s with
  pending := []
  clock := ⟨0, 0⟩
  rest := ⟨s.rest.minutes, none⟩
  vconfig := ⟨0, 0, 0, 0⟩
  estop := Filter.reset
  sampler := ⟨0, none⟩
  link := { s.link with phase := .config, rate := .baud115200, rx := Receiver.hunt, tx := none, counts := LinkCounts.zero }
  vlink := { s.vlink with rx := Receiver.hunt, discarded := 0, tx := none }
  vehicles := s.vehicles
  notices := { s.notices with overflow := false, sequence := 0 } }

theorem State.listed_kernel : s.kernel.listed ↔ s.listed :=
  ⟨fun h => h.of_same rfl rfl rfl rfl, fun h => h.of_same rfl rfl rfl rfl⟩

namespace State.Keeps

theorem refl (s : State) : s.Keeps s := ⟨id, fun _ => id, id, id, id, le_rfl⟩

theorem trans (h : s.Keeps t) (k : t.Keeps u) : s.Keeps u where
  canonical hc := k.canonical (h.canonical hc)
  bounded hc hb := k.bounded (h.canonical hc) (h.bounded hc hb)
  listed := k.listed ∘ h.listed
  sound := k.sound ∘ h.sound
  balanced := k.balanced ∘ h.balanced
  replies := k.replies.trans h.replies

/-- A change outside what the invariants speak of. -/
theorem of_kernel (h : t.kernel = s.kernel) : s.Keeps t where
  canonical hc := (congrArg State.canonical h).trans hc
  bounded _ hb := (congrArg State.bounded h).trans hb
  listed hl := State.listed_kernel.1 (h ▸ State.listed_kernel.2 hl)
  sound hs := (h ▸ (hs : s.kernel.sound) : t.kernel.sound)
  balanced hb := (h ▸ (hb : s.kernel.balanced) : t.kernel.balanced)
  replies := (congrArg (·.link.replies.length) h).le

theorem same (h : s₀.Keeps s) (hk : t.kernel = s.kernel) : s₀.Keeps t := h.trans (of_kernel hk)

theorem ite {c : Prop} [Decidable c] (ht : c → s.Keeps t) (hu : ¬c → s.Keeps u) : s.Keeps (if c then t else u) := by
  split
  · exact ht ‹_›
  · exact hu ‹_›

theorem forEach (h : s₀.Keeps s) (ns : List Nat) {f : Nat → State → State}
    (hf : ∀ n ∈ ns, ∀ s, s₀.Keeps s → s₀.Keeps (f n s)) : s₀.Keeps (Machine.forEach ns f s) := by
  unfold Machine.forEach
  induction ns generalizing s with
  | nil => exact h
  | cons n ns ih => exact ih (hf n List.mem_cons_self s h) fun m hm => hf m (List.mem_cons_of_mem n hm)

end State.Keeps

/-! ### Transport -/

theorem Notices.length_offer_le (q : Notices) (n : Notice) (h : q.queue.length ≤ 32) : (q.offer n).queue.length ≤ 32 := by
  by_cases hroom : q.queue.length < 32
  · rw [Notices.offer_of_room n hroom, length_insertNotice]
    exact hroom
  by_cases hbetter : n.level < worstLevel q.queue
  · rw [Notices.offer_of_better n (Nat.not_lt.1 hroom) hbetter]
    obtain ⟨m, -, -, -, hperm⟩ := exists_withoutWorst_perm hbetter
    rw [length_insertNotice]
    exact hperm.length_eq.trans_le h
  · rw [Notices.offer_of_no_better n (Nat.not_lt.1 hroom) (Nat.not_lt.1 hbetter)]
    exact h

theorem Move.notices_length (m : Move s t) (h : s.notices.queue.length ≤ 32) : t.notices.queue.length ≤ 32 := by
  cases m with
  | raise b =>
    unfold State.raise
    dsimp only
    split
    · exact Notices.length_offer_le _ _ h
    · exact h
  | _ => exact h

theorem Move.bounded (m : Move s t) (hc : s.canonical = true) (hb : s.bounded = true) : t.bounded = true := by
  rw [State.bounded_iff] at hb ⊢
  obtain ⟨hrequests, hport, hreplies, hnotices, hreels, horders, hroutes⟩ := hb
  have hlink : t.link = s.link := congrArg Apart.link m.apart
  have hroute : t.routes = s.routes := congrArg Apart.routes m.apart
  rw [hlink, hroute]
  exact ⟨hrequests, hport, hreplies, m.notices_length hnotices, (m.reels_count hc).trans hreels, m.orders_count hc horders, hroutes⟩

theorem State.balanced.of_same (hb : s.balanced) (hl : t.lines = s.lines) (hw : t.webs = s.webs) : t.balanced := by
  intro l hmem
  unfold State.linksHold State.web State.line
  rw [hl, hw]
  exact hb l hmem

namespace State.Keeps

/-- A transport operation, which keeps the lists as its lemma of `State.listed` says. -/
theorem moves (h : s₀.Keeps s) (hm : Moves s t) (hl : s.listed → t.listed) : s₀.Keeps t := by
  refine h.trans ⟨hm.canonical, ?_, hl, hm.sound, ?_, ?_⟩
  · intro hc hb
    exact (hm.keep (P := fun u => u.canonical = true ∧ u.bounded = true)
      (fun _ _ m hu => ⟨m.canonical hu.1, m.bounded hu.1 hu.2⟩) ⟨hc, hb⟩).2
  · exact fun hb => hb.of_same (congrArg Apart.lines hm.apart) (congrArg Apart.webs hm.apart)
  · exact (congrArg (·.link.replies.length) hm.apart).le

theorem raise (h : s₀.Keeps s) (b : Subjects) : s₀.Keeps (s.raise b) := h.moves (.raise .refl b) (·.raise b)
theorem close (h : s₀.Keeps s) (pre : State) (force : Bool) : s₀.Keeps (s.close pre force) :=
  h.moves (.close .refl pre force) (·.close pre force)
theorem onReel (h : s₀.Keeps s) (r : Nat) (f : Reel → Reel) : s₀.Keeps (s.onReel r f) := h.moves (.onReel .refl r f) (·.onReel r f)
theorem delReel (h : s₀.Keeps s) (r : Nat) : s₀.Keeps (s.delReel r) := h.moves (.delReel .refl r) (·.delReel r)
theorem rewatch (h : s₀.Keeps s) : s₀.Keeps s.rewatch := h.moves (.rewatch .refl) (·.rewatch)
theorem leaveBay (h : s₀.Keeps s) (b r : Nat) : s₀.Keeps (s.leaveBay b r) := h.moves (.leaveBay .refl b r) (·.leaveBay b r)

/-! ### Positions -/

/-- A position replaced by one that is sound where it is. -/
theorem setPos (h : s₀.Keeps s) {p : Nat} {x : Position} (hx : (s.pos p).sound → x.sound) : s₀.Keeps (s.setPos p x) := by
  refine h.trans ⟨fun hc => ?_, fun _ => id, (·.of_same rfl rfl rfl rfl), fun hs q => ?_, (·.of_same rfl rfl), le_rfl⟩
  · rw [State.canonical_iff] at hc ⊢
    simp_all [Table.wf_insert]
  · rw [State.pos_setPos]
    split
    · exact hx (hs p)
    · exact hs q

theorem onPos (h : s₀.Keeps s) {p : Nat} {f : Position → Position} (hf : (s.pos p).sound → (f (s.pos p)).sound) :
    s₀.Keeps (s.onPos p f) := h.setPos hf

/-! ### Lines and webs -/

/-- A line replaced by one whose run balances and holds a record for every splice link of its webs. -/
theorem setLine (h : s₀.Keeps s) {l : Nat} {x : Line} (hx : s.balanced → l ∈ [1, 2] → x.run.balanced ∧
    ∀ w ∈ positionsOfLine l, ∀ r, (s.web w).link = some r → 1 ≤ r ∧ r ≤ x.run.splices.length) : s₀.Keeps (s.setLine l x) := by
  refine h.trans ⟨fun hc => ?_, fun _ => id, (·.of_same rfl rfl rfl rfl), id, fun hb k hk => ?_, le_rfl⟩
  · rw [State.canonical_iff] at hc ⊢
    simp_all [Table.wf_insert]
  · by_cases he : k = l
    · subst he
      rw [State.linksHold, State.line_setLine_same]
      exact hx hb hk
    · rw [State.linksHold, State.line_setLine_other _ he]
      exact hb k hk

/-- A line replaced by one with the same run. -/
theorem setLine_run (h : s₀.Keeps s) {l : Nat} {x : Line} (hx : x.run = (s.line l).run) : s₀.Keeps (s.setLine l x) :=
  h.setLine fun hb hl => by rw [hx]; exact hb l hl

theorem onLine (h : s₀.Keeps s) {l : Nat} {f : Line → Line} (hf : (f (s.line l)).run = (s.line l).run) : s₀.Keeps (s.onLine l f) :=
  h.setLine_run hf

/-- A run changed into one that balances where it did and has no fewer records. -/
theorem onRun (h : s₀.Keeps s) {l : Nat} {f : Run → Run} (hf : (s.line l).run.balanced → (f (s.line l).run).balanced)
    (hlen : (s.line l).run.splices.length ≤ (f (s.line l).run).splices.length) : s₀.Keeps (s.onRun l f) :=
  h.setLine fun hb hl => ⟨hf (hb l hl).1, fun w hw r hr => ((hb l hl).2 w hw r hr).imp_right (·.trans hlen)⟩

/-- A web replaced by one whose splice link, if it has one, names a record of its line's run. -/
theorem setWeb (h : s₀.Keeps s) {w : Nat} {x : Web} (hx : s.balanced → ∀ l ∈ [1, 2], w ∈ positionsOfLine l → ∀ r, x.link = some r →
    1 ≤ r ∧ r ≤ (s.line l).run.splices.length) : s₀.Keeps (s.setWeb w x) := by
  refine h.trans ⟨fun hc => ?_, fun _ => id, (·.of_same rfl rfl rfl rfl), id, fun hb l hl => ⟨(hb l hl).1, fun v hv r hr => ?_⟩, le_rfl⟩
  · rw [State.canonical_iff] at hc ⊢
    simp_all [Table.wf_insert]
  · by_cases he : v = w
    · subst he
      rw [State.web_setWeb_same] at hr
      exact hx hb l hl hv r hr
    · rw [State.web_setWeb_other _ he] at hr
      exact (hb l hl).2 v hv r hr

/-- A web replaced by one with the same splice link or none. -/
theorem setWeb_link (h : s₀.Keeps s) {w : Nat} {x : Web} (hx : x.link = none ∨ x.link = (s.web w).link) : s₀.Keeps (s.setWeb w x) := by
  refine h.setWeb fun hb l hl hw r hr => ?_
  rcases hx with hx | hx
  · rw [hx] at hr
    cases hr
  · exact (hb l hl).2 w hw r (hx ▸ hr)

theorem onWeb (h : s₀.Keeps s) {w : Nat} {f : Web → Web} (hf : (f (s.web w)).link = none ∨ (f (s.web w)).link = (s.web w).link) :
    s₀.Keeps (s.onWeb w f) := h.setWeb_link hf

/-! ### The store and the floor plan -/

/-- A new reel record, where the Inventory has a place for it (R1). -/
theorem newReel (h : s₀.Keeps s) (r : Nat) (x : Reel) (hroom : s.reels.count < 512) : s₀.Keeps (s.setReel r x) := by
  refine h.trans ⟨fun hc => ?_, fun _ hb => ?_, (·.setReel r x), id, (·.of_same rfl rfl), le_rfl⟩
  · rw [State.canonical_iff] at hc ⊢
    simp_all [Table.wf_insert]
  · rw [State.bounded_iff] at hb ⊢
    have hcount := Table.count_insert_le s.reels r x
    obtain ⟨hrequests, hport, hreplies, hnotices, -, horders, hroutes⟩ := hb
    exact ⟨hrequests, hport, hreplies, hnotices, by simp only [State.setReel_reels]; omega, horders, hroutes⟩

theorem setBay (h : s₀.Keeps s) (b : Nat) (x : Bay) : s₀.Keeps (s.setBay b x) := by
  refine h.trans ⟨fun hc => ?_, fun _ => id, (·.setBay b x), id, (·.of_same rfl rfl), le_rfl⟩
  rw [State.canonical_iff] at hc ⊢
  simp_all [Table.wf_insert]

theorem setNodes (h : s₀.Keeps s) {n : Table Node} (hn : s.nodes.wf = true → n.wf = true) : s₀.Keeps { s with nodes := n } := by
  refine h.trans ⟨fun hc => ?_, fun _ => id, (·.of_same rfl rfl rfl rfl), id, (·.of_same rfl rfl), le_rfl⟩
  rw [State.canonical_iff] at hc ⊢
  simp_all

theorem setRoutes (h : s₀.Keeps s) {n : Table Route} (hn : s.routes.wf = true → n.wf = true)
    (hcount : s.routes.wf = true → s.routes.count ≤ 1024 → n.count ≤ 1024) : s₀.Keeps { s with routes := n } := by
  refine h.trans ⟨fun hc => ?_, fun hc hb => ?_, (·.of_same rfl rfl rfl rfl), id, (·.of_same rfl rfl), le_rfl⟩
  · rw [State.canonical_iff] at hc ⊢
    simp_all
  · rw [State.canonical_iff] at hc
    rw [State.bounded_iff] at hb ⊢
    obtain ⟨hrequests, hport, hreplies, hnotices, hreels, horders, hroutes⟩ := hb
    exact ⟨hrequests, hport, hreplies, hnotices, hreels, horders, hcount hc.2.1 hroutes⟩

theorem setMinutes (h : s₀.Keeps s) {n : Table Nat} (hn : s.rest.minutes.wf = true → n.wf = true) :
    s₀.Keeps { s with rest := { s.rest with minutes := n } } := by
  refine h.trans ⟨fun hc => ?_, fun _ => id, (·.of_same rfl rfl rfl rfl), id, (·.of_same rfl rfl), le_rfl⟩
  rw [State.canonical_iff] at hc ⊢
  simp_all

theorem setSlots (h : s₀.Keeps s) {n : Table Envelope} (hn : s.slots.wf = true → n.wf = true) : s₀.Keeps { s with slots := n } := by
  refine h.trans ⟨fun hc => ?_, fun _ => id, (·.of_same rfl rfl rfl rfl), id, (·.of_same rfl rfl), le_rfl⟩
  rw [State.canonical_iff] at hc ⊢
  simp_all

/-! ### The links and the notices -/

/-- The line link changed, with no more requests and port replies than it may hold and no more replies than before. -/
theorem setLink (h : s₀.Keeps s) {k : LineLink} (hrequests : s.link.requests.length ≤ 4 → k.requests.length ≤ 4)
    (hport : s.link.portReplies.length ≤ 4 → k.portReplies.length ≤ 4) (hreplies : k.replies.length ≤ s.link.replies.length) :
    s₀.Keeps { s with link := k } := by
  refine h.trans ⟨id, fun _ hb => ?_, (·.of_same rfl rfl rfl rfl), id, (·.of_same rfl rfl), hreplies⟩
  rw [State.bounded_iff] at hb ⊢
  exact ⟨hrequests hb.1, hport hb.2.1, hreplies.trans hb.2.2.1, hb.2.2.2⟩

/-- The notices changed, with no more of them queued than before. -/
theorem setNotices (h : s₀.Keeps s) {q : Notices} (hq : q.queue.length ≤ s.notices.queue.length)
    (hh : s.notices.handling.wf = true → q.handling.wf = true) : s₀.Keeps { s with notices := q } := by
  refine h.trans ⟨fun hc => ?_, fun _ hb => ?_, (·.of_same rfl rfl rfl rfl), id, (·.of_same rfl rfl), le_rfl⟩
  · rw [State.canonical_iff] at hc ⊢
    simp_all
  · rw [State.bounded_iff] at hb ⊢
    obtain ⟨hrequests, hport, hreplies, hnotices, hrest⟩ := hb
    exact ⟨hrequests, hport, hreplies, hq.trans hnotices, hrest⟩

/-- Frames leave the outbound queue, and waiting ones move up. -/
theorem dropFrames (h : s₀.Keeps s) {q : List VehicleFrame} (hq : q.Sublist s.vlink.queue) : s₀.Keeps (s.setFrames q s.vlink.waiting) := by
  refine h.moves (.setFrames .refl _ _) fun hl => hl.setFrames ?_
  have hs : (q ++ s.vlink.waiting).Sublist (s.vlink.queue ++ s.vlink.waiting) := hq.append_right _
  exact framesFit_refillFrom ((hs.map _).nodup hl.frames.once) (fun f hf => hl.frames.numbers f (hs.subset hf)) hl.frames.noHalt
    (hq.length_le.trans hl.frames.queued)

end State.Keeps

end Sys2Proof.Machine
end

section
/-!
PROOF. The invariants of every step (O57 to O60), the feed positions: each change of the splice sequence makes a sound position of a sound one,
and each event of a position keeps the invariants.
-/

namespace Sys2Proof.Machine

variable {s₀ s t : State}

/-! ### Sound positions -/

theorem Position.sound_iff {x : Position} : x.sound ↔ (x.sequence = .noWeb ↔ x.running = none) ∧
    (x.outputs.accelA = true → x.running ≠ some .A ∧ x.sequence.driven = true) ∧
    (x.outputs.accelB = true → x.running ≠ some .B ∧ x.sequence.driven = true) ∧
    (x.outputs.paste = true → x.sequence = .firing ∧ x.splice.pasteMs.isSome = true) ∧
    (x.outputs.cut = true → x.sequence = .firing ∧ x.splice.cutMs.isSome = true) ∧
    (x.outputs.webEnd = true → x.running ≠ none) := by
  constructor
  · rintro ⟨hweb, haccel, hrest⟩
    exact ⟨hweb, haccel .A, haccel .B, hrest⟩
  · rintro ⟨hweb, hA, hB, hrest⟩
    exact ⟨hweb, fun a => a.rec hA hB, hrest⟩

namespace Position.sound

variable {x y : Position}

/-- Soundness is about the web, the sequence, the outputs and the timers alone. -/
theorem congr (h : x.sound) (hsequence : y.sequence = x.sequence) (hrunning : y.running = x.running) (houtputs : y.outputs = x.outputs)
    (hsplice : y.splice = x.splice) : y.sound := by
  unfold Position.sound
  rw [hsequence, hrunning, houtputs, hsplice]
  exact h

theorem running_ne (h : x.sound) (hs : x.sequence ≠ .noWeb) : x.running ≠ none := fun e => hs (h.1.2 e)

/-- Out of FIRING neither paste nor cut is on. -/
theorem quiet (h : x.sound) (hs : x.sequence ≠ .firing) : x.outputs.paste = false ∧ x.outputs.cut = false := by
  simp_all [Position.sound_iff]

/-- Outside ACCEL to CONFIRM no reel is driven. -/
theorem undriven (h : x.sound) (hs : x.sequence.driven = false) : x.outputs.accelA = false ∧ x.outputs.accelB = false := by
  simp_all [Position.sound_iff]

/-- A position at rest: a web runs, and no output is on but the web-end warning. -/
theorem of_rest (hsequence : x.sequence ≠ .noWeb) (hrunning : x.running ≠ none)
    (haccel : x.outputs.accelA = false ∧ x.outputs.accelB = false) (hpulse : x.outputs.paste = false ∧ x.outputs.cut = false) :
    x.sound := by
  simp_all [Position.sound_iff]

theorem restarted (x : Position) : x.restarted.sound := by
  simp [Position.sound_iff, Position.restarted, Position.reset, Outputs.off]

theorem accelerated (h : x.sound) (hs : x.sequence = .ready) :
    ({ x.setAccel x.standbyArm true with sequence := .accel, splice := { x.splice with matchMs := none } } : Position).sound := by
  have haccel := h.undriven (by simp [hs, Sequence.driven])
  have hpulse := h.quiet (by simp [hs])
  obtain ⟨a, ha⟩ := Option.ne_none_iff_exists'.1 (h.running_ne (by simp [hs]))
  cases a <;>
    simp [Position.sound_iff, Position.standbyArm, Position.setAccel, otherArm, ha, haccel, hpulse, Sequence.driven]

theorem armed (h : x.sound) (hs : x.sequence = .matched) : ({ x with sequence := .armed } : Position).sound := by
  simp_all [Position.sound_iff, Sequence.driven]

theorem matched (h : x.sound) (hs : x.sequence = .accel) :
    ({ x with sequence := .matched, splice := { x.splice with matchMs := none } } : Position).sound := by
  simp_all [Position.sound_iff, Sequence.driven]

theorem cutDue (h : x.sound) : x.cutDue.sound := by
  unfold Position.cutDue Position.startCut
  split <;> simp_all [Position.sound_iff]

/-- The paste starts, and the cut with it where it is due. -/
theorem enterFiring (h : x.sound) (hs : x.sequence = .armed) : x.enterFiring.sound := by
  refine cutDue ?_
  simp_all [Position.sound_iff, Sequence.driven]

theorem spliceCount (h : x.sound) : x.spliceCount.sound := by
  unfold Position.spliceCount
  split
  · refine cutDue ?_
    simp_all [Position.sound_iff]
  · simp_all [Position.sound_iff]
  · exact h

theorem matchTest (h : x.sound) : x.matchTest.sound := by
  unfold Position.matchTest
  split
  all_goals
    try split
    all_goals simp_all [Position.sound_iff, Sequence.driven]

theorem stopped (h : x.sound) : x.stopped.sound := by
  unfold Position.stopped Position.accelOff
  split <;> simp_all [Position.sound_iff]

theorem aged (h : x.sound) : x.aged.sound := by
  have hms : ∀ m : Option Nat, (nextMs m).isSome = m.isSome := fun m => by cases m <;> rfl
  simpa [Position.sound_iff, Position.aged, hms] using h

theorem failed (h : x.sound) (hs : x.sequence ≠ .noWeb) (c : FailureCause) : ({ x.accelOff with
    sequence := .failed
    outputs := { x.accelOff.outputs with paste := false, cut := false, webEnd := true }
    splice := { x.splice.quiet with cause := some c } } : Position).sound := by
  have := h.running_ne hs
  simp_all [Position.sound_iff, Position.accelOff]

/-- Entry to CONFIRM once both pulses have ended. -/
theorem confirming (h : x.sound) (hs : x.sequence = .firing) (hpaste : x.splice.pasteMs = none) (hcut : x.splice.cutMs = none) :
    ({ x with sequence := .confirm, splice := { x.splice with sinceConfirm := 0, confirmMs := 0 } } : Position).sound := by
  simp_all [Position.sound_iff, Sequence.driven]

theorem unloaded (h : x.sound) (hs : x.sequence ≠ .firing) : x.unloaded.sound := by
  simp_all [Position.sound_iff, Position.unloaded, Position.accelOff]

/-- What the gauge takes and gives is no part of soundness. -/
theorem measureStart (h : x.sound) (d c : Nat) : (x.measureStart d c).sound := by
  simp_all [Position.sound_iff, Position.measureStart, Position.setEstimate, Position.recompute]

end Position.sound

/-- A revolution's sample changes the gauge alone. -/
theorem Position.sample_eq (x : Position) (e m : Nat) : x.sample e m = { x with gauge := (x.sample e m).gauge } := by
  unfold Position.sample
  split
  · split <;> rfl
  · rfl
  · rfl

/-! ### The transitions that end an event -/

namespace State.Keeps

theorem tryAccel (h : s₀.Keeps s) (p : Nat) : s₀.Keeps (s.tryAccel p) :=
  .ite (fun hc => h.setPos fun hx => hx.accelerated hc.1) fun _ => h

theorem tryArm (h : s₀.Keeps s) (p : Nat) : s₀.Keeps (s.tryArm p) := .ite (fun hc => h.setPos fun hx => hx.armed hc.1) fun _ => h

theorem tryFire (h : s₀.Keeps s) (p : Nat) : s₀.Keeps (s.tryFire p) := .ite (fun hc => h.setPos fun hx => hx.enterFiring hc.1) fun _ => h

theorem settle (h : s₀.Keeps s) (p : Nat) : s₀.Keeps (s.settle p) := ((h.tryAccel p).tryArm p).tryFire p

theorem judgeLate (h : s₀.Keeps s) (p before : Nat) : s₀.Keeps (s.judgeLate p before) := by
  refine .ite (fun hc => (h.setPos fun hx => ?_).raise _) fun _ => h
  have hweb : (s.pos p).running ≠ none := by simpa [Position.isWeb, Option.isSome_iff_ne_none] using hc.1
  simp_all [Position.sound_iff]

theorem startGauge (h : s₀.Keeps s) (p r : Nat) : s₀.Keeps (s.startGauge p r) := by
  unfold State.startGauge
  split
  · exact h.onPos fun hx => hx.measureStart _ _
  · exact h

end State.Keeps
end Sys2Proof.Machine
end

section
/-!
PROOF. The invariants of every step (O57 to O60), the runs: a counted copy, a splice and butt paper keep a run's account in balance, and copies
keep the invariants.
-/

namespace Sys2Proof.Machine

variable {s₀ s t : State}

/-! ### Splice records -/

theorem chargeRecord_length (n : Nat) (rs : List SpliceRecord) : (chargeRecord n rs).length = rs.length := by
  fun_induction chargeRecord n rs <;> simp_all

/-- A counter with room is raised by one. -/
theorem satAdd_one_of_lt {n : Nat} (h : n < counterMax) : satAdd n 1 = n + 1 := Nat.min_eq_left h

/-- Record `n` takes one more charged copy, where there is room for the count. -/
theorem chargeRecord_sum {n : Nat} {rs : List SpliceRecord} (hn : 1 ≤ n) (hlen : n ≤ rs.length)
    (hroom : (rs.map (·.charged)).sum < counterMax) :
    ((chargeRecord n rs).map (·.charged)).sum = (rs.map (·.charged)).sum + 1 := by
  induction rs generalizing n with
  | nil => simp at hlen; omega
  | cons r rs ih =>
    rw [List.map_cons, List.sum_cons] at hroom
    match n, hn with
    | 1, _ =>
      simp only [chargeRecord, List.map_cons, List.sum_cons]
      rw [satAdd_one_of_lt (by omega)]
      omega
    | n + 2, _ =>
      simp only [chargeRecord, List.map_cons, List.sum_cons]
      rw [ih (by omega) (by simpa using hlen) (by omega)]
      omega

theorem aggregate_length (z : SpliceRecord) (rs : List SpliceRecord) : (aggregate z rs).length = rs.length := by
  fun_induction aggregate z rs <;> simp_all

theorem aggregate_charged (z : SpliceRecord) (rs : List SpliceRecord) :
    (aggregate z rs).map (·.charged) = rs.map (·.charged) := by
  fun_induction aggregate z rs <;> simp_all

/-! ### A run's account -/

/-- The class names a splice record of the run. -/
def CopyClass.within (c : CopyClass) (x : Run) : Prop := ∀ r, c = .splice r → 1 ≤ r ∧ r ≤ x.splices.length

namespace Run.balanced

variable {x : Run}

/-- A counted copy goes to one class, and a SPLICE copy to its record (R156, R157). -/
theorem take (h : x.balanced) {c : CopyClass} (hc : c.within x) (now : Nat) : (x.take c now).balanced := by
  obtain ⟨hsum, hmax, hcharged, hlen⟩ := h
  unfold Run.take
  split
  · exact ⟨hsum, hmax, hcharged, hlen⟩
  rename_i hroom
  suffices hclassed : ({ x.classed c with gross := x.gross + 1 } : Run).balanced by
    dsimp only
    split <;> exact hclassed
  have hlt : x.gross < counterMax := lt_of_le_of_ne hmax hroom
  cases c with
  | splice r =>
    obtain ⟨h1, h2⟩ := hc r rfl
    refine ⟨?_, hlt, ?_, by simpa [Run.classed, chargeRecord_length] using hlen⟩
    · simp only [Run.classed]
      rw [satAdd_one_of_lt (by omega)]
      omega
    · simp only [Run.classed]
      rw [chargeRecord_sum h1 h2 (by omega), satAdd_one_of_lt (by omega)]
      omega
  | _ =>
    refine ⟨?_, hlt, hcharged, hlen⟩
    simp only [Run.classed]
    rw [satAdd_one_of_lt (by omega)]
    omega

theorem withSplice (h : x.balanced) {z : SpliceRecord} (hz : z.charged = 0) : (x.withSplice z).balanced := by
  obtain ⟨hsum, hmax, hcharged, hlen⟩ := h
  unfold Run.withSplice
  split
  · exact ⟨hsum, hmax, by simpa [hz] using hcharged, by simp; omega⟩
  split
  · exact ⟨hsum, hmax, by simpa [hz] using hcharged, by simp; omega⟩
  · exact ⟨hsum, hmax, by simpa [aggregate_charged] using hcharged, by simpa [aggregate_length] using hlen⟩

theorem opened (n g now : Nat) : (Run.opened n g now).balanced := by simp [Run.balanced, Run.opened, Run.reset, counterMax]

theorem reset : Run.reset.balanced := by simp [Run.balanced, Run.reset, counterMax]

end Run.balanced

theorem Run.take_splices_length (x : Run) (c : CopyClass) (now : Nat) : (x.take c now).splices.length = x.splices.length := by
  unfold Run.take
  dsimp only
  repeat' split
  all_goals cases c <;> simp [Run.classed, chargeRecord_length]

/-- The record a splice goes to is there once the run has taken it (R160, R161). -/
theorem Run.nextRecord_le (x : Run) (z : SpliceRecord) : x.nextRecord ≤ (x.withSplice z).splices.length := by
  unfold Run.withSplice Run.nextRecord
  repeat' split
  all_goals simp only [List.length_append, List.length_singleton, aggregate_length]; omega

theorem Run.length_le_withSplice (x : Run) (z : SpliceRecord) : x.splices.length ≤ (x.withSplice z).splices.length := by
  unfold Run.withSplice
  repeat' split
  all_goals simp [aggregate_length]

/-! ### Copies -/

theorem State.mem_linkAmong {ws : List Nat} {r : Nat} (h : s.linkAmong ws = some r) : ∃ w ∈ ws, (s.web w).link = some r := by
  obtain ⟨w, hw, hr⟩ := List.exists_of_findSome?_eq_some h
  split at hr
  · exact ⟨w, hw, hr⟩
  · cases hr

/-- A copy classed SPLICE is charged to a record of its line's run (R137, R157). -/
theorem State.classify_within {l : Nat} (hlinks : s.linksHold l) : (s.classify l).within (s.line l).run := by
  intro r hr
  unfold State.classify at hr
  dsimp only at hr
  repeat' split at hr
  all_goals try cases hr
  obtain ⟨w, hw, hlink⟩ := State.mem_linkAmong ‹_›
  exact hlinks w (List.mem_of_mem_filter (List.mem_of_mem_filter hw)) r hlink

namespace State.Keeps

/-- A counted copy in the account of its line, whose class names a record of it. -/
theorem account (h : s₀.Keeps s) {l : Nat} {c : CopyClass} (hc : s.linksHold l → c.within (s.line l).run) :
    s₀.Keeps (s.account l c) := by
  have htaken : s₀.Keeps (s.onRun l fun x => x.take c s.clock.seconds) := by
    refine h.setLine fun hb hl => ?_
    obtain ⟨hrun, hlinks⟩ := hb l hl
    refine ⟨hrun.take (hc hlinks) _, fun w hw r hr => ?_⟩
    rw [Run.take_splices_length]
    exact hlinks w hw r hr
  exact .ite (fun _ => htaken.raise _) fun _ => htaken

theorem gateCopy (h : s₀.Keeps s) (l : Nat) : s₀.Keeps (s.gateCopy l) := by
  unfold State.gateCopy
  refine .ite (fun _ => ?_) fun _ => h.onLine rfl
  dsimp only
  split
  · refine account (h.onLine rfl) fun hlinks => ?_
    unfold State.linksHold at hlinks
    rw [State.onLine_line_same] at hlinks ⊢
    exact State.classify_within hlinks
  · exact account h State.classify_within

theorem clearMaxima (h : s₀.Keeps s) (l : Nat) : s₀.Keeps (s.clearMaxima l) := h.forEach _ fun _ _ _ h => h.onWeb (.inr rfl)

theorem advanceWeb (h : s₀.Keeps s) (w : Nat) : s₀.Keeps (s.advanceWeb w) := by
  unfold State.advanceWeb
  dsimp only
  repeat' split
  · exact h.setWeb_link (.inl rfl)
  · exact h.setWeb_link (.inr rfl)
  · exact h.setWeb_link (.inl rfl)
  · exact h.setWeb_link (.inr rfl)
  · exact h

theorem advanceWebs (h : s₀.Keeps s) (l : Nat) : s₀.Keeps (s.advanceWebs l) :=
  .ite (fun _ => h.forEach _ fun _ _ _ h => h.advanceWeb _) fun _ => h

theorem countCopy (h : s₀.Keeps s) (l : Nat) : s₀.Keeps (s.countCopy l) := ((h.gateCopy l).clearMaxima l).advanceWebs l

/-! ### Splices and paper -/

theorem lineOfPosition_of_mem {l w : Nat} (hl : l ∈ [1, 2]) (hw : w ∈ positionsOfLine l) : lineOfPosition w = l := by
  simp only [List.mem_cons, List.not_mem_nil, or_false] at hl
  rcases hl with rfl | rfl <;> simp [positionsOfLine] at hw <;> simp [lineOfPosition] <;> omega

theorem tallyPaper (h : s₀.Keeps s) (l n : Nat) : s₀.Keeps (s.tallyPaper l n) := .ite (fun _ => h.onRun id le_rfl) fun _ => h

theorem openStart (h : s₀.Keeps s) (l : Nat) : s₀.Keeps (s.openStart l) := by
  refine h.forEach _ fun _ _ _ h => h.onWeb (.inl ?_)
  unfold Web.opened
  split <;> rfl

theorem openSplice (h : s₀.Keeps s) (p : Nat) {k : Option Nat} (hk : s.balanced → ∀ l ∈ [1, 2], p ∈ positionsOfLine l → ∀ r, k = some r →
    1 ≤ r ∧ r ≤ (s.line l).run.splices.length) : s₀.Keeps (s.openSplice p k) := by
  refine h.setWeb fun hb l hl hp r hr => ?_
  unfold Web.opened at hr
  split at hr
  · cases hr
  · exact hk hb l hl hp r hr

theorem spliceCounted (h : s₀.Keeps s) (p old new : Nat) (b : SettledBy) : s₀.Keeps (s.spliceCounted p old new b) := by
  refine .ite (fun _ => ?_) fun _ => h.openSplice p (by simp)
  refine openSplice (h.onRun (·.withSplice rfl) (Run.length_le_withSplice _ _)) p fun _ l hl hp r hr => ?_
  obtain rfl := lineOfPosition_of_mem hl hp
  obtain rfl := Option.some.inj hr
  rw [State.onRun, State.onLine_line_same]
  exact ⟨by simp [Run.nextRecord], Run.nextRecord_le _ _⟩

end State.Keeps
end Sys2Proof.Machine
end

section
/-!
PROOF. The invariants of every step (O57 to O60), the events: a butt, the swap and the failure of a splice, the events of a position, the field
inputs, and the samples keep the invariants.
-/

namespace Sys2Proof.Machine

variable {s₀ s t : State}

/-! ### What transport leaves of a position -/

theorem Position.Calm.trans {x y z : Position} (h : x.Calm y) (k : y.Calm z) : x.Calm z where
  standNode := k.standNode.trans h.standNode
  enabled := k.enabled.trans h.enabled
  params := k.params.trans h.params
  demand := k.demand.trans h.demand
  running := k.running.trans h.running
  gauge := k.gauge.trans h.gauge
  outputs := k.outputs.trans h.outputs
  splice := k.splice.trans h.splice
  mark := k.mark.trans h.mark
  confirm := k.confirm.trans h.confirm
  sequence := by
    have hweb : y.isWeb = x.isWeb := by simp [Position.isWeb, h.running]
    rcases h.sequence with e | ⟨hw, e, e'⟩ <;> rcases k.sequence with f | ⟨hv, f, f'⟩ <;> simp_all

theorem Moves.calm (h : Moves s t) (p : Nat) : (s.pos p).Calm (t.pos p) := by
  induction h with
  | refl => exact .refl _
  | tail _ m ih =>
    refine ih.trans ?_
    rcases m.positions with e | ⟨q, x, hx, e⟩
    · rw [State.pos_of_positions e]
      exact .refl _
    · rw [State.pos_of_positions e, State.pos_setPos]
      split
      · subst p
        exact hx
      · exact .refl _

@[simp] theorem State.onReel_positions (s : State) (r : Nat) (f : Reel → Reel) : (s.onReel r f).positions = s.positions := by
  unfold State.onReel
  split <;> rfl

/-! ### A butt -/

theorem Moves.answerButt (h : Moves s₀ s) (p : Nat) (a : Arm) (d : Nat) : Moves s₀ (s.answerButt p a d) := by
  unfold State.answerButt
  dsimp only
  split
  · exact (h.joinBacklog _).onPos p (.setDisposal _ _ _)
  · rename_i hroom
    exact h.makeDisposal p a _ _ (Bool.eq_false_iff.2 hroom)

theorem State.listed.answerButt (h : s.listed) (p : Nat) (a : Arm) (d : Nat) (hp : 1 ≤ p ∧ p ≤ 8) : (s.answerButt p a d).listed := by
  unfold State.answerButt
  dsimp only
  split
  · exact (h.joinBacklog (.disposal ..) hp.1 hp.2).onPos p _
  · exact h.makeDisposal p a _ _

/-- The part once a reel has its butt's record and the run its paper, before the BUTT source answers (R7, R103, R159). -/
def State.buttRecorded (s : State) (p r d : Nat) : State :=
  (s.onReel r fun y => { y with state := .butt, diameter := d, origin := .returned }).tallyPaper (lineOfPosition p)
    ((s.pos p).buttPaper d (((s.reel r).map (·.caliper)).getD 0))

/-- The part once the BUTT source has answered (R102). -/
def State.buttAnswered (s : State) (p : Nat) (a : Arm) (d : Nat) : State :=
  if s.reacts 9 then s.answerButt p a d else s.onPos p fun y => y.setDisposal a (some .manual)

theorem Moves.buttAnswered (h : Moves s₀ s) (p : Nat) (a : Arm) (d : Nat) : Moves s₀ (s.buttAnswered p a d) := by
  unfold State.buttAnswered
  split
  · exact h.answerButt p a d
  · exact h.onPos p (.setDisposal _ _ _)

theorem State.listed.buttAnswered (h : s.listed) (p : Nat) (a : Arm) (d : Nat) (hp : 1 ≤ p ∧ p ≤ 8) : (s.buttAnswered p a d).listed := by
  unfold State.buttAnswered
  split
  · exact h.answerButt p a d hp
  · exact h.onPos p _

/-- Making a butt is its record and paper, the answer of the BUTT source, and the notice. -/
theorem State.makeButt_eq (s : State) {p r : Nat} {a : Arm} (d : Nat) (hr : (s.pos p).arm a = some r) :
    ∃ b, s.makeButt p a d = ((s.buttRecorded p r d).buttAnswered p a d).raise b := by
  unfold State.makeButt
  simp only [hr]
  exact ⟨_, rfl⟩

theorem State.makeButt_of_empty (s : State) {p : Nat} {a : Arm} (d : Nat) (hr : (s.pos p).arm a = none) : s.makeButt p a d = s := by
  unfold State.makeButt
  simp only [hr]

theorem State.makeButt_calm (s : State) (p : Nat) (a : Arm) (d q : Nat) : (s.pos q).Calm ((s.makeButt p a d).pos q) := by
  cases hr : (s.pos p).arm a with
  | none =>
    rw [s.makeButt_of_empty d hr]
    exact .refl _
  | some r =>
    obtain ⟨b, hb⟩ := s.makeButt_eq d hr
    have hrecorded : (s.buttRecorded p r d).pos q = s.pos q := by
      rw [State.buttRecorded, State.tallyPaper_eq]
      exact State.pos_of_positions (State.onReel_positions s r _) q
    rw [hb, State.raise_pos, ← hrecorded]
    exact (Moves.buttAnswered .refl p a d).calm q

namespace State.Keeps

theorem makeButt (h : s₀.Keeps s) {p : Nat} (a : Arm) (d : Nat) (hp : 1 ≤ p ∧ p ≤ 8) : s₀.Keeps (s.makeButt p a d) := by
  cases hr : (s.pos p).arm a with
  | none =>
    rw [s.makeButt_of_empty d hr]
    exact h
  | some r =>
    obtain ⟨b, hb⟩ := s.makeButt_eq d hr
    rw [hb]
    exact (((h.onReel r _).tallyPaper _ _).moves (.buttAnswered .refl p a d) (·.buttAnswered p a d hp)).raise _

end State.Keeps

/-! ### The swap and the failure -/

/-- A measurement start changes the gauge and the missed mark alone. -/
theorem State.startGauge_pos (s : State) (p r : Nat) : ((s.startGauge p r).pos p).outputs = (s.pos p).outputs ∧
    ((s.startGauge p r).pos p).sequence = (s.pos p).sequence ∧ ((s.startGauge p r).pos p).running = (s.pos p).running := by
  unfold State.startGauge
  split
  · simp [Position.measureStart, Position.setEstimate, Position.recompute]
  · exact ⟨rfl, rfl, rfl⟩

/-- A position as the swap turns it to its other arm, nothing driven any more (R120). -/
def Position.turned (x : Position) (a : Arm) : Position :=
  { x.accelOff with running := some a, outputs := { x.accelOff.outputs with webEnd := false } }

/-- A position as the swap leaves it at rest (R111, R120). -/
def Position.spliced (x : Position) : Position :=
  { x with sequence := .noStandby, splice := { x.splice.quiet with count := satAdd x.splice.count 1 } }

theorem Position.sound.turned {x : Position} (h : x.sound) (hweb : x.running ≠ none) (hs : x.sequence ≠ .firing) (a : Arm) :
    (x.turned a).sound := by
  have hseq : x.sequence ≠ .noWeb := fun e => hweb (h.1.1 e)
  have hpulse := h.quiet hs
  exact .of_rest hseq (by simp [Position.turned]) ⟨rfl, rfl⟩ hpulse

/-- The web of a position turned to its other arm (R120): the parts of `State.swap` up to the record of the splice. -/
def State.swapped (s : State) (p : Nat) (a : Arm) (new : Nat) : State :=
  ((((s.makeButt p a (s.pos p).gauge.diameter).onReel new fun y => { y with state := .running }).onPos p
    fun y => y.turned (otherArm a)).startGauge p new).onPos p Position.spliced

theorem State.swap_eq {p old new : Nat} {a : Arm} (b : SettledBy) (ha : (s.pos p).running = some a)
    (hold : (s.pos p).arm a = some old) (hnew : (s.pos p).arm (otherArm a) = some new) :
    ∃ c, s.swap p b = (((s.swapped p a new).spliceCounted p old new b).raise c).judgeLate p 1 := by
  unfold State.swap
  simp only [ha, hold, hnew]
  exact ⟨_, rfl⟩

theorem State.swap_of_missing {p : Nat} (b : SettledBy)
    (h : ∀ a old new, (s.pos p).running = some a → (s.pos p).arm a = some old → (s.pos p).arm (otherArm a) = some new → False) :
    s.swap p b = s := by
  unfold State.swap
  dsimp only
  repeat' split
  · rfl
  · exact (h _ _ _ ‹_› ‹_› ‹_›).elim
  · rfl

namespace State.Keeps

/-- The web turned to its other arm, where one runs and no pulse can be on. -/
theorem turned (h : s₀.Keeps s) {p : Nat} (a : Arm) (new : Nat) (hweb : (s.pos p).running ≠ none) (hs : (s.pos p).sequence ≠ .firing) :
    s₀.Keeps (((s.onPos p fun y => y.turned a).startGauge p new).onPos p Position.spliced) := by
  obtain ⟨houtputs, hsequence, hrunning⟩ := State.startGauge_pos (s.onPos p fun y => y.turned a) p new
  rw [State.onPos_pos_same] at houtputs hsequence hrunning
  have hturned := h.onPos (p := p) (f := fun y => y.turned a) fun hx => hx.turned hweb hs a
  refine (hturned.startGauge p new).onPos fun hx => .of_rest Sequence.noConfusion ?_ ?_ (hx.quiet (hsequence ▸ hs))
  · exact hrunning ▸ Option.some_ne_none a
  · exact houtputs ▸ ⟨rfl, rfl⟩

theorem swapped (h : s₀.Keeps s) {p : Nat} {a : Arm} (new : Nat) (hp : 1 ≤ p ∧ p ≤ 8) (ha : (s.pos p).running = some a)
    (hs : (s.pos p).sequence ≠ .firing) : s₀.Keeps (s.swapped p a new) := by
  have hcalm := s.makeButt_calm p a (s.pos p).gauge.diameter p
  refine ((h.makeButt a _ hp).onReel new _).turned _ new ?_ ?_ <;> rw [State.pos_of_positions (State.onReel_positions _ _ _)]
  · simp [hcalm.running, ha]
  · rcases hcalm.sequence with e | ⟨-, -, e⟩ <;> simp [e, hs]

theorem swap (h : s₀.Keeps s) {p : Nat} (b : SettledBy) (hp : 1 ≤ p ∧ p ≤ 8) (hs : (s.pos p).sequence ≠ .firing) :
    s₀.Keeps (s.swap p b) := by
  by_cases hfound : ∃ a old new, (s.pos p).running = some a ∧ (s.pos p).arm a = some old ∧ (s.pos p).arm (otherArm a) = some new
  · obtain ⟨a, old, new, ha, hold, hnew⟩ := hfound
    obtain ⟨c, hc⟩ := State.swap_eq b ha hold hnew
    rw [hc]
    exact (((h.swapped new hp ha hs).spliceCounted p old new b).raise c).judgeLate p 1
  · rw [State.swap_of_missing b fun a old new ha hold hnew => hfound ⟨a, old, new, ha, hold, hnew⟩]
    exact h

theorem enterFailed (h : s₀.Keeps s) (p : Nat) (c : FailureCause) (hs : (s.pos p).sequence ≠ .noWeb) : s₀.Keeps (s.enterFailed p c) :=
  (h.setPos fun hx => hx.failed hs c).raise _

/-- The pulses of a firing have both ended. -/
theorem enterConfirm (h : s₀.Keeps s) {p : Nat} (hp : 1 ≤ p ∧ p ≤ 8) (hs : (s.pos p).sequence = .firing)
    (hpaste : (s.pos p).splice.pasteMs = none) (hcut : (s.pos p).splice.cutMs = none) : s₀.Keeps (s.enterConfirm p) := by
  have hentered := h.setPos fun hx => hx.confirming hs hpaste hcut
  exact .ite (fun _ => hentered.swap _ hp (by simp)) fun _ => hentered

end State.Keeps
end Sys2Proof.Machine
end

section
/-!
PROOF. The invariants of every step (O57 to O60), the events of positions, inputs and samples, and the transmitters.
-/

namespace Sys2Proof.Machine

variable {s₀ s t : State}

/-! ### The tests of a window keep the lists -/

theorem State.listed.answerCallOff (h : s.listed) (p : Nat) (d : Demand) (hp : 1 ≤ p ∧ p ≤ 8) : (s.answerCallOff p d).listed := by
  unfold State.answerCallOff
  split
  · exact (h.reserve _ p).deliverOrBacklog p _ hp.1 hp.2
  · exact h.joinQueue p d hp.1 hp.2

theorem State.listed.raiseCallOff (h : s.listed) (p : Nat) (d : Demand) (hp : 1 ≤ p ∧ p ≤ 8) : (s.raiseCallOff p d).listed := by
  unfold State.raiseCallOff
  dsimp only
  split
  · exact ((h.clearUrgency p).answerCallOff p d hp).raise _
  · exact ((h.clearUrgency p).setCallOff p _ _).raise _

theorem State.listed.testCallOff (h : s.listed) (p : Nat) (hp : 1 ≤ p ∧ p ≤ 8) : (s.testCallOff p).listed := by
  unfold State.testCallOff
  repeat' split
  · exact h.raiseCallOff p _ hp
  · exact h
  · exact h

theorem State.listed.testUrgency (h : s.listed) (p : Nat) : (s.testUrgency p).listed := by
  unfold State.testUrgency
  dsimp only
  repeat' split
  · exact ((h.onPos p _).raiseUrgency p).raise _
  · exact (h.onPos p _).raise _
  · exact h

/-! ### The frame a transmitter takes -/

theorem takeSendable_sublist {e : Bool} {q rest : List VehicleFrame} {f : VehicleFrame} (h : takeSendable e q = some (f, rest)) :
    rest.Sublist q := by
  induction q generalizing rest with
  | nil => cases h
  | cons g gs ih =>
    unfold takeSendable at h
    repeat' split at h
    all_goals cases h
    · exact (ih ‹_›).cons_cons g
    · exact List.sublist_cons_self _ _

/-! ### The events of a position -/

/-- The position or line of an input is one the part has. -/
theorem positionOk_iff {p : Nat} : positionOk p = true ↔ 1 ≤ p ∧ p ≤ 8 := by simp [positionOk]

namespace State.Keeps

theorem countWeb (h : s₀.Keeps s) (p : Nat) : s₀.Keeps (s.countWeb p) := by
  have hcounted : s₀.Keeps (s.setPos p (s.pos p).gaugeCount.spliceCount) :=
    h.setPos fun hx => (hx.congr rfl rfl rfl rfl : (s.pos p).gaugeCount.sound).spliceCount
  refine (judgeLate (.ite (fun hrun => hcounted.enterFailed p _ ?_) fun _ => hcounted) p _).settle p
  simp only [Position.windowRunOut, Bool.and_eq_true, decide_eq_true_eq] at hrun
  exact hrun.1 ▸ Sequence.noConfusion

theorem markTaken (h : s₀.Keeps s) (p : Nat) : s₀.Keeps (s.markTaken p) := by
  unfold State.markTaken
  dsimp only
  split
  · rename_i e _ _
    have hsample := h.setPos (p := p)
      (x := { (s.pos p).sample e (measured (s.pos p).gauge.deltaL) with gauge :=
        { ((s.pos p).sample e (measured (s.pos p).gauge.deltaL)).gauge with deltaL := 0 } }) fun hx => by
        rw [Position.sample_eq]
        exact hx.congr rfl rfl rfl rfl
    exact .ite (fun _ => h.setPos fun hx => hx.congr rfl rfl rfl rfl) fun _ => .ite (fun _ => hsample.raise _) fun _ => hsample
  · exact h

theorem markEvent (h : s₀.Keeps s) (p : Nat) : s₀.Keeps (s.markEvent p) := ((h.markTaken p).judgeLate p _).settle p

theorem closeWindow (h : s₀.Keeps s) {p : Nat} (n : Nat) (hp : 1 ≤ p ∧ p ≤ 8) : s₀.Keeps (s.closeWindow p n) :=
  (((h.onPos fun hx => hx.congr rfl rfl rfl rfl).moves (.testCallOff .refl p) (·.testCallOff p hp)).moves (.testUrgency .refl p)
    (·.testUrgency p)).onPos fun hx => hx.matchTest

theorem holdMatched (h : s₀.Keeps s) (p : Nat) : s₀.Keeps (s.holdMatched p) :=
  .ite (fun hc => (h.setPos fun hx => hx.matched hc.1).settle p) fun _ => h

theorem endPaste (h : s₀.Keeps s) {p : Nat} (hp : 1 ≤ p ∧ p ≤ 8) : s₀.Keeps (s.endPaste p) := by
  refine .ite (fun hc => ?_) fun _ => h
  have hended := h.setPos (p := p) (x := { s.pos p with
      outputs := { (s.pos p).outputs with paste := false }, splice := { (s.pos p).splice with pasteMs := none } }) fun hx => by
    simp_all [Position.sound_iff]
  exact .ite (fun hcut => hended.enterConfirm hp (by simp [hc.1]) (by simp) (by simp [hcut.2])) fun _ => hended

theorem endCut (h : s₀.Keeps s) {p : Nat} (hp : 1 ≤ p ∧ p ≤ 8) : s₀.Keeps (s.endCut p) := by
  refine .ite (fun hc => ?_) fun _ => h
  have hended := h.setPos (p := p) (x := { s.pos p with
      outputs := { (s.pos p).outputs with cut := false }, splice := { (s.pos p).splice with cutMs := none } }) fun hx => by
    simp_all [Position.sound_iff]
  exact .ite (fun hpaste => hended.enterConfirm hp (by simp [hc.1]) (by simp [hpaste]) (by simp)) fun _ => hended

theorem failFiring (h : s₀.Keeps s) (p : Nat) : s₀.Keeps (s.failFiring p) :=
  .ite (fun hc => h.enterFailed p _ (by simp [hc.1])) fun _ => h

theorem failConfirm (h : s₀.Keeps s) (p : Nat) : s₀.Keeps (s.failConfirm p) :=
  .ite (fun hc => h.enterFailed p _ (by simp [hc])) fun _ => h

theorem confirmed (h : s₀.Keeps s) {p : Nat} (hp : 1 ≤ p ∧ p ≤ 8) : s₀.Keeps (s.confirmed p) := by
  unfold State.confirmed
  dsimp only
  split
  · exact h.setPos fun hx => by simpa [Position.sound_iff] using hx
  · rename_i hs
    exact h.swap _ hp (by simp [hs])
  · exact h

/-! ### The field inputs -/

theorem setFilter (h : s₀.Keeps s) (i : FieldInput) (f : Filter) : s₀.Keeps (s.setFilter i f) := by
  cases i with
  | revolutionMark p => exact h.onPos (f := fun x => { x with mark := f }) fun hx => hx.congr rfl rfl rfl rfl
  | spliceConfirm p => exact h.onPos (f := fun x => { x with confirm := f }) fun hx => hx.congr rfl rfl rfl rfl
  | emergencyStop => exact h.same rfl
  | copy l => exact h.onLine (f := fun x => { x with copy := f }) rfl
  | divert l => exact h.onLine (f := fun x => { x with divert := f }) rfl
  | pressRunning l => exact h.onLine (f := fun x => { x with press := f }) rfl

theorem pressStarts (h : s₀.Keeps s) (l : Nat) : s₀.Keeps (s.pressStarts l) := (h.openStart l).forEach _ fun _ _ _ h => h.settle _

theorem pressStops (h : s₀.Keeps s) (l : Nat) : s₀.Keeps (s.pressStops l) :=
  h.forEach _ fun _ _ _ h => h.onPos fun hx => hx.stopped

theorem estopStarts (h : s₀.Keeps s) : s₀.Keeps s.estopStarts := by
  have hvehicles := (h.moves (.queueHaltAll .refl) (·.queueHaltAll)).forEach allVehicles (f := fun v s => s.estopVehicle v)
    fun v _ _ h => h.moves (.estopVehicle .refl v) (·.estopVehicle v)
  have hresumes := hvehicles.moves (.withdraw .refl VehicleFrame.isResume) (·.withdraw _)
  have hpositions := hresumes.forEach allPositions (f := fun p s => s.onPos p Position.stopped)
    fun p _ _ h => h.onPos fun hx => hx.stopped
  exact hpositions.raise (.estop true)

theorem estopEnds (h : s₀.Keeps s) : s₀.Keeps s.estopEnds := (h.raise _).forEach _ fun _ _ _ h => h.settle _

theorem blockTakes (h : s₀.Keeps s) (i : FieldInput) (b : Bool) (hi : inputExists i = true) : s₀.Keeps (s.blockTakes i b) := by
  unfold State.blockTakes
  split
  · exact h.countCopy _
  · exact h.pressStarts _
  · exact h.pressStops _
  · exact h.markEvent _
  · exact (h.confirmed (positionOk_iff.1 hi)).close _ _
  · exact h.estopStarts.close _ _
  · exact h.estopEnds.close _ _
  · exact h

theorem accepted (h : s₀.Keeps s) (i : FieldInput) (b : Bool) : s₀.Keeps (s.accepted i b) :=
  .ite (fun hi => (h.setFilter i _).blockTakes i b hi) fun _ => h

theorem acceptedLevel (h : s₀.Keeps s) (i : FieldInput) (b : Bool) : s₀.Keeps (s.acceptedLevel i b) :=
  .ite (fun _ => h) fun _ => h.accepted i b

theorem sampleInput (h : s₀.Keeps s) (i : FieldInput) (high : Bool) : s₀.Keeps (s.sampleInput i high) :=
  .ite (fun _ => .ite (fun _ => h.accepted i _) fun _ => h.setFilter i _) fun _ => h

/-! ### The Tension Sampler -/

theorem startInterval (h : s₀.Keeps s) : s₀.Keeps s.startInterval := by
  unfold State.startInterval
  split
  · exact h.same rfl
  · exact h

theorem deliverSample (h : s₀.Keeps s) (w n : Nat) : s₀.Keeps (s.deliverSample w n) :=
  .ite (fun _ => h.onWeb (.inr rfl)) fun _ => h

theorem endConversion (h : s₀.Keeps s) (n : Nat) : s₀.Keeps (s.endConversion n) := by
  unfold State.endConversion
  split
  · exact h
  · exact (h.deliverSample _ n).same rfl

/-! ### The transmitters -/

theorem startLineFrame (h : s₀.Keeps s) : s₀.Keeps s.startLineFrame := by
  unfold State.startLineFrame
  split
  · rename_i hq
    exact h.setLink id (by simp [hq]; omega) le_rfl
  · rename_i hq
    exact h.setLink id id (by simp [hq])
  · rename_i hq
    rename_i n ns _ _
    exact (h.setLink (k := { s.link with tx := some (n.frame s.notices.overflow) }) id id le_rfl).setNotices
      (q := { s.notices with queue := ns }) (by simp [hq]) id
  · exact h.same rfl

theorem startVehicleFrame (h : s₀.Keeps s) : s₀.Keeps s.startVehicleFrame := by
  unfold State.startVehicleFrame
  split
  · rename_i f rest hq
    refine (h.same (t := { s with vlink := { s.vlink with tx := some ⟨f, f.bytes⟩ } }) rfl).dropFrames ?_
    exact takeSendable_sublist hq
  · exact h.same rfl

theorem transmit (h : s₀.Keeps s) : s₀.Keeps s.transmit := by
  have hline : s₀.Keeps (if s.link.tx.isSome then s else s.startLineFrame) := .ite (fun _ => h) fun _ => h.startLineFrame
  exact .ite (fun _ => hline) fun _ => hline.startVehicleFrame

end State.Keeps
end Sys2Proof.Machine
end

section
/-!
PROOF. The invariants of every step (O57 to O60), the resets and the passing of time: power-on, pin reset, RESTART, COMMIT and a millisecond
keep the invariants.
-/

namespace Sys2Proof.Machine

variable {s₀ s t : State}

/-! ### Lists and positions after a reset -/

theorem framesFit_reset : FramesFit resetFrames [] := by
  constructor <;> simp [resetFrames, VehicleFrame.slot, VehicleFrame.vehicle, VehicleFrame.isHalt]

theorem framesFit_nil : FramesFit [] [] := by constructor <;> simp

theorem demandsFit_nil : DemandsFit [] := by constructor <;> simp

theorem backlogFits_nil : BacklogFits [] := by constructor <;> simp

/-- Nothing is listed but at most the HALT-ALL of a reset (R80). -/
theorem State.listed_of_empty (hf : FramesFit s.vlink.queue s.vlink.waiting) (hd : s.demands = []) (hb : s.orders.backlog = [])
    (ho : s.orders.table = Table.empty) : s.listed where
  frames := hf
  demands := hd ▸ demandsFit_nil
  backlog := hb ▸ backlogFits_nil
  orders t o h := by simp [State.order, ho, Table.empty, Table.find, Table.findIn] at h

theorem Position.sound_reset : Position.reset.sound := .restarted Position.reset

/-- Every position changed by a function that keeps it sound. -/
theorem State.sound_of_mapEntries {f : Nat → Position → Position} (ht : t.positions = s.positions.mapEntries f) (hs : s.sound)
    (hf : ∀ p x, x.sound → (f p x).sound) : t.sound := by
  intro p
  have hp := hs p
  unfold State.pos at hp ⊢
  rw [ht, Table.find_mapEntries]
  cases h : s.positions.find p with
  | none => exact Position.sound_reset
  | some x =>
    rw [h] at hp
    exact hf p x hp

/-- A line whose run is as after reset, and whose webs have no splice link, balances. -/
theorem State.balanced_of_reset (hrun : ∀ l ∈ [1, 2], (s.line l).run = Run.reset)
    (hlink : ∀ l ∈ [1, 2], ∀ w ∈ positionsOfLine l, (s.web w).link = none) : s.balanced := by
  intro l hl
  refine ⟨hrun l hl ▸ Run.balanced.reset, fun w hw r hr => ?_⟩
  rw [hlink l hl w hw] at hr
  cases hr

theorem State.resetAt_webs (r : LinkRate) : ∀ l ∈ [1, 2], ∀ w ∈ positionsOfLine l, ((State.resetAt r).web w).link = none := by
  have h : ∀ w, (State.resetAt r).web w = State.reset.web w := fun _ => rfl
  simp only [h]
  decide

/-! ### The two resets and power-on -/

theorem State.resetAt_sound (r : LinkRate) : (State.resetAt r).sound := by
  intro p
  have h : ∀ (es : List (Nat × Position)), (∀ e ∈ es, e.2 = Position.reset) → ((Table.findIn p es).getD Position.reset).sound := by
    intro es
    induction es with
    | nil => exact fun _ => Position.sound_reset
    | cons e es ih =>
      intro he
      unfold Table.findIn
      split
      · exact he e List.mem_cons_self ▸ Position.sound_reset
      · exact ih fun e' h' => he e' (List.mem_cons_of_mem _ h')
  exact h _ (by simp [State.resetAt])

theorem State.resetAt_canonical (r : LinkRate) : (State.resetAt r).canonical = true ∧ (State.resetAt r).bounded = true := by
  cases r <;> decide

namespace State.Keeps

theorem pinReset (s : State) (r : LinkRate) : s.Keeps (s.pinReset r) where
  canonical _ := (State.resetAt_canonical r).1
  bounded _ _ := (State.resetAt_canonical r).2
  listed _ := State.listed_of_empty framesFit_reset rfl rfl rfl
  sound _ := State.resetAt_sound r
  balanced _ := State.balanced_of_reset (fun l _ => congrArg Line.run (State.pinReset_line s r l)) (State.resetAt_webs r)
  replies := Nat.zero_le _

theorem restarted (s : State) : s.Keeps s.restarted where
  canonical hc := by
    have hreset : State.reset.reels.wf = true ∧ State.reset.orders.table.wf = true ∧ State.reset.vehicles.wf = true ∧
        State.reset.locks.wf = true ∧ State.reset.webs.wf = true := by decide
    rw [State.canonical_iff] at hc ⊢
    simp only [State.restarted]
    simp_all [Table.wf_mapEntries]
  bounded _ hb := by
    rw [State.bounded_iff] at hb ⊢
    simp_all [State.restarted, State.reset, State.orderCount, Table.count, Table.empty, State.resetAt]
  listed _ := State.listed_of_empty framesFit_reset rfl rfl rfl
  sound hs := State.sound_of_mapEntries rfl hs fun _ x _ => .restarted x
  balanced _ := State.balanced_of_reset (fun l _ => congrArg Line.run (State.restarted_line s l)) (State.resetAt_webs .baud115200)
  replies := le_rfl

theorem reqRestart (s : State) : s.Keeps s.reqRestart.1 := by
  unfold State.reqRestart
  split
  · exact .refl s
  · exact .restarted s

/-- A position as COMMIT leaves it (R177). -/
theorem committed (s : State) : s.Keeps s.committed where
  canonical hc := by
    rw [State.canonical_iff] at hc ⊢
    simp only [State.committed]
    simp_all [Table.wf_mapEntries]
  bounded _ hb := hb
  listed hl := hl.of_same rfl rfl rfl rfl
  sound hs := by
    refine State.sound_of_mapEntries (f := fun _ x =>
      if x.enabled then { x.restarted with mark := x.mark, confirm := x.confirm, gauge := x.gauge.noWeb } else x) rfl hs fun _ x hx => ?_
    split
    · exact (Position.sound.restarted x).congr rfl rfl rfl rfl
    · exact hx
  balanced hb := hb.of_same rfl rfl
  replies := le_rfl

/-- A millisecond only counts (log 1). -/
theorem millisecond (s : State) : s.Keeps s.millisecond where
  canonical hc := by
    rw [State.canonical_iff] at hc ⊢
    simp only [State.millisecond]
    simp_all [Table.wf_mapEntries]
  bounded _ hb := hb
  listed hl := hl.of_same rfl rfl rfl rfl
  sound hs := State.sound_of_mapEntries rfl hs fun _ _ hx => hx.aged
  balanced hb l hl := by
    refine ⟨(hb l hl).1, fun w hw r hr => (hb l hl).2 w hw r ?_⟩
    unfold State.web State.millisecond at hr
    rw [Table.find_mapEntries] at hr
    unfold State.web
    cases h : s.webs.find w with
    | none => simpa [h] using hr
    | some x =>
      rw [h] at hr
      simp only [Option.map_some, Option.getD_some, Web.aged] at hr
      split at hr <;> exact hr
  replies := le_rfl

end State.Keeps

/-- Settles O60: each invariant is read off the reset values. -/
theorem resetMeetsTheInvariants : Obligations.ResetMeetsTheInvariants := by
  unfold Obligations.ResetMeetsTheInvariants
  refine ⟨by decide, by decide, State.resetAt_sound .baud115200, State.balanced_of_reset (by decide) (State.resetAt_webs .baud115200),
    State.listed_of_empty framesFit_nil rfl rfl rfl, ⟨?_, ?_⟩, rfl⟩
  · exact fun _ => ⟨rfl, rfl, rfl⟩
  · intro h
    cases h

end Sys2Proof.Machine
end

section
/-!
PROOF. The invariants of every step (O57 to O60), the requests: the part that each request's answer leaves keeps the invariants.
-/

namespace Sys2Proof.Machine

variable {s₀ s t : State}

theorem vehicleOk_iff {v : Nat} : vehicleOk v = true ↔ 1 ≤ v ∧ v ≤ 12 := by simp [vehicleOk]

theorem State.ordersFull_of_orders (h : t.orders = s.orders) : t.ordersFull = s.ordersFull := by
  unfold State.ordersFull State.orderCount
  rw [h]

namespace State.Keeps

/-! ### The answers -/

theorem refused (s : State) (c : Status) : s.Keeps (s.refuse c).1 := refl s

theorem granted (h : s.Keeps t) (data : Bytes) : s.Keeps (t.grant data).1 := h

/-! ### The clock and the floor plan -/

theorem judgeHolds (h : s₀.Keeps s) : s₀.Keeps s.judgeHolds := h.moves (.judgeHolds .refl) (·.judgeHolds)

theorem reqStatus (s : State) : s.Keeps s.reqStatus.1 := (refl s).setNotices (q := { s.notices with overflow := false }) le_rfl id

theorem reqSetclock (s : State) (v : Nat) : s.Keeps (s.reqSetclock v).1 :=
  ((refl s).same (t := { s with clock := ⟨v, 0⟩ }) rfl).rewatch.judgeHolds.close s false

theorem reqDefnode (s : State) (n z k : Nat) : s.Keeps (s.reqDefnode n z k).1 := by
  unfold State.reqDefnode
  split
  · exact (refl s).setNodes (Table.wf_insert _ _ _)
  · exact refl s

theorem reqDefbay (s : State) (b n k : Nat) : s.Keeps (s.reqDefbay b n k).1 := by
  unfold State.reqDefbay
  split
  · exact (refl s).setBay b _
  · exact refl s

/-- A route is put where the table has room or the pair has one already (R175). -/
theorem putRoute (s : State) (a b len : Nat) (zs : List Nat)
    (hroom : ¬(len ≠ 0 ∧ (s.route a b).isNone = true ∧ 1024 ≤ s.routes.count)) : s.Keeps (s.putRoute a b len zs) := by
  unfold State.putRoute
  split
  · exact (refl s).setRoutes (Table.wf_erase _ _) fun _ h => (Table.count_erase_le _ _).trans h
  rename_i hlen
  refine (refl s).setRoutes (Table.wf_insert _ _ _) fun hw h => ?_
  by_cases hknown : (s.routes.find (routeKey a b)).isSome = true
  · exact (Table.count_insert_of_find _ _ hw hknown).trans_le h
  · have hlt : s.routes.count < 1024 := Nat.not_le.1 fun hfull => hroom ⟨hlen, by simpa [State.route] using hknown, hfull⟩
    exact (Table.count_insert_le _ _ _).trans hlt

theorem reqDefroute (s : State) (a b len : Nat) (zs : List Nat) : s.Keeps (s.reqDefroute a b len zs).1 := by
  unfold State.reqDefroute
  repeat' split
  · exact refl s
  · exact refl s
  · exact refl s
  · exact refl s
  · exact putRoute s a b len zs ‹_›

theorem reqDefpos (s : State) (p n e : Nat) : s.Keeps (s.reqDefpos p n e).1 := by
  unfold State.reqDefpos
  repeat' split
  · exact refl s
  · exact refl s
  · exact (refl s).onPos (f := fun x => x.placed n (decide (e = 1))) fun hx => hx.congr rfl rfl rfl rfl

theorem reqCommit (s : State) : s.Keeps s.reqCommit.1 := by
  unfold State.reqCommit
  split
  · exact refl s
  · exact committed s

/-! ### The store -/

/-- An order made in a list with room. -/
theorem createOrder (h : s₀.Keeps s) (n : NewOrder) (hroom : s.ordersFull = false) (hv : ∀ v, n.vehicle = some v → 1 ≤ v ∧ v ≤ 12) :
    s₀.Keeps (s.createOrder n) := h.moves (.createOrder .refl n hroom) (·.createOrder n hv)

theorem takeIn (s : State) (d : ReelData) (n b : Nat) (hreels : ¬((s.reel d.id).isNone = true ∧ 512 ≤ s.reels.count))
    (hroom : s.ordersFull = false) : s.Keeps (s.takeIn d (s.reel d.id) n b) := by
  unfold State.takeIn
  cases hknown : s.reel d.id with
  | some x => exact (refl s).createOrder _ hroom (by simp)
  | none =>
    have hlt : s.reels.count < 512 := Nat.not_le.1 fun hfull => hreels ⟨by simp [hknown], hfull⟩
    exact ((refl s).newReel d.id _ hlt).createOrder _ hroom (by simp)

theorem reqIntake (s : State) (d : ReelData) (n b : Nat) : s.Keeps (s.reqIntake d n b).1 := by
  unfold State.reqIntake
  dsimp only
  repeat' split
  all_goals try with_reducible exact refused s _
  rename_i hreels hroom _ _ _
  exact granted ((takeIn s d _ _ hreels (Bool.eq_false_iff.2 hroom)).close s false) _

theorem reqRestock (s : State) (d : ReelData) (o a b l : Nat) : s.Keeps (s.reqRestock d o a b l).1 := by
  unfold State.reqRestock
  repeat' split
  all_goals try with_reducible exact refused s _
  rename_i hlt _
  exact granted (((((refl s).newReel d.id _ (Nat.not_le.1 hlt)).setBay b _).rewatch).close s false) _

theorem removeReel (h : s₀.Keeps s) (r : Nat) (x : Reel) : s₀.Keeps (s.removeReel r x) := by
  unfold State.removeReel
  dsimp only
  split
  · exact ((h.leaveBay _ r).delReel r).rewatch
  · exact (h.delReel r).rewatch

theorem reqRemove (s : State) (r : Nat) : s.Keeps (s.reqRemove r).1 := by
  unfold State.reqRemove
  repeat' split
  all_goals try with_reducible exact refused s _
  exact granted (((refl s).removeReel r _).close s false) _

theorem reqResttime (s : State) (g m : Nat) : s.Keeps (s.reqResttime g m).1 := by
  unfold State.reqResttime
  split
  · exact (refl s).setMinutes (Table.wf_insert _ _ _)
  · exact refl s

/-! ### Orders -/

theorem clearUrgency (h : s₀.Keeps s) (p : Nat) : s₀.Keeps (s.clearUrgency p) := h.moves (.clearUrgency .refl p) (·.clearUrgency p)

theorem reserve (h : s₀.Keeps s) (r p : Nat) : s₀.Keeps (s.reserve r p) := h.moves (.reserve .refl r p) (·.reserve r p)

theorem deliverNow (h : s₀.Keeps s) (p r : Nat) (q : Priority) (hroom : s.ordersFull = false) : s₀.Keeps (s.deliverNow p r q).1 := by
  have hmade : ∀ u : State, s₀.Keeps u → u.ordersFull = false → s₀.Keeps (((u.dropDelivery p).makeDeliver p r q).close s false) :=
    fun u hu hfull => ((hu.moves (.dropDelivery .refl p) (·.dropDelivery p)).moves (.makeDeliver .refl p r q hfull)
      (·.makeDeliver p r q)).close s false
  refine hmade _ (.ite (fun _ => h.clearUrgency p) fun _ => h) ?_
  split
  · exact hroom
  · exact hroom

theorem deliverQueued (s : State) (p : Nat) (d : Demand) (hp : 1 ≤ p ∧ p ≤ 8) : s.Keeps (s.deliverQueued p d).1 := by
  refine .ite (fun _ => refl s) fun _ => ?_
  have hcleared : s.Keeps (if (s.pos p).callOff.state = .none then s.clearUrgency p else s) :=
    .ite (fun _ => (refl s).clearUrgency p) fun _ => refl s
  exact hcleared.moves (.joinQueue .refl p d) (·.joinQueue p d hp.1 hp.2)

theorem reqDeliver (s : State) (p r q : Nat) : s.Keeps (s.reqDeliver p r q).1 := by
  unfold State.reqDeliver
  repeat' split
  all_goals try with_reducible exact refused s _
  · exact (refl s).deliverNow p _ _ (Bool.eq_false_iff.2 ‹_›)
  · refine ((refl s).reserve _ p).deliverNow p _ _ ?_
    rw [State.ordersFull_of_orders (s := s) (by simp [State.reserve])]
    exact Bool.eq_false_iff.2 ‹_›
  · rename_i hrange _ _ _ _ _
    exact deliverQueued s p _ (positionOk_iff.1 (by simp_all))

theorem reqRelocate (s : State) (r b q : Nat) : s.Keeps (s.reqRelocate r b q).1 := by
  unfold State.reqRelocate
  repeat' split
  all_goals try with_reducible exact refused s _
  exact granted (((refl s).createOrder _ (Bool.eq_false_iff.2 ‹_›) (by simp)).close s false) _

theorem reqReturn (s : State) (p a b q : Nat) : s.Keeps (s.reqReturn p a b q).1 := by
  unfold State.reqReturn
  repeat' split
  all_goals try with_reducible exact refused s _
  rename_i hroom _ _ _
  exact granted ((((refl s).moves (.dropDisposal .refl p _) (·.dropDisposal p _)).moves
    (.makeReturn .refl p _ _ _ _ (Bool.eq_false_iff.2 hroom)) (·.makeReturn p _ _ _ _)).close s false) _

theorem reqClear (s : State) (p a q : Nat) : s.Keeps (s.reqClear p a q).1 := by
  unfold State.reqClear
  repeat' split
  all_goals try with_reducible exact refused s _
  rename_i hroom _ _ _
  exact granted ((((refl s).moves (.dropDisposal .refl p _) (·.dropDisposal p _)).moves
    (.makeClear .refl p _ _ _ _ (Bool.eq_false_iff.2 hroom)) (·.makeClear p _ _ _ _)).close s false) _

theorem reqPark (s : State) (v n q : Nat) : s.Keeps (s.reqPark v n q).1 := by
  unfold State.reqPark
  repeat' split
  all_goals try with_reducible exact refused s _
  rename_i hrange _ _ hroom
  refine granted (((refl s).createOrder _ (Bool.eq_false_iff.2 hroom) fun w hw => ?_).close s false) _
  obtain rfl := Option.some.inj hw
  exact vehicleOk_iff.1 (by simp_all)

theorem cancelEvent (s : State) {t : Nat} {o : Order} (ho : s.order t = some o) : s.Keeps (s.cancelEvent t o).1 :=
  ((refl s).moves (.cancelOrder .refl o (by simp [ho])) fun h => h.cancelOrder o (h.orders t o ho)).close s _

theorem reqCancel (s : State) (t : Nat) : s.Keeps (s.reqCancel t).1 := by
  unfold State.reqCancel
  repeat' split
  all_goals try with_reducible exact refused s _
  exact cancelEvent s ‹_›

/-- The order asks for its leg, its reason cleared (R61). -/
theorem askAgain (h : s₀.Keeps s) {t : Nat} {o : Order} (ho : s.order t = some o) :
    s₀.Keeps ((s.setOrder t { o with reason := none }).requestLeg t) :=
  (h.moves (.setOrder .refl _ (by rw [ho]; rfl)) fun h => h.setOrder { o with reason := none } (h.orders t o ho)).moves
    (.requestLeg .refl t) (·.requestLeg t)

theorem retryLeg (s : State) {t : Nat} {o : Order} (ho : s.order t = some o) (v : Nat) : s.Keeps (s.retryLeg t o v) := by
  unfold State.retryLeg
  dsimp only
  split
  · exact ((refl s).moves (.setLoad .refl v 0 false) (·.setLoad v 0 false)).askAgain ho
  · exact (refl s).askAgain ho

theorem resolveRetry (s : State) {t : Nat} {o : Order} (ho : s.order t = some o) : s.Keeps (s.resolveRetry t o).1 := by
  unfold State.resolveRetry
  repeat' split
  all_goals try with_reducible exact refused s _
  · exact granted (((refl s).moves (.convertTo .refl o _ (by rw [ho]; rfl)) fun h => h.convertTo o _ (h.orders t o ho)).close s false) _
  · exact granted ((retryLeg s ho _).close s false) _

theorem resolveAccept (s : State) (t : Nat) (o : Order) : s.Keeps (s.resolveAccept t o).1 := by
  unfold State.resolveAccept
  split
  · exact granted (((refl s).moves (.completeFetch .refl t _) (·.completeFetch t _)).close s false) _
  · exact refl s

theorem resolveCancel (s : State) {t : Nat} {o : Order} (ho : s.order t = some o) : s.Keeps (s.resolveCancel t o).1 := by
  unfold State.resolveCancel
  split
  · exact refl s
  · exact cancelEvent s ho

theorem reqResolve (s : State) (t a : Nat) : s.Keeps (s.reqResolve t a).1 := by
  unfold State.reqResolve
  repeat' split
  all_goals try with_reducible exact refused s _
  · exact resolveRetry s ‹_›
  · exact resolveAccept s t _
  · exact resolveCancel s ‹_›

end State.Keeps
end Sys2Proof.Machine
end

section
/-!
PROOF. The invariants of every step (O57 to O60), the requests of vehicles, positions and lines.
-/

namespace Sys2Proof.Machine

variable {s₀ s t : State}

theorem mem_allVehicles {v : Nat} : v ∈ allVehicles ↔ 1 ≤ v ∧ v ≤ 12 := by
  simp only [allVehicles, List.mem_cons, List.not_mem_nil, or_false]
  omega

theorem Moves.retireVehicle (h : Moves s₀ s) (v : Nat) : Moves s₀ (s.retireVehicle v) := by
  have hdeleted : ∀ u : State, Moves s₀ u →
      Moves s₀ (if (s.veh v).retiredReel = 0 then u else (u.delReel (s.veh v).retiredReel).rewatch) := by
    intro u hu
    split
    · exact hu
    · exact (hu.delReel _).rewatch
  unfold State.retireVehicle
  exact ((((hdeleted _ ((h.withdrawFor v).whenSome _ fun _ _ h => h.retireOrder _)).raise _).keepZone v none).setVeh v _).queueHalt v

theorem State.listed.retireVehicle (h : s.listed) (v : Nat) (hv : v ≤ 12) : (s.retireVehicle v).listed := by
  have hdeleted : ∀ u : State, u.listed →
      (if (s.veh v).retiredReel = 0 then u else (u.delReel (s.veh v).retiredReel).rewatch).listed := by
    intro u hu
    split
    · exact hu
    · exact (hu.delReel _).rewatch
  unfold State.retireVehicle
  exact ((((hdeleted _ ((h.withdrawFor v).whenSome _ fun _ _ h => h.retireOrder _)).raise _).keepZone v none).setVeh v _).queueHalt v hv

/-- The reading of a position's demand in the queue and the call-off (R36). -/
theorem Moves.demandStore (h : Moves s₀ s) (p : Nat) (d : Option Demand) : Moves s₀ (s.demandStore p d) := by
  unfold State.demandStore
  repeat' split
  · exact h
  · exact h.withdrawCallOff p
  · exact h.step (.demands _)
  · exact h.withdrawCallOff p
  · exact h
  · exact h.setCallOff p _ _

theorem State.listed.demandStore (h : s.listed) (p : Nat) (d : Option Demand) : (s.demandStore p d).listed := by
  unfold State.demandStore
  repeat' split
  · exact h
  · exact h.withdrawCallOff p
  · exact h.setDemands (h.demands.map fun e => by split <;> rfl)
  · exact h.withdrawCallOff p
  · exact h
  · exact h.setCallOff p _ _

theorem Moves.liftButt (h : Moves s₀ s) (p : Nat) (a : Arm) (r : Nat) : Moves s₀ (s.liftButt p a r) := by
  have hlifted : Moves s₀ (((s.delReel r).onPos p fun x => (x.setArm a none).setDisposal a none).dropDisposal p a) :=
    ((h.delReel r).onPos p ((Position.Calm.setArm _ a none).trans (.setDisposal _ a none))).dropDisposal p a
  unfold State.liftButt
  dsimp only
  split
  · exact hlifted.wakeHeldArm p
  · exact hlifted

theorem State.listed.liftButt (h : s.listed) (p : Nat) (a : Arm) (r : Nat) : (s.liftButt p a r).listed := by
  unfold State.liftButt
  dsimp only
  split
  · exact (((h.delReel r).onPos p _).dropDisposal p a).wakeHeldArm p
  · exact ((h.delReel r).onPos p _).dropDisposal p a

theorem State.positionFault_none {p : Nat} (h : s.positionFault p = none) : (1 ≤ p ∧ p ≤ 8) ∧ (s.pos p).enabled = true := by
  unfold State.positionFault at h
  repeat' split at h
  all_goals simp_all [positionOk_iff]

/-- A position whose arm takes a reel by hand: NO_STANDBY becomes STANDBY while the position is WEB (R90, R107). -/
def Position.armTaken (x : Position) (web : Bool) (a : Arm) (r : Nat) : Position :=
  let x := x.setArm a (some r)
  if web ∧ x.sequence = .noStandby then { x with sequence := .standby } else x

theorem Position.Calm.armTaken (x : Position) (a : Arm) (r : Nat) : x.Calm (x.armTaken x.isWeb a r) := by
  unfold Position.armTaken
  dsimp only
  split
  · cases a <;> constructor <;> simp_all [Position.setArm]
  · exact .setArm x a _

theorem State.restingState_rests (s : State) (p : Nat) : s.restingState p ≠ .noWeb ∧ (s.restingState p).driven = false := by
  unfold State.restingState
  split <;> simp [Sequence.driven]

namespace State.Keeps

/-! ### Vehicles -/

theorem reqHalt (s : State) (v : Nat) : s.Keeps (s.reqHalt v).1 := by
  unfold State.reqHalt
  dsimp only
  repeat' split
  all_goals try with_reducible exact refused s _
  · have hstopped := (refl s).forEach allVehicles (f := fun v s => s.stopVehicle v) fun v _ _ h =>
      h.moves (.stopVehicle .refl v) (·.stopVehicle v)
    exact granted ((hstopped.moves (.queueHaltAll .refl) (·.queueHaltAll)).close s false) _
  · have hv := (vehicleOk_iff.1 ‹_›).2
    have hstopped := (refl s).moves (.stopVehicle .refl v) (·.stopVehicle v)
    exact granted ((hstopped.moves (.queueHalt .refl v) (·.queueHalt v hv)).close s false) _

theorem reqResume (s : State) (v : Nat) : s.Keeps (s.reqResume v).1 := by
  unfold State.reqResume
  dsimp only
  repeat' split
  all_goals try with_reducible exact refused s _
  · have hresumed := (refl s).forEach (allVehicles.filter fun v => decide ((s.veh v).state = .stopped))
      (f := fun v s => s.resumeVehicle v) fun v hv _ h =>
      h.moves (.resumeVehicle .refl v) (·.resumeVehicle v (mem_allVehicles.1 (List.mem_of_mem_filter hv)))
    exact granted (hresumed.close s false) _
  · exact granted (((refl s).moves (.resumeVehicle .refl v) (·.resumeVehicle v (by omega))).close s false) _

theorem reqRetire (s : State) (v : Nat) : s.Keeps (s.reqRetire v).1 := by
  unfold State.reqRetire
  repeat' split
  all_goals try with_reducible exact refused s _
  exact granted (((refl s).moves (.retireVehicle .refl v) (·.retireVehicle v (vehicleOk_iff.1 ‹_›).2)).close s false) _

theorem silenceEvent (h : s₀.Keeps s) {v : Nat} (hv : v ≤ 12) : s₀.Keeps (s.silenceEvent v) :=
  h.moves (.silenceEvent .refl v) (·.silenceEvent v hv)

theorem offerEvent (h : s₀.Keeps s) {v : Nat} (hv : v ≤ 12) : s₀.Keeps (s.offerEvent v) :=
  h.moves (.offerEvent .refl v) (·.offerEvent v hv)

theorem judgeOffer (h : s₀.Keeps s) {v : Nat} (hv : v ≤ 12) : s₀.Keeps (s.judgeOffer v) := by
  unfold State.judgeOffer
  repeat' split
  · exact h.offerEvent hv
  · exact h
  · exact h

theorem configureVehicles (s : State) (c : VehicleConfig) : s.Keeps (s.configureVehicles c) := by
  have hsilence := ((refl s).same (t := { s with vconfig := c }) rfl).forEach allVehicles (f := fun v s => s.judgeSilence v)
    fun v hv _ h => .ite (fun _ => h.silenceEvent (mem_allVehicles.1 hv).2) fun _ => h
  have hoffers := hsilence.forEach allVehicles (f := fun v s => s.judgeOffer v) fun v hv _ h => h.judgeOffer (mem_allVehicles.1 hv).2
  exact hoffers.judgeHolds

theorem reqVehcfg (s : State) (o b l z : Nat) : s.Keeps (s.reqVehcfg o b l z).1 :=
  granted ((configureVehicles s _).close s _) _

/-! ### Positions -/

theorem reqPoscfg (s : State) (p : Nat) (q : Params) : s.Keeps (s.reqPoscfg p q).1 := by
  unfold State.reqPoscfg
  dsimp only
  repeat' split
  all_goals try with_reducible exact refused s _
  · exact refl s
  refine granted ((((refl s).setPos fun hx => ?_).judgeLate p _).settle p) _
  unfold Position.configured
  dsimp only
  split
  · exact hx.congr rfl rfl rfl rfl
  · exact hx.congr rfl rfl rfl rfl

theorem reqDemand (s : State) (p g w : Nat) : s.Keeps (s.reqDemand p g w).1 := by
  unfold State.reqDemand
  dsimp only
  repeat' split
  all_goals try with_reducible exact refused s _
  rename_i d _
  have hset := (refl s).onPos (p := p) (f := fun x => { x with demand := d }) fun hx => hx.congr rfl rfl rfl rfl
  exact granted ((hset.moves (.demandStore .refl p d) (·.demandStore p d)).close s false) _

/-- A web started on a position that runs none: its gauge measured, its sequence at rest (R90, R92, R106). -/
theorem startWeb (s : State) (p : Nat) (a : Arm) (r : Nat) (hweb : (s.pos p).isWeb = false) : s.Keeps (s.startWeb p a r) := by
  have hreel := (refl s).onReel r fun y => { y with state := .running }
  have hpos := State.pos_of_positions (State.onReel_positions s r fun y => { y with state := .running }) p
  unfold State.startWeb
  generalize s.onReel r (fun y => { y with state := .running }) = u at hreel hpos ⊢
  have hrunning : (u.pos p).running = none := by simpa [hpos, Position.isWeb] using hweb
  have hstarted : s.Keeps (((u.onPos p fun x => { x with running := some a }).startGauge p r).onPos p fun x =>
      { x with sequence := ((u.onPos p fun x => { x with running := some a }).startGauge p r).restingState p }) := by
    obtain ⟨hq, -⟩ := ((u.onPos p fun x => { x with running := some a }).startGauge p r).restingState_rests p
    generalize ((u.onPos p fun x => { x with running := some a }).startGauge p r).restingState p = q at hq ⊢
    have hrest : ∀ x : Position, (u.pos p).sound → x.outputs = (u.pos p).outputs → x.running ≠ none → x.sequence = q → x.sound :=
      fun x hx houtputs hrun hseq => by
        have hweb : (u.pos p).sequence = .noWeb := hx.1.2 hrunning
        refine .of_rest (hseq ▸ hq) hrun ?_ ?_ <;> rw [houtputs]
        · exact hx.undriven (by simp [hweb, Sequence.driven])
        · exact hx.quiet (by simp [hweb])
    unfold State.startGauge State.onPos
    split
    all_goals
      simp only [State.setPos_setPos, State.pos_setPos_same]
      exact hreel.setPos fun hx => hrest _ hx rfl nofun rfl
  exact ((hstarted.setWeb_link (x := { Web.blank with kind := .steady }) (.inl rfl)).judgeLate p 1).settle p

theorem reqThread (s : State) (p a : Nat) : s.Keeps (s.reqThread p a).1 := by
  unfold State.reqThread
  dsimp only
  repeat' split
  all_goals try with_reducible exact refused s _
  rename_i hrest _ _ _
  exact granted ((startWeb s p _ _ (by simp_all)).close s false) _

theorem placeReel (s : State) (d : ReelData) (p : Nat) (a : Arm) (hroom : s.loadFault d = none) : s.Keeps (s.placeReel d p a) := by
  unfold State.placeReel
  unfold State.loadFault at hroom
  split
  · dsimp only
    split
    · exact (((refl s).leaveBay _ d.id).onReel d.id _).rewatch
    · exact ((refl s).onReel d.id _).rewatch
  · rename_i hnew
    simp only [hnew] at hroom
    exact (refl s).newReel d.id _ (by simpa using hroom)

theorem armTakes (h : s₀.Keeps s) (p : Nat) (a : Arm) (r : Nat) : s₀.Keeps (s.armTakes p a r) := by
  have htaken := h.moves (.onPos .refl p (.armTaken (s.pos p) a r)) (·.onPos p fun x => x.armTaken (s.pos p).isWeb a r)
  exact .ite (fun _ => htaken.moves (.withdrawCallOff .refl p) (·.withdrawCallOff p)) fun _ => htaken

theorem reqLoadreel (s : State) (p a : Nat) (d : ReelData) : s.Keeps (s.reqLoadreel p a d).1 := by
  unfold State.reqLoadreel
  dsimp only
  repeat' split
  all_goals try with_reducible exact refused s _
  all_goals exact granted (((placeReel s d p _ ‹_›).armTakes p _ _).close s false) _

theorem stopWeb (s : State) {p : Nat} (a : Arm) (hp : 1 ≤ p ∧ p ≤ 8) (hs : (s.pos p).sequence ≠ .firing) :
    s.Keeps (s.stopWeb p a) :=
  ((((refl s).onPos fun hx => hx.unloaded hs).setWeb_link (x := Web.blank) (.inl rfl)).moves (.withdrawCallOff .refl p)
    (·.withdrawCallOff p)).makeButt a _ hp

theorem reqUnload (s : State) (p : Nat) : s.Keeps (s.reqUnload p).1 := by
  unfold State.reqUnload
  dsimp only
  repeat' split
  all_goals try with_reducible exact refused s _
  rename_i hfault _ a r hunload
  refine granted ((stopWeb s a (State.positionFault_none hfault).1 fun hs => ?_).close s false) _
  simp [State.unloadable, hs] at hunload

theorem reqButtoff (s : State) (p a : Nat) : s.Keeps (s.reqButtoff p a).1 := by
  unfold State.reqButtoff
  repeat' split
  all_goals try with_reducible exact refused s _
  exact granted (((refl s).moves (.liftButt .refl p _ _) (·.liftButt p _ _)).close s false) _

theorem prepareReel (s : State) (p r : Nat) : s.Keeps (s.prepareReel p r) := by
  have hreel := (refl s).onReel r fun y => { y with state := .prepared }
  refine .ite (fun hc => (hreel.onPos fun hx => ?_).settle p) fun _ => hreel
  simp_all [Position.sound_iff, Sequence.driven]

theorem reqPrepared (s : State) (p a : Nat) : s.Keeps (s.reqPrepared p a).1 := by
  unfold State.reqPrepared
  repeat' split
  all_goals try with_reducible exact refused s _
  exact prepareReel s p _

theorem reqSplicenow (s : State) (p : Nat) : s.Keeps (s.reqSplicenow p).1 := by
  unfold State.reqSplicenow
  dsimp only
  repeat' split
  all_goals try with_reducible exact refused s _
  exact (refl s).setPos fun hx => (hx.armed ‹_›).enterFiring rfl

theorem keepOldWeb (s : State) (p : Nat) (hs : (s.pos p).sequence = .failed) : s.Keeps (s.keepOldWeb p) := by
  refine ((refl s).onPos fun hx => ?_).settle p
  exact .of_rest (s.restingState_rests p).1 (hx.running_ne (by simp [hs])) (hx.undriven (by simp [hs, Sequence.driven]))
    (hx.quiet (by simp [hs]))

theorem fixSwap (s : State) {p : Nat} (hp : 1 ≤ p ∧ p ≤ 8) (hs : (s.pos p).sequence = .failed) : s.Keeps (s.fixSwap p) :=
  ((refl s).onPos (f := fun x => { x with splice := { x.splice with cause := none } }) fun hx => by
    simpa [Position.sound_iff] using hx).swap _ hp (by simp [hs])

theorem reqSplicefix (s : State) (p a : Nat) : s.Keeps (s.reqSplicefix p a).1 := by
  unfold State.reqSplicefix
  dsimp only
  repeat' split
  all_goals try with_reducible exact refused s _
  · exact granted (keepOldWeb s p (by simp_all)) _
  · exact granted ((fixSwap s (State.positionFault_none ‹_›).1 (by simp_all)).close s false) _

/-! ### Lines -/

theorem reqLinecfg (s : State) (l a b : Nat) : s.Keeps (s.reqLinecfg l a b).1 := by
  unfold State.reqLinecfg
  dsimp only
  split
  · exact (refl s).onLine (f := fun x => { x with steady := min a 31, filterCount := clampTo 2 8 b }) rfl
  · exact refl s

theorem writeSlot (s : State) (k : Nat) (e : Option Envelope) : s.Keeps (s.writeSlot k e) := by
  unfold State.writeSlot
  split
  · exact refl s
  have hset : s.Keeps (s.setSlot k e) := by
    cases e with
    | none => exact (refl s).setSlots (Table.wf_erase _ _)
    | some e => exact (refl s).setSlots (Table.wf_insert _ _ _)
  exact (hset.onLine (f := fun x => x.deselect k) rfl).onLine (f := fun x => x.deselect k) rfl

theorem reqEnvset (s : State) (k a : Nat) (cs ls : List Nat) (o : Int) : s.Keeps (s.reqEnvset k a cs ls o).1 := by
  unfold State.reqEnvset
  repeat' split
  all_goals try with_reducible exact refused s _
  all_goals exact granted (writeSlot s k _) _

theorem reqEnvsel (s : State) (l a sa b sb : Nat) : s.Keeps (s.reqEnvsel l a sa b sb).1 := by
  unfold State.reqEnvsel
  repeat' split
  all_goals try with_reducible exact refused s _
  exact (refl s).onLine (f := fun x => { x with startSlot := a, spliceSlot := b }) rfl

theorem runStarted (s : State) (l n g : Nat) : s.Keeps (s.runStarted l n g) := by
  have hunlinked := (refl s).forEach (positionsOfLine l) (f := fun w t => t.onWeb w Web.unlinked) fun w _ _ h => h.onWeb (.inl rfl)
  refine hunlinked.setLine (x := { s.line l with run := .opened n g s.clock.seconds }) fun _ _ => ⟨.opened n g _, fun w hw r hr => ?_⟩
  have hnone : ((s.unlinked l).web w).link = none := by rw [(s.websChanged_unlinked l).inside w hw]; rfl
  exact absurd (hnone.symm.trans hr) nofun

theorem reqRunstart (s : State) (l n g : Nat) : s.Keeps (s.reqRunstart l n g).1 := by
  rw [show s.reqRunstart l n g = s.perform (.runstart l n g) from rfl, State.perform_runstart]
  repeat' split
  all_goals try with_reducible exact refused s _
  exact granted (runStarted s l n g) _

theorem reqRunend (s : State) (l : Nat) : s.Keeps (s.reqRunend l).1 := by
  unfold State.reqRunend
  dsimp only
  repeat' split
  all_goals try with_reducible exact refused s _
  exact (refl s).onRun (f := fun x => x.closed s.clock.seconds) id le_rfl

theorem reqNoticecfg (s : State) (k m v : Nat) : s.Keeps (s.reqNoticecfg k m v).1 := by
  unfold State.reqNoticecfg
  dsimp only
  repeat' split
  all_goals try with_reducible exact refused s _
  exact (refl s).setNotices (q := { s.notices with handling := s.notices.handling.insert k _ }) le_rfl (Table.wf_insert _ _ _)

end State.Keeps
end Sys2Proof.Machine
end

section
/-!
PROOF. The invariants of every step (O57 to O60), the step: every command keeps the invariants, and leaves no transmitter free beside a frame it
may send.
-/

namespace Sys2Proof.Machine

variable {s₀ s t u : State}

namespace State.Keeps

/-! ### The queries -/

theorem reqReelinfo (s : State) (r m : Nat) : s.Keeps (s.reqReelinfo r m).1 := by
  unfold State.reqReelinfo
  repeat' split
  all_goals exact refl s

theorem reqBayinfo (s : State) (b m : Nat) : s.Keeps (s.reqBayinfo b m).1 := by
  unfold State.reqBayinfo
  repeat' split
  all_goals exact refl s

theorem reqOrderinfo (s : State) (t m : Nat) : s.Keeps (s.reqOrderinfo t m).1 := by
  unfold State.reqOrderinfo
  repeat' split
  all_goals exact refl s

theorem reqEnvinfo (s : State) (k n : Nat) : s.Keeps (s.reqEnvinfo k n).1 := by
  unfold State.reqEnvinfo
  repeat' split
  all_goals exact refl s

/-- A query of one range check, which changes nothing. -/
theorem query (s : State) (b : Bool) (data : Bytes) : s.Keeps (if b then s.grant data else s.refuse .range).1 := by
  split <;> exact refl s

/-! ### A request taken -/

theorem perform (s : State) (r : Request) : s.Keeps (s.perform r).1 := by
  cases r with
  | ident => exact refl s
  | status => exact reqStatus s
  | setclock v => exact reqSetclock s v
  | restart => exact reqRestart s
  | defnode n z k => exact reqDefnode s n z k
  | defbay b n h => exact reqDefbay s b n h
  | defroute a b len zs => exact reqDefroute s a b len zs
  | defpos p n e => exact reqDefpos s p n e
  | commit => exact reqCommit s
  | intake d n b => exact reqIntake s d n b
  | restock d o a b l => exact reqRestock s d o a b l
  | reelinfo r m => exact reqReelinfo s r m
  | remove r => exact reqRemove s r
  | resttime g m => exact reqResttime s g m
  | bayinfo b m => exact reqBayinfo s b m
  | deliver p r q => exact reqDeliver s p r q
  | relocate r b q => exact reqRelocate s r b q
  | ret p a b q => exact reqReturn s p a b q
  | clear p a q => exact reqClear s p a q
  | park v n q => exact reqPark s v n q
  | cancel t => exact reqCancel s t
  | resolve t a => exact reqResolve s t a
  | orderinfo t m => exact reqOrderinfo s t m
  | halt v => exact reqHalt s v
  | resume v => exact reqResume s v
  | retire v => exact reqRetire s v
  | vehinfo v => exact query s _ _
  | vehcfg o h b z => exact reqVehcfg s o h b z
  | poscfg p q => exact reqPoscfg s p q
  | demand p g w => exact reqDemand s p g w
  | thread p a => exact reqThread s p a
  | loadreel p a d => exact reqLoadreel s p a d
  | unload p => exact reqUnload s p
  | buttoff p a => exact reqButtoff s p a
  | posinfo p => exact query s _ _
  | prepared p a => exact reqPrepared s p a
  | splicenow p => exact reqSplicenow s p
  | splicefix p a => exact reqSplicefix s p a
  | linecfg l st f => exact reqLinecfg s l st f
  | lineinfo l => exact query s _ _
  | envset k a cs ls o => exact reqEnvset s k a cs ls o
  | envsel l a sa b sb => exact reqEnvsel s l a sa b sb
  | envinfo k n => exact reqEnvinfo s k n
  | runstart l n t => exact reqRunstart s l n t
  | runend l => exact reqRunend s l
  | runinfo l => exact query s _ _
  | splicelist l n => exact query s _ _
  | noticecfg k m v => exact reqNoticecfg s k m v

theorem answer (s : State) (r : Request) : s.Keeps (s.answer r).1 := by
  unfold State.answer
  split
  · exact perform s r
  · exact refl s

end State.Keeps

/-- What holds of `s` of the invariants holds of `t`. -/
structure State.Upholds (s t : State) : Prop where
  canonical : s.canonical = true → t.canonical = true
  bounded : s.canonical = true → s.bounded = true → t.bounded = true
  listed : s.listed → t.listed
  sound : s.sound → t.sound
  balanced : s.balanced → t.balanced

theorem State.Keeps.upholds (h : s.Keeps t) : s.Upholds t := ⟨h.canonical, h.bounded, h.listed, h.sound, h.balanced⟩

namespace State.Upholds

theorem trans (h : s.Upholds t) (k : t.Upholds u) : s.Upholds u where
  canonical hc := k.canonical (h.canonical hc)
  bounded hc hb := k.bounded (h.canonical hc) (h.bounded hc hb)
  listed := k.listed ∘ h.listed
  sound := k.sound ∘ h.sound
  balanced := k.balanced ∘ h.balanced

/-- A reply joins a queue that had a free place before the request was performed (R171). -/
theorem pushReply (h : s.Keeps t) (r : Reply) (hroom : s.link.replies.length < 8) : s.Upholds (t.pushReply r) where
  canonical := h.canonical
  bounded hc hb := by
    have := h.bounded hc hb
    have hlength := h.replies
    rw [State.bounded_iff] at this ⊢
    obtain ⟨hrequests, hport, -, hrest⟩ := this
    refine ⟨hrequests, hport, ?_, hrest⟩
    simp only [State.pushReply, List.length_append, List.length_singleton]
    omega
  listed hl := (h.listed hl).of_same rfl rfl rfl rfl
  sound := h.sound
  balanced := h.balanced

theorem respond (s : State) (tag : Nat) (r : Request) (hroom : s.link.replies.length < 8) : s.Upholds (s.respond tag r).transmit :=
  (pushReply (State.Keeps.answer s r) _ hroom).trans (State.Keeps.transmit (.refl _)).upholds

end State.Upholds

/-- The end of a frame raises no notice. -/
theorem State.frameSent_notices (s : State) (f : VehicleFrame) : (s.frameSent f).notices = s.notices := by
  unfold State.frameSent State.goSent
  dsimp only
  repeat' split
  all_goals rfl

/-! ### What an event leaves -/

/-- An event of the part: the invariants are kept, and a transmitter that stands free beside a frame it may send is none of its making. -/
structure State.Event (s t : State) : Prop extends s.Upholds t where
  sending : s.sending → t.sending

namespace State.Event

theorem refl (s : State) : s.Event s := ⟨(State.Keeps.refl s).upholds, id⟩

theorem trans (h : s.Event t) (k : t.Event u) : s.Event u := ⟨h.toUpholds.trans k.toUpholds, k.sending ∘ h.sending⟩

/-- An event that changes neither what the invariants speak of nor what a transmitter may send. -/
theorem same (h : t.kernel = s.kernel) (hs : s.sending → t.sending) : s.Event t := ⟨(State.Keeps.of_kernel h).upholds, hs⟩

/-- An event whose end lets each free transmitter take its next frame. -/
theorem transmit (h : s.Keeps t) : s.Event t.transmit := ⟨h.transmit.upholds, fun _ => t.transmit_sending⟩

theorem ite {c : Prop} [Decidable c] (ht : c → s.Event t) (hu : ¬c → s.Event u) : s.Event (if c then t else u) := by
  split
  · exact ht ‹_›
  · exact hu ‹_›

theorem foldl {α : Type} (xs : List α) {f : State → α → State} (hf : ∀ s x, State.Event s (f s x)) (s : State) : s.Event (xs.foldl f s) := by
  induction xs generalizing s with
  | nil => exact refl s
  | cons x xs ih => exact (hf s x).trans (ih _)

theorem serve (s : State) (tag : Nat) (r : Request) : s.Event (s.serve tag r) :=
  ite (fun hroom => ⟨.respond s tag r hroom, fun _ => State.transmit_sending _⟩) fun _ => refl s

theorem serveHead (s : State) : s.Event s.serveHead := by
  unfold State.serveHead
  split
  · exact refl s
  rename_i q qs hq
  refine ite (fun hroom => ⟨?_, fun _ => State.transmit_sending _⟩) fun _ => refl s
  have htaken : s.Keeps { s with link := { s.link with requests := qs } } :=
    (State.Keeps.refl s).setLink (by simp [hq]; omega) id le_rfl
  exact htaken.upholds.trans (.respond _ q.tag q.request hroom)

/-! ### The ports -/

theorem onCounts (h : s₀.Keeps s) (f : LinkCounts → LinkCounts) : s₀.Keeps (s.onCounts f) := h.same rfl

theorem portReply (h : s₀.Keeps s) (r : Reply) : s₀.Keeps (s.portReply r) :=
  .ite (fun hroom => h.setLink id (fun _ => by simpa using hroom) le_rfl) fun _ => onCounts h _

theorem judgeRequest (h : s₀.Keeps s) (k tag : Nat) (payload : Bytes) : s₀.Keeps (s.judgeRequest k tag payload) := by
  unfold State.judgeRequest
  repeat' split
  · exact portReply (onCounts h _) _
  · rename_i hroom
    exact (onCounts h fun c => { c with accepted := satAdd c.accepted 1 }).setLink (fun _ => by simpa [State.onCounts] using hroom) id le_rfl
  · exact portReply (onCounts h _) _
  · exact portReply (onCounts h _) _

theorem lineEvent (h : s₀.Keeps s) (e : RxEvent) : s₀.Keeps (s.lineEvent e) := by
  cases e with
  | whole k tag payload => exact judgeRequest h k tag payload
  | badCheck => exact portReply (onCounts h _) _
  | oversize => exact onCounts h fun c => { c with oversize := satAdd c.oversize 1 }

theorem lineBytes (s : State) (bytes : Bytes) : s.Event (s.lineBytes bytes) := by
  have hrx : s.Event { s with link := { s.link with rx := (s.link.rx.take 2 bytes).2 } } := same rfl id
  exact hrx.trans (foldl _ (fun s e => transmit (lineEvent (.refl s) e)) _)

theorem vehicleFrame (h : s₀.Keeps s) (v : Nat) {f : State → State} (hm : ∀ s₀ s, Moves s₀ s → Moves s₀ (f s))
    (hl : v ≤ 12 → ∀ s, s.listed → (f s).listed) : s₀.Keeps (s.vehicleFrame v f) := by
  by_cases hv : vehicleOk v = true
  · have hle := (vehicleOk_iff.1 hv).2
    exact h.moves (.vehicleFrame .refl v (hm s)) fun h => h.vehicleFrame v hle (hl hle)
  · rwa [State.vehicleFrame, if_neg hv]

theorem joinFrame (h : s₀.Keeps s) (v n r b : Nat) : s₀.Keeps (s.joinFrame v n r b) := by
  by_cases hv : vehicleOk v = true
  · exact h.moves (.joinFrame .refl v n r b) fun h => h.joinFrame v n r b (vehicleOk_iff.1 hv).2
  · rwa [State.joinFrame, if_neg hv]

theorem vehicleInput (h : s₀.Keeps s) (v : Nat) (f : VehicleInput) : s₀.Keeps (s.vehicleInput v f) := by
  cases f with
  | join n r b => exact joinFrame h v n r b
  | take t i => exact vehicleFrame h v (fun _ _ h => h.takeFrame v t i) fun _ _ h => h.takeFrame v t i
  | pass z => exact vehicleFrame h v (fun _ _ h => h.passFrame v z) fun hv _ h => h.passFrame v z hv
  | done t i d n r => exact vehicleFrame h v (fun _ _ h => h.doneFrame v t i d n r) fun hv _ h => h.doneFrame v t i d n r hv
  | alive b n => exact vehicleFrame h v (fun _ _ h => h.aliveFrame v b n) fun hv _ h => h.aliveFrame v b n hv
  | fault c => exact vehicleFrame h v (fun _ _ h => h.faultVehicle v _ _) fun hv _ h => h.faultVehicle v _ _ hv
  | ready => exact vehicleFrame h v (fun _ _ h => h.readyFrame v) fun _ _ h => h.readyFrame v

theorem vehicleEvent (h : s₀.Keeps s) (e : RxEvent) : s₀.Keeps (s.vehicleEvent e) := by
  unfold State.vehicleEvent
  repeat' split
  · exact vehicleInput h _ _
  all_goals exact h.same rfl

theorem vehicleBytes (s : State) (bytes : Bytes) : s.Event (s.vehicleBytes bytes) := by
  have hrx : s.Event { s with vlink := { s.vlink with rx := (s.vlink.rx.take 1 bytes).2 } } := same rfl id
  exact hrx.trans (foldl _ (fun s e => transmit (vehicleEvent (.refl s) e)) _)

theorem oversizeOn (s : State) (p : Port) (b : Byte) : s.Event (s.oversizeOn p b) := by
  cases p with
  | line => exact ite (fun _ => same rfl id) fun _ => refl s
  | vehicle => exact ite (fun _ => same rfl id) fun _ => refl s

theorem gapOn (s : State) (p : Port) : s.Event (s.gapOn p) := by
  cases p with
  | line => exact ite (fun _ => refl s) fun _ => same rfl id
  | vehicle => exact ite (fun _ => refl s) fun _ => same rfl id

theorem startLineFrame (s : State) : s.Event s.startLineFrame where
  toUpholds := (State.Keeps.startLineFrame (.refl s)).upholds
  sending hs := ⟨State.startLineFrame_idle, by simpa using hs.2⟩

theorem vehicleFrameSent (s : State) : s.Event s.endVehicleFrame.startVehicleFrame := by
  have hended : s.Keeps s.endVehicleFrame ∧ s.endVehicleFrame.link = s.link ∧ s.endVehicleFrame.notices = s.notices := by
    unfold State.endVehicleFrame
    split
    · rename_i x _
      have hfree : s.Keeps { s with vlink := { s.vlink with tx := none } } := .of_kernel rfl
      have hmoves : Moves { s with vlink := { s.vlink with tx := none } } _ := .frameSent .refl x.frame
      exact ⟨hfree.moves hmoves (·.frameSent x.frame), congrArg Apart.link hmoves.apart, State.frameSent_notices _ _⟩
    · exact ⟨.refl s, rfl, rfl⟩
  obtain ⟨hkeeps, hlink, hnotices⟩ := hended
  refine ⟨hkeeps.startVehicleFrame.upholds, fun hs => ⟨?_, ?_⟩⟩
  · rw [State.startVehicleFrame_link, State.startVehicleFrame_notices, hlink, hnotices]
    exact hs.1
  · rw [State.startVehicleFrame_estop]
    exact State.startVehicleFrame_idle

theorem measured {p : Nat} (s : State) (h : 1 ≤ p ∧ p ≤ 8 → s.Keeps t) : s.Event (if s.measures p then t.transmit else s) := by
  refine ite (fun hm => transmit (h ?_)) fun _ => refl s
  rw [State.measures_iff] at hm
  exact ⟨hm.1, hm.2.1⟩

theorem startInterval (s : State) : s.Event s.startInterval := by
  refine ⟨(State.Keeps.refl s).startInterval.upholds, ?_⟩
  unfold State.startInterval
  split <;> exact id

theorem endConversion (s : State) (n : Nat) : s.Event (s.endConversion n) := by
  refine ⟨((State.Keeps.refl s).endConversion n).upholds, ?_⟩
  unfold State.endConversion State.deliverSample
  dsimp only
  repeat' split
  all_goals exact id

end State.Event

/-! ### The clock -/

namespace State.Keeps

theorem watchTick (h : s₀.Keeps s) : s₀.Keeps s.watchTick := .ite (fun _ => h.rewatch) fun _ => h

theorem tick (s : State) : s.Keeps s.tick :=
  .ite (fun _ => ((of_kernel rfl : s.Keeps { s with clock := ⟨s.clock.seconds + 1, 0⟩ }).watchTick.judgeHolds.close s false))
    fun _ => of_kernel rfl

theorem reachWatch (s : State) : s.Keeps s.reachWatch := by
  unfold State.reachWatch
  repeat' split
  · exact refl s
  · exact (refl s).rewatch.close s false
  · exact tick s
  · exact refl s

theorem exceedHold (s : State) (t : Nat) : s.Keeps (s.exceedHold t) := by
  unfold State.exceedHold
  repeat' split
  · exact refl s
  · exact (refl s).moves (.judgeHold .refl t) (·.judgeHold t)
  · exact tick s
  · exact refl s

end State.Keeps

/-! ### Every command -/

theorem exec_request {c : Instr} {tag : Nat} {r : Request} (h : c.request = some (tag, r)) (s : State) :
    exec c s = .next (s.serve tag r) := by
  cases c <;> cases h <;> rfl

theorem exec_event {c : Instr} (h : exec c s = .next t) : s.Event t := by
  cases hc : c.request with
  | some x =>
    obtain ⟨tag, r⟩ := x
    rw [exec_request hc] at h
    cases h
    exact .serve s tag r
  | none =>
    cases c with
    | pinReset r => cases h; exact .transmit (.pinReset s r)
    | lineFrameReceived bytes => cases h; exact .lineBytes s bytes
    | oversizeLength p b => cases h; exact .oversizeOn s p b
    | gapTimeout p => cases h; exact .gapOn s p
    | requestTaken => cases h; exact .serveHead s
    | lineFrameSent => cases h; exact .startLineFrame s
    | vehicleFrameDiscarded bytes => cases h; exact .vehicleBytes s bytes
    | join v n r b => cases h; exact .transmit (State.Event.vehicleInput (.refl s) v (.join n r b))
    | take v t i => cases h; exact .transmit (State.Event.vehicleInput (.refl s) v (.take t i))
    | pass v z => cases h; exact .transmit (State.Event.vehicleInput (.refl s) v (.pass z))
    | done v t i d n r => cases h; exact .transmit (State.Event.vehicleInput (.refl s) v (.done t i d n r))
    | alive v b n => cases h; exact .transmit (State.Event.vehicleInput (.refl s) v (.alive b n))
    | fault v c => cases h; exact .transmit (State.Event.vehicleInput (.refl s) v (.fault c))
    | ready v => cases h; exact .transmit (State.Event.vehicleInput (.refl s) v .ready)
    | vehicleFrameSent => cases h; exact .vehicleFrameSent s
    | offerTimeout v =>
      cases h
      exact .ite (fun hv => .transmit ((State.Keeps.refl s).offerEvent (vehicleOk_iff.1 hv).2 |>.close s false)) fun _ => .refl s
    | silenceTimeout v =>
      cases h
      exact .ite (fun hv => .transmit ((State.Keeps.refl s).silenceEvent (vehicleOk_iff.1 hv).2 |>.close s false)) fun _ => .refl s
    | zoneWaitLimit t => cases h; exact .transmit (.exceedHold s t)
    | hallClockTick => cases h; exact .transmit (.tick s)
    | restWatchReached => cases h; exact .transmit (.reachWatch s)
    | speedWindow p n => cases h; exact .measured s fun hp => ((State.Keeps.refl s).closeWindow n hp).close s false
    | matchHoldExpiry p => cases h; exact .measured s fun _ => (State.Keeps.refl s).holdMatched p
    | webCount p => cases h; exact .measured s fun _ => (State.Keeps.refl s).countWeb p
    | pasteEnd p => cases h; exact .measured s fun hp => ((State.Keeps.refl s).endPaste hp).close s false
    | cutEnd p => cases h; exact .measured s fun hp => ((State.Keeps.refl s).endCut hp).close s false
    | firingTimeout p => cases h; exact .measured s fun _ => (State.Keeps.refl s).failFiring p
    | confirmWindowExpiry p => cases h; exact .measured s fun _ => (State.Keeps.refl s).failConfirm p
    | confirmEdge p => cases h; exact .transmit ((State.Keeps.refl s).accepted _ _)
    | revolutionMark p => cases h; exact .transmit ((State.Keeps.refl s).accepted _ _)
    | copyEvent l => cases h; exact .transmit ((State.Keeps.refl s).accepted _ _)
    | divertChange l b => cases h; exact .transmit ((State.Keeps.refl s).acceptedLevel _ _)
    | pressRunningRise l => cases h; exact .transmit ((State.Keeps.refl s).acceptedLevel _ _)
    | pressRunningFall l => cases h; exact .transmit ((State.Keeps.refl s).acceptedLevel _ _)
    | estopAsserted => cases h; exact .transmit ((State.Keeps.refl s).acceptedLevel _ _)
    | estopReleased => cases h; exact .transmit ((State.Keeps.refl s).acceptedLevel _ _)
    | tensionSampleDelivered n => cases h; exact .endConversion s n
    | inputFilterSample i b => cases h; exact .transmit ((State.Keeps.refl s).sampleInput i b)
    | conversionIntervalStart => cases h; exact .startInterval s
    | _ => cases hc

/-- Every step is an event: that of its command, or a millisecond. -/
theorem step_event (h : step s = .next t) : s.Event t := by
  unfold step at h
  split at h
  · cases h
    exact ⟨(State.Keeps.millisecond s).upholds, id⟩
  · rename_i c cs _
    exact (State.Event.same rfl id : s.Event { s with pending := cs }).trans (exec_event h)

/-- Settles O57, from what every event upholds. -/
theorem tablesStayBounded : Obligations.TablesStayBounded := fun _ _ hcanonical hstep =>
  have h := step_event hstep
  ⟨h.canonical hcanonical, h.bounded hcanonical, h.listed, h.sending⟩

/-- Settles O58, from what every event upholds. -/
theorem outputsStaySound : Obligations.OutputsStaySound := fun _ _ hsound hstep => (step_event hstep).sound hsound

/-- Settles O59, from what every event upholds. -/
theorem booksStayBalanced : Obligations.BooksStayBalanced := fun _ _ hbalanced hstep => (step_event hstep).balanced hbalanced

end Sys2Proof.Machine
end

section
/-!
PROOF. The step and the ports (O1, O5 to O8): a request taken or refused in its phase, the millisecond of an empty queue, and the
transmitters.
-/

namespace Sys2Proof.Machine

open Sys2Proof

variable {s t : State} {c : Instr} {r : Request} {tag kind : Nat}

/-! ### Requests in their phase -/

theorem State.plans_iff : s.plans = true ↔ s.link.phase = .config ∧ s.link.replies.length < 8 := by
  simp [State.plans]

/-- A request of RUN that its block grants is answered OK. -/
theorem answered_in_run {data : Bytes} (hc : c.request = some (tag, r)) (htakes : s.takes = true) (hrun : allowedIn .run r = true)
    (hkind : kindOf r = kind) (hgrant : s.perform r = t.grant data) : answered c s kind tag data t := by
  obtain ⟨hphase, hroom⟩ := State.takes_iff.1 htakes
  exact answered_of_grant (exec_request hc s) hkind hroom (hphase ▸ hrun) hgrant

/-- A request of RUN that its block refuses is answered with the status alone. -/
theorem refused_in_run {e : Status} {code : Nat} (hc : c.request = some (tag, r)) (htakes : s.takes = true)
    (hrun : allowedIn .run r = true) (hkind : kindOf r = kind) (hrefuse : s.perform r = s.refuse e) (hcode : e.code = code) :
    refusedWith c s kind tag code := by
  obtain ⟨hphase, hroom⟩ := State.takes_iff.1 htakes
  exact refusedWith_of_refuse (exec_request hc s) hkind hroom (hphase ▸ hrun) hrefuse hcode

/-- A floor plan request that is granted is answered OK. -/
theorem answered_in_config {data : Bytes} (hc : c.request = some (tag, r)) (hplans : s.plans = true)
    (hconfig : allowedIn .config r = true) (hkind : kindOf r = kind) (hgrant : s.perform r = t.grant data) :
    answered c s kind tag data t := by
  obtain ⟨hphase, hroom⟩ := State.plans_iff.1 hplans
  exact answered_of_grant (exec_request hc s) hkind hroom (hphase ▸ hconfig) hgrant

/-- A floor plan request that is refused is answered with the status alone. -/
theorem refused_in_config {e : Status} {code : Nat} (hc : c.request = some (tag, r)) (hplans : s.plans = true)
    (hconfig : allowedIn .config r = true) (hkind : kindOf r = kind) (hrefuse : s.perform r = s.refuse e) (hcode : e.code = code) :
    refusedWith c s kind tag code := by
  obtain ⟨hphase, hroom⟩ := State.plans_iff.1 hplans
  exact refusedWith_of_refuse (exec_request hc s) hkind hroom (hphase ▸ hconfig) hrefuse hcode

/-! ### A millisecond -/

theorem nextMs_eq_map (o : Option Nat) : nextMs o = o.map (· + 1) := by cases o <;> rfl

theorem VehicleState.listening_iff {x : VehicleState} : x.listening = true ↔ ¬(x = .absent ∨ x = .lost) := by
  cases x <;> decide

theorem State.millisecond_veh (s : State) (v : Nat) : s.millisecond.veh v = (s.veh v).aged := by
  simp only [State.veh, State.millisecond, Table.find_mapEntries]
  cases s.vehicles.find v <;> rfl

theorem State.millisecond_pos (s : State) (p : Nat) : s.millisecond.pos p = (s.pos p).aged := by
  simp only [State.pos, State.millisecond, Table.find_mapEntries]
  cases s.positions.find p <;> rfl

theorem State.millisecond_web (s : State) (w : Nat) : s.millisecond.web w = (s.web w).aged := by
  simp only [State.web, State.millisecond, Table.find_mapEntries]
  cases s.webs.find w <;> rfl

theorem Receiver.aged_eq (x : Receiver) : x.aged = { x with gapMs := if x.held = [] then x.gapMs else x.gapMs + 1 } := by
  unfold Receiver.aged
  split <;> rfl

theorem Vehicle.aged_eq (x : Vehicle) : x.aged = { x with
    silenceMs := if x.state = .absent ∨ x.state = .lost then x.silenceMs else x.silenceMs + 1
    sinceFrameMs := if x.state = .absent then x.sinceFrameMs else x.sinceFrameMs + 1
    offerMs := x.offerMs.map (· + 1) } := by
  simp only [Vehicle.aged, nextMs_eq_map, VehicleState.listening_iff, ite_not]

theorem Position.aged_eq (x : Position) : x.aged = { x with splice := { x.splice with
    matchMs := x.splice.matchMs.map (· + 1)
    pasteMs := x.splice.pasteMs.map (· + 1)
    cutMs := x.splice.cutMs.map (· + 1)
    firingMs := x.splice.firingMs + if x.sequence = .firing then 1 else 0
    confirmMs := x.splice.confirmMs + if x.sequence = .confirm then 1 else 0 } } := by
  have hcount (b : Prop) [Decidable b] (n : Nat) : (if b then n + 1 else n) = n + if b then 1 else 0 := by split <;> rfl
  simp only [Position.aged, nextMs_eq_map]
  rw [hcount (x.sequence = .firing), hcount (x.sequence = .confirm)]

theorem Web.aged_eq (x : Web) : x.aged = { x with ageMs := if x.sample.isSome then min 65535 (x.ageMs + 1) else x.ageMs } := by
  unfold Web.aged
  split <;> rfl

/-- Settles O1: a command is run by `exec`, and each record ages as its own lemma says. -/
theorem stepRunsTheFrontCommand : Obligations.StepRunsTheFrontCommand := by
  refine ⟨fun c q s => rfl, fun s hempty => ⟨s.millisecond, ?_, hempty, ?_, ?_, ?_⟩⟩
  · simp only [step, hempty]
  · simp only [State.millisecond, Receiver.aged_eq]
  · simp only [State.millisecond, Receiver.aged_eq]
  · refine ⟨rfl, rfl, rfl, rfl, rfl, rfl, rfl, rfl, rfl, rfl, rfl, rfl, rfl, rfl, rfl, ?_, ?_, ?_⟩
    · exact fun v => (s.millisecond_veh v).trans (Vehicle.aged_eq _)
    · exact fun p => (s.millisecond_pos p).trans (Position.aged_eq _)
    · exact fun w => (s.millisecond_web w).trans (Web.aged_eq _)

/-! ### Oversize lengths and gaps -/

/-- Settles O5: the receiver's own test decides each clause. -/
theorem oversizeAndGap : Obligations.OversizeAndGap := by
  intro b s hover
  refine ⟨fun hheld => ?_, fun hheld => ?_, fun hheld => ?_, fun hheld => ?_, fun hheld => ?_, fun hheld => ?_⟩
  · have h : s.link.rx.oversized b = true := by simp [Receiver.oversized, hover, hheld]
    exact congrArg Host.Outcome.next (if_pos h)
  · have h : s.vlink.rx.oversized b = true := by simp [Receiver.oversized, hover, hheld]
    exact congrArg Host.Outcome.next (if_pos h)
  · exact congrArg Host.Outcome.next (if_neg hheld)
  · exact congrArg Host.Outcome.next (if_neg hheld)
  · exact congrArg Host.Outcome.next (if_pos hheld)
  · exact congrArg Host.Outcome.next (if_pos hheld)

/-! ### The taking of a request -/

theorem exec_requestTaken (s : State) : exec .requestTaken s = .next s.serveHead := rfl

theorem State.serveHead_cons {q : Accepted} {rest : List Accepted} (hhead : s.link.requests = q :: rest) (hroom : s.link.replies.length < 8) :
    s.serveHead = (({ s with link := { s.link with requests := rest } } : State).respond q.tag q.request).transmit := by
  simp [State.serveHead, hhead, hroom]

/-- Settles O6: the head request is answered as its own command answers it on the part without it. -/
theorem requestTakenRunsTheHead : Obligations.RequestTakenRunsTheHead := by
  refine ⟨?taken, ?same, ?idle⟩
  case taken =>
    rintro tag q rest s _ hhead hroom rfl
    rw [exec_requestTaken, State.serveHead_cons hhead hroom]
    rfl
  case same =>
    intro c tag q rest s hc hroom
    refine ⟨_, congrArg Host.Outcome.next (State.serveHead_cons (q := ⟨tag, q⟩) rfl hroom), ?_⟩
    rw [exec_request hc, State.serve, if_pos hroom]
  case idle =>
    rintro s (hnone | hfull) <;> refine congrArg Host.Outcome.next ?_
    · simp [State.serveHead, hnone]
    · unfold State.serveHead
      split
      · rfl
      · exact if_neg (Nat.not_lt.2 hfull)

theorem allowedIn_config (q : Request) (h : kindOf q ∉ [1, 2, 3, 8, 9, 10, 11, 12]) : allowedIn .config q = false := by
  revert h
  cases q <;> simp [kindOf, allowedIn]

theorem allowedIn_run (q : Request) (h : kindOf q ∈ [8, 9, 10, 11, 12]) : allowedIn .run q = false := by
  revert h
  cases q <;> simp [kindOf, allowedIn]

/-- A request that its phase does not allow is answered with PHASE. -/
theorem refusedWith_phase (hc : c.request = some (tag, r)) (hroom : s.link.replies.length < 8)
    (hallowed : allowedIn s.link.phase r = false) : refusedWith c s (kindOf r) tag 1 := by
  unfold refusedWith
  rw [exec_request hc, State.serve, if_pos hroom]
  simp [State.respond, State.answer, hallowed, State.refuse, replyTo, noReply, Status.code]

/-- Settles O7: a request out of its phase is refused, and one without room is not taken. -/
theorem requestsOutOfPhase : Obligations.RequestsOutOfPhase := by
  intro c tag q s hc
  refine ⟨fun hroom hphase hkind => ?_, fun hroom hphase hkind => ?_, fun hfull => ?_⟩
  · exact refusedWith_phase hc hroom (hphase ▸ allowedIn_config q hkind)
  · exact refusedWith_phase hc hroom (hphase ▸ allowedIn_run q hkind)
  · rw [exec_request hc, State.serve, if_neg (Nat.not_lt.2 hfull)]

/-! ### The transmitters -/

theorem exec_lineFrameSent (s : State) : exec .lineFrameSent s = .next s.startLineFrame := rfl

/-- With nothing in transmission, the end of a frame only starts the next one. -/
theorem exec_vehicleFrameSent_of_free (h : s.vlink.tx = none) : exec .vehicleFrameSent s = .next s.startVehicleFrame := by
  change Host.Outcome.next s.endVehicleFrame.startVehicleFrame = _
  simp only [State.endVehicleFrame, h]

/-- Settles O8: the three sources in their order, and `transmit` link by link. -/
theorem lineTransmitterOrder : Obligations.LineTransmitterOrder := by
  intro s
  refine ⟨fun r rs hport => ?_, fun r rs hport hreply => ?_, fun n ns hport hreply hnotice => ?_, fun hport hreply hnotice => ?_,
    fun hline hveh => ?_, fun hline hveh => ?_, fun hline hveh => ?_, fun hline hveh => ?_⟩
  · simp only [exec_lineFrameSent, State.startLineFrame, hport]
  · simp only [exec_lineFrameSent, State.startLineFrame, hport, hreply]
  · simp only [exec_lineFrameSent, State.startLineFrame, hport, hreply, hnotice]
    rfl
  · simp only [exec_lineFrameSent, State.startLineFrame, hport, hreply, hnotice]
  · exact State.transmit_of_busy (Option.isSome_iff_ne_none.2 hline) (Option.isSome_iff_ne_none.2 hveh)
  · simp [exec_lineFrameSent, State.transmit, hline, Option.isSome_iff_ne_none.2 hveh]
  · simp [exec_vehicleFrameSent_of_free hveh, State.transmit, hveh, Option.isSome_iff_ne_none.2 hline]
  · refine ⟨s.startLineFrame, exec_lineFrameSent s, ?_⟩
    have hfree : s.startLineFrame.vlink.tx = none := by rw [State.startLineFrame_vlink, hveh]
    simp [exec_vehicleFrameSent_of_free hfree, State.transmit, hline, hveh]

end Sys2Proof.Machine
end

section
/-!
PROOF. The link's own requests and the floor plan (O2, O10, O13, O15, O16), and the tension sampler (O53).
-/

namespace Sys2Proof.Machine

open Sys2Proof

variable {s t : State}

/-! ### The resets -/

/-- A table whose entries are all the default reads as the default everywhere. -/
theorem Table.getD_findIn_of_const {α : Type} {x : α} : ∀ {es : List (Nat × α)}, (∀ e ∈ es, e.2 = x) → ∀ k,
    (Table.findIn k es).getD x = x
  | [], _, _ => rfl
  | e :: es, h, k => by
    unfold Table.findIn
    split
    · exact h e List.mem_cons_self
    · exact Table.getD_findIn_of_const (fun d hd => h d (List.mem_cons_of_mem e hd)) k

theorem State.reset_pos (p : Nat) : State.reset.pos p = Position.reset := Table.getD_findIn_of_const (by decide) p
theorem State.reset_web (w : Nat) : State.reset.web w = Web.blank := Table.getD_findIn_of_const (by decide) w
theorem State.reset_veh (v : Nat) : State.reset.veh v = Vehicle.absentSlot := Table.getD_findIn_of_const (by decide) v
theorem State.reset_restMinutes (g : Nat) : State.reset.restMinutes g = 0 := Table.getD_findIn_of_const (by decide) g

theorem State.pinReset_handling (s : State) (r : LinkRate) (k : Nat) :
    (s.pinReset r).handling k = (defaultHandling.find k).getD ⟨.report, 0⟩ := rfl

/-- Settles O2: the reset state is a literal, its tables read entry by entry. -/
theorem pinResetState : Obligations.PinResetState := by
  intro r s
  refine ⟨s.pinReset r, rfl, rfl, rfl, rfl, fun n => rfl, fun a b => rfl, fun x => rfl, fun b => rfl, State.reset_restMinutes,
    rfl, rfl, fun n => rfl, rfl, rfl, fun v => congrArg Vehicle.state (State.reset_veh v), fun z => rfl, rfl, rfl, State.reset_pos, rfl,
    rfl, State.reset_web, s.pinReset_line r, fun k => rfl, rfl, rfl, ?_, ?_, rfl, ?_, ?_, ?_⟩
  all_goals
    simp only [State.pinReset_handling]
    decide

theorem State.restarted_bay (s : State) (b : Nat) :
    s.restarted.bay b = (s.bay b).map fun x => { x with stack := [], inbound := 0 } := by
  change (s.bays.mapEntries _).find b = _
  rw [Table.find_mapEntries]
  rfl

theorem State.restarted_pos (s : State) (p : Nat) : s.restarted.pos p = (s.pos p).restarted := by
  change ((s.positions.mapEntries fun _ x => x.restarted).find p).getD Position.reset = _
  rw [Table.find_mapEntries]
  cases h : s.positions.find p <;> simp [State.pos, h]
  rfl

theorem allowedIn_status (p : Phase) : allowedIn p .status = true := by cases p <;> rfl

theorem State.perform_status (s : State) : s.perform .status = s.reqStatus := rfl

/-- Settles O13: STATUS grants its report and RESTART the restarted part. -/
theorem statusAndRestart : Obligations.StatusAndRestart := by
  intro s tag
  refine ⟨fun hroom => ?status, fun htakes hpress => ?refused, fun htakes h1 h2 => ?restarted⟩
  case status =>
    refine answered_of_grant (r := .status) rfl rfl hroom (allowedIn_status _) ?_
    simp only [State.perform_status, State.reqStatus, LinkCounts.bytes, List.append_assoc]
    rfl
  case refused =>
    refine refused_in_run (r := .restart) rfl htakes rfl rfl (e := .state) (if_pos ?_) rfl
    simpa [State.pressRunning] using hpress
  case restarted =>
    refine ⟨s.restarted, answered_in_run (r := .restart) rfl htakes rfl rfl (if_neg ?_), rfl, rfl, rfl, rfl, rfl, rfl, rfl, rfl, rfl,
      rfl, rfl, rfl, rfl, rfl, fun r => rfl, rfl, s.restarted_bay, rfl, fun n => rfl, rfl, rfl, State.reset_veh, fun z => rfl,
      rfl, rfl, State.reset_web, s.restarted_pos, s.restarted_line, rfl, rfl⟩
    simp [State.pressRunning, h1, h2]

/-! ### NOTICECFG and the making of a notice -/

theorem State.perform_noticecfg (s : State) (k mode level : Nat) : s.perform (.noticecfg k mode level) = s.reqNoticecfg k mode level := rfl

theorem hasReaction_iff {k : Nat} : hasReaction k = true ↔ k ∈ [6, 7, 9] := by simp [hasReaction, or_assoc]

/-- A mode that is no mode code, or a level that is none, is refused. -/
theorem noticeModeOf_none {mode : Nat} (h : 3 < mode) (hkeep : mode ≠ 255) : noticeModeOf mode = none := by
  unfold noticeModeOf
  split <;> simp_all

theorem noticeLevelOf_none {level : Nat} (h : 3 < level) (hkeep : level ≠ 255) : noticeLevelOf level = none := by
  simp [noticeLevelOf, hkeep, Nat.not_le.2 h]

/-- Settles O10: the checks of NOTICECFG in order, and a source's mode at the making of a notice. -/
theorem noticeHandling : Obligations.NoticeHandling := by
  refine ⟨fun s tag k mode level m v htakes hmode hlevel => ⟨fun hlow hhigh hreact => ?_, fun hbad => ?_⟩,
    fun s tag k mode level htakes hbad => ?_, fun s b => ⟨fun hreports => ?_, fun hquiet => ?_⟩⟩
  · refine answered_in_run (r := .noticecfg k mode level) rfl htakes rfl rfl ?_
    have hfine : ¬((m = some .auto ∨ m = some .both) ∧ hasReaction k = false) := fun ⟨hm, hk⟩ => by
      rw [hasReaction_iff.2 (hreact hm)] at hk
      exact absurd hk (by decide)
    simp only [State.perform_noticecfg, State.reqNoticecfg, hmode, hlevel, hlow, hhigh, decide_true, Bool.and_self, if_neg hfine]
  · refine refused_in_run (r := .noticecfg k mode level) rfl htakes rfl rfl (e := .range) ?_ rfl
    rw [State.perform_noticecfg, State.reqNoticecfg, hmode, hlevel]
    rcases hbad with rfl | hk | ⟨hm, hk⟩
    · rfl
    · simp [Nat.not_le.2 hk]
    · have hreact : hasReaction k = false := by simpa using mt hasReaction_iff.1 hk
      split
      · rename_i h1 h2 h3
        cases h2
        exact if_pos ⟨hm, hreact⟩
      · rfl
  · refine refused_in_run (r := .noticecfg k mode level) rfl htakes rfl rfl (e := .range) ?_ rfl
    rw [State.perform_noticecfg, State.reqNoticecfg]
    rcases hbad with ⟨hhigh, hkeep⟩ | ⟨hhigh, hkeep⟩
    · rw [noticeModeOf_none hhigh hkeep]
      split <;> simp_all
    · rw [noticeLevelOf_none hhigh hkeep]
      split <;> simp_all
  · rintro q rfl n rfl
    have h : (s.handling b.source).mode.reports = true := by simpa [NoticeMode.reports] using hreports
    exact if_pos h
  · have h : ¬(s.handling b.source).mode.reports = true := by rcases hquiet with h | h <;> simp [NoticeMode.reports, h]
    exact if_neg h

/-! ### The floor plan -/

theorem nodeOk_iff {n : Nat} : nodeOk n = true ↔ 1 ≤ n ∧ n ≤ 96 := by simp [nodeOk]
theorem zoneOk_iff {z : Nat} : zoneOk z = true ↔ 1 ≤ z ∧ z ≤ 48 := by simp [zoneOk]
theorem bayOk_iff {b : Nat} : bayOk b = true ↔ 1 ≤ b ∧ b ≤ 120 := by simp [bayOk]

theorem nodeKindOf_none {k : Nat} (h : k = 0 ∨ 6 < k) : nodeKindOf k = none := by
  unfold nodeKindOf
  split <;> simp_all

/-- The ranges of DEFROUTE's fields hold. -/
theorem routeFields_iff {a b len : Nat} {zs : List Nat} :
    (nodeOk a && nodeOk b && zs.all zoneOk && decide (zs.length ≤ 8) && decide (len ≤ 2000)) = true ↔
      (1 ≤ a ∧ a ≤ 96) ∧ (1 ≤ b ∧ b ≤ 96) ∧ (∀ z ∈ zs, 1 ≤ z ∧ z ≤ 48) ∧ zs.length ≤ 8 ∧ len ≤ 2000 := by
  simp [nodeOk_iff, zoneOk_iff, List.all_eq_true, and_assoc]

theorem State.perform_defroute (s : State) (a b len : Nat) (zs : List Nat) :
    s.perform (.defroute a b len zs) = s.reqDefroute a b len zs := rfl

theorem State.perform_defnode_grant (s : State) {n z k : Nat} {kind : NodeKind} (hkind : nodeKindOf k = some kind)
    (hn : nodeOk n = true) (hz : zoneOk z = true) :
    s.perform (.defnode n z k) = ({ s with nodes := s.nodes.insert n ⟨z, kind⟩ } : State).grant
      (openField1 .defnodeNodes (s.nodes.insert n ⟨z, kind⟩).count) := by
  simp [State.perform, State.reqDefnode, hkind, hn, hz]

theorem State.perform_defnode_refuse (s : State) {n z k : Nat}
    (h : nodeKindOf k = none ∨ (nodeOk n && zoneOk z) = false) : s.perform (.defnode n z k) = s.refuse .range := by
  change s.reqDefnode n z k = _
  unfold State.reqDefnode
  split
  · rename_i h1 h2
    rcases h with h | h
    · rw [h] at h2
      cases h2
    · rw [h] at h1
      cases h1
  · rfl

/-- Settles O15: each request's checks in their order. -/
theorem floorPlanRequests : Obligations.FloorPlanRequests := by
  refine ⟨?defnode, ?nodeKind, ?defbay, ?defroute, ?routeRange, ?posRange, ?defpos⟩
  case defnode =>
    refine fun s tag n z k kind hplans hkind => ⟨fun h1 h2 h3 h4 => ?_, fun hbad => ?_⟩
    · exact ⟨_, answered_in_config (r := .defnode n z k) rfl hplans rfl rfl
        (s.perform_defnode_grant hkind (nodeOk_iff.2 ⟨h1, h2⟩) (zoneOk_iff.2 ⟨h3, h4⟩))⟩
    · refine refused_in_config (r := .defnode n z k) rfl hplans rfl rfl (s.perform_defnode_refuse (.inr ?_)) rfl
      rw [← Bool.not_eq_true, Bool.and_eq_true, nodeOk_iff, zoneOk_iff]
      omega
  case nodeKind =>
    exact fun s tag n z k hplans hk =>
      refused_in_config (r := .defnode n z k) rfl hplans rfl rfl (s.perform_defnode_refuse (.inl (nodeKindOf_none hk))) rfl
  case defbay =>
    refine fun s tag b n h hplans => ⟨fun h1 h2 h3 h4 h5 h6 => ?_, fun hbad => ?_⟩
    · refine ⟨_, answered_in_config (r := .defbay b n h) rfl hplans rfl rfl (if_pos ?_)⟩
      simp [bayOk_iff, nodeOk_iff, h1, h2, h3, h4, h5, h6]
    · refine refused_in_config (r := .defbay b n h) rfl hplans rfl rfl (e := .range) (if_neg ?_) rfl
      simp only [Bool.and_eq_true, bayOk_iff, nodeOk_iff, decide_eq_true_eq]
      omega
  case defroute =>
    intro s tag a b len zs hplans h1 h2 h3 h4 hz hlength hlen
    have hrange := routeFields_iff.2 ⟨⟨h1, h2⟩, ⟨h3, h4⟩, hz, hlength, hlen⟩
    refine ⟨fun hab hnodup hpos hroom => ?_, fun hab hzero hnil => ?_, fun hbad => ?_, fun hab hnodup hzero hzones => ?_,
      fun hab hnodup hpos hnone hfull => ?_⟩
    · refine ⟨openField2 .defrouteRoutes (s.routes.insert (a * 256 + b) ⟨a, b, zs, len⟩).count,
        answered_in_config (r := .defroute a b len zs) rfl hplans rfl rfl ?_⟩
      have hspace : ¬((s.route a b).isNone = true ∧ 1024 ≤ s.routes.count) := by
        rintro ⟨hnone, hfull⟩
        rcases hroom with h | h
        · rw [Option.isNone_iff_eq_none.1 hnone] at h
          cases h
        · omega
      simp only [State.perform_defroute, State.reqDefroute, hrange, Bool.not_true, Bool.false_eq_true, if_false, hab, hnodup, hpos,
        not_true_eq_false, or_self, false_and, ne_eq, not_false_eq_true, true_and, hspace, State.putRoute]
      rfl
    · subst hzero hnil
      refine ⟨openField2 .defrouteRoutes (s.routes.erase (a * 256 + b)).count,
        answered_in_config (r := .defroute a b 0 []) rfl hplans rfl rfl ?_⟩
      simp only [State.perform_defroute, State.reqDefroute, hrange, Bool.not_true, Bool.false_eq_true, if_false, hab,
        List.nodup_nil, not_true_eq_false, or_self, ne_eq, and_false, false_and, State.putRoute, if_true]
      rfl
    · refine refused_in_config (r := .defroute a b len zs) rfl hplans rfl rfl (e := .conflict) ?_ rfl
      simp only [State.perform_defroute, State.reqDefroute, hrange, Bool.not_true, Bool.false_eq_true, if_false]
      exact if_pos hbad
    · refine refused_in_config (r := .defroute a b len zs) rfl hplans rfl rfl (e := .range) ?_ rfl
      simp [State.perform_defroute, State.reqDefroute, hab, hnodup, hzero, hzones]
    · refine refused_in_config (r := .defroute a b len zs) rfl hplans rfl rfl (e := .full) ?_ rfl
      simp [State.perform_defroute, State.reqDefroute, hrange, hab, hnodup, hpos, hnone, hfull]
  case routeRange =>
    intro s tag a b len zs hplans hbad
    refine refused_in_config (r := .defroute a b len zs) rfl hplans rfl rfl (e := .range) (if_pos ?_) rfl
    rw [Bool.not_eq_true', ← Bool.not_eq_true, routeFields_iff]
    rintro ⟨ha, hb, hz, hlength, hlen⟩
    rcases hbad with h | h | h | h | ⟨z, hmem, h⟩ | h | h
    case inr.inr.inr.inr.inl =>
      have := hz z hmem
      omega
    all_goals omega
  case posRange =>
    intro s tag p n e hplans hbad
    refine refused_in_config (r := .defpos p n e) rfl hplans rfl rfl (e := .range) (if_pos ?_) rfl
    rw [Bool.not_eq_true', ← Bool.not_eq_true]
    simp only [Bool.and_eq_true, positionOk_iff, decide_eq_true_eq]
    omega
  case defpos =>
    intro s tag p n e hplans h1 h2 hn he
    have hrange : ¬(!(positionOk p && decide (n ≤ 96) && decide (e ≤ 1))) = true := by simp [positionOk_iff, h1, h2, hn, he]
    refine ⟨fun hnode hon => ?_, fun hoff => ?_, fun hnode hon => ?_⟩
    · subst hon
      exact answered_in_config (r := .defpos p n 1) rfl hplans rfl rfl ((if_neg hrange).trans (if_neg fun h => hnode h.1))
    · subst hoff
      exact answered_in_config (r := .defpos p n 0) rfl hplans rfl rfl ((if_neg hrange).trans (if_neg fun h => by cases h.2))
    · exact refused_in_config (r := .defpos p n e) rfl hplans rfl rfl (e := .conflict) ((if_neg hrange).trans (if_pos ⟨hnode, hon⟩)) rfl

/-! ### COMMIT -/

theorem firstSome_eq_none_iff : ∀ {cs : List (Option Bytes)}, firstSome cs = none ↔ ∀ c ∈ cs, c = none
  | [] => by simp [firstSome]
  | some b :: cs => by simp [firstSome]
  | none :: cs => by simp [firstSome, firstSome_eq_none_iff (cs := cs)]

theorem firstNode_isNone_iff {k : NodeKind} : ∀ {es : List (Nat × Node)}, (firstNode k es).isNone = true ↔ ¬∃ e ∈ es, e.2.kind = k
  | [] => by simp [firstNode]
  | e :: es => by
    have ih := firstNode_isNone_iff (k := k) (es := es)
    unfold firstNode
    split <;> simp_all

theorem State.nodeHasKind_iff {n : Nat} {k : NodeKind} : s.nodeHasKind n k = true ↔ ∃ x, s.nodes.find n = some x ∧ x.kind = k := by
  simp [State.nodeHasKind]

theorem State.has_of_nodeHasKind {n : Nat} {k : NodeKind} (h : s.nodeHasKind n k = true) : s.nodes.has n = true := by
  obtain ⟨x, hx, -⟩ := State.nodeHasKind_iff.1 h
  simp [Table.has, hx]

theorem State.commitNodes_eq_none_iff : s.commitNodes = none ↔ (∀ e ∈ s.bays.entries, s.nodes.has e.2.node = true) ∧
    (∀ e ∈ s.routes.entries, s.nodes.has e.2.src = true ∧ s.nodes.has e.2.dst = true) ∧
    ∀ p ∈ s.enabledPositions, s.nodes.has (s.pos p).standNode = true := by
  have hroute (a b : Bool) (x y : Bytes) :
      (if !a then some x else if !b then some y else none) = none ↔ a = true ∧ b = true := by cases a <;> cases b <;> simp
  simp only [State.commitNodes, failing, firstSome_eq_none_iff, List.mem_append, List.mem_map, or_imp, forall_and,
    forall_exists_index, and_imp, forall_apply_eq_imp_iff₂, hroute]
  simp only [ite_eq_left_iff, reduceCtorEq, imp_false, not_not, and_assoc]

theorem State.commitFault_eq_none_iff : s.commitFault = none ↔
    (∀ e ∈ s.bays.entries, s.nodeHasKind e.2.node .bayAccess = true) ∧
    (∀ e ∈ s.routes.entries, s.nodes.has e.2.src = true ∧ s.nodes.has e.2.dst = true) ∧
    (∀ p ∈ s.enabledPositions, s.nodeHasKind (s.pos p).standNode .stand = true) ∧
    (∃ e ∈ s.nodes.entries, e.2.kind = .intake) ∧ ∃ e ∈ s.nodes.entries, e.2.kind = .waste := by
  have hbays : s.commitBays = none ↔ ∀ e ∈ s.bays.entries, s.nodeHasKind e.2.node .bayAccess = true := by
    simp only [State.commitBays, firstSome_eq_none_iff, failing, List.forall_mem_map, ite_eq_left_iff, reduceCtorEq, imp_false, not_not]
  have hstands : s.commitStands = none ↔ ∀ p ∈ s.enabledPositions, s.nodeHasKind (s.pos p).standNode .stand = true := by
    simp only [State.commitStands, firstSome_eq_none_iff, failing, List.forall_mem_map, ite_eq_left_iff, reduceCtorEq, imp_false, not_not]
  have hkinds : s.commitKinds = none ↔ (∃ e ∈ s.nodes.entries, e.2.kind = .intake) ∧ ∃ e ∈ s.nodes.entries, e.2.kind = .waste := by
    unfold State.commitKinds State.nodeOfKind
    simp only [firstNode_isNone_iff, failing]
    split
    case isTrue h => exact iff_of_false (by simp) fun k => h k.1
    case isFalse h =>
      split
      case isTrue hw => exact iff_of_false (by simp) fun k => hw k.2
      case isFalse hw => exact iff_of_true rfl ⟨not_not.1 h, not_not.1 hw⟩
  simp only [State.commitFault, firstSome_eq_none_iff, List.forall_mem_cons, List.not_mem_nil, false_imp_iff, implies_true, and_true,
    State.commitNodes_eq_none_iff, hbays, hstands, hkinds]
  constructor
  · rintro ⟨⟨-, hroutes, -⟩, hb, hs, hk⟩
    exact ⟨hb, hroutes, hs, hk⟩
  · rintro ⟨hb, hroutes, hs, hk⟩
    exact ⟨⟨fun e he => State.has_of_nodeHasKind (hb e he), hroutes, fun p hp => State.has_of_nodeHasKind (hs p hp)⟩, hb, hs, hk⟩

/-- A position at COMMIT: an enabled one is at rest, any other as it was (R177). -/
def Position.committed (x : Position) : Position :=
  if x.enabled then { x.restarted with mark := x.mark, confirm := x.confirm, gauge := x.gauge.noWeb } else x

theorem State.committed_pos (s : State) (p : Nat) : s.committed.pos p = (s.pos p).committed := by
  change ((s.positions.mapEntries fun _ x => x.committed).find p).getD Position.reset = _
  rw [Table.find_mapEntries]
  cases h : s.positions.find p <;> simp [State.pos, h]
  rfl

theorem State.committed_bay (s : State) (b : Nat) :
    s.committed.bay b = (s.bay b).map fun x => { x with stack := [], inbound := 0 } := by
  change (s.bays.mapEntries _).find b = _
  rw [Table.find_mapEntries]
  rfl

theorem State.perform_commit_grant (h : s.commitFault = none) : ∃ data, s.perform .commit = s.committed.grant data := by
  change ∃ data, s.reqCommit = _
  simp only [State.reqCommit, h]
  exact ⟨_, rfl⟩

/-- Settles O16: the plan is whole exactly where no item of the checks fails. -/
theorem commitNeedsAWholePlan : Obligations.CommitNeedsAWholePlan := by
  intro s tag whole hplans hwhole
  have hfault : whole ↔ s.commitFault = none := by
    rw [hwhole, State.commitFault_eq_none_iff]
    simp only [State.nodeHasKind_iff, State.enabledPositions, List.mem_filter, and_imp]
  rw [hfault]
  refine ⟨fun hnone => ?granted, fun hsome => ?refused⟩
  case granted =>
    obtain ⟨data, hgrant⟩ := State.perform_commit_grant hnone
    refine ⟨data, s.committed, answered_in_config (r := .commit) rfl hplans rfl rfl hgrant, rfl, rfl, rfl, rfl, rfl, rfl,
      s.committed_bay, fun p hon => ?_, fun p hoff => ?_⟩
    · rw [State.committed_pos, Position.committed, if_pos hon]
      exact ⟨hon, rfl, rfl, rfl, rfl, rfl, rfl, rfl, rfl⟩
    · rw [State.committed_pos, Position.committed, if_neg (by simp [hoff])]
  case refused =>
    obtain ⟨item, hitem⟩ := Option.ne_none_iff_exists'.1 hsome
    obtain ⟨hphase, hroom⟩ := State.plans_iff.1 hplans
    refine ⟨item, congrArg Host.Outcome.next ((State.serve_of_allowed tag hroom (by rw [hphase]; rfl)).trans ?_)⟩
    simp only [State.perform, State.reqCommit, hitem]
    rfl

/-! ### The tension sampler -/

theorem exec_tensionSampleDelivered (n : Nat) (s : State) : exec (.tensionSampleDelivered n) s = .next (s.endConversion n) := rfl
theorem exec_conversionIntervalStart (s : State) : exec .conversionIntervalStart s = .next s.startInterval := rfl

theorem State.channelAfter_eq_nextAbove {n : Nat} {c : Option Nat} (h : s.channelAfter n c) : nextAbove n s.servedList = c :=
  State.channelAfter_unique (s.channelAfter_nextAbove n) h

/-- The model's rounding up is a quotient and one for a rest. -/
theorem deviationOf_eq {sp : Nat} (n : Nat) (hsp : 0 < sp) : deviationOf n sp =
    min 255 ((max n sp - min n sp) * 200 / sp + if (max n sp - min n sp) * 200 % sp = 0 then 0 else 1) := by
  unfold deviationOf
  generalize (max n sp - min n sp) * 200 = d
  congr 1
  have hdm := Nat.div_add_mod d sp
  have hlt := Nat.mod_lt d hsp
  split
  case isTrue h =>
    have hsum : d + sp - 1 = sp * (d / sp) + (sp - 1) := by omega
    rw [hsum, Nat.mul_add_div hsp, Nat.div_eq_of_lt (Nat.sub_lt hsp Nat.one_pos)]
  case isFalse h =>
    have hsum : d + sp - 1 = sp * (d / sp + 1) + (d % sp - 1) := by
      rw [Nat.mul_add, Nat.mul_one]
      omega
    rw [hsum, Nat.mul_add_div hsp, Nat.div_eq_of_lt (Nat.lt_of_le_of_lt (Nat.sub_le _ 1) hlt)]

/-- Settles O53: the channel is the one R135 leaves, and a conversion's end is `State.endConversion_eq`. -/
theorem samplerConversion : Obligations.SamplerConversion := by
  refine ⟨?channel, ?start, ?ends, ?idle, ?busy⟩
  case channel =>
    exact fun s n => ⟨_, s.channelAfter_nextAbove n, fun d hd => State.channelAfter_unique hd (s.channelAfter_nextAbove n)⟩
  case start =>
    intro s c hfree hc
    rw [exec_conversionIntervalStart]
    simp only [State.startInterval, hfree, State.chooseChannel, State.channel_eq, State.channelAfter_eq_nextAbove hc]
  case ends =>
    rintro s w n sp dev c hbusy rfl rfl hsp hc
    rw [exec_tensionSampleDelivered, State.endConversion_eq n hbusy, State.channelAfter_eq_nextAbove hc, ← deviationOf_eq n hsp]
    refine ⟨fun hweb => ?_, fun hweb => ?_⟩
    · simp only [State.deliverSample, hweb, if_true]
      rfl
    · simp only [State.deliverSample, hweb, Bool.false_eq_true, if_false]
  case idle =>
    intro s n hfree
    simp only [exec_tensionSampleDelivered, State.endConversion, hfree]
  case busy =>
    intro s w hbusy
    simp only [exec_conversionIntervalStart, State.startInterval, hbusy]

end Sys2Proof.Machine
end

section
/-!
PROOF. What the shared operations on the store, the list and the outbound queue read as afterwards, each said once: the entry changed, the
others, and the fields left alone (sections 1.2, 3.1, 4.3, 4.4).
-/

namespace Sys2Proof.Machine

open Sys2Proof

variable {s t : State}

/-! ### Tables -/

theorem Table.find_insert {α : Type} (t : Table α) (k j : Nat) (v : α) :
    (t.insert k v).find j = if j = k then some v else t.find j := by
  split
  case isTrue h => rw [h, Table.find_insert_same]
  case isFalse h => rw [Table.find_insert_other t h]

theorem Table.find_erase {α : Type} (t : Table α) (k j : Nat) : (t.erase k).find j = if j = k then none else t.find j := by
  split
  case isTrue h => rw [h, Table.find_erase_same]
  case isFalse h => rw [Table.find_erase_other t h]

/-- The numbers of rising entries: all above the bound they rise from. -/
theorem Table.lt_of_risesFrom {α : Type} {k : Nat} : ∀ {es : List (Nat × α)}, Table.risesFrom (some k) es = true → ∀ e ∈ es, k < e.1
  | [], _, _, h => absurd h List.not_mem_nil
  | d :: es, hrise, e, he => by
    simp only [Table.risesFrom, Bool.and_eq_true, decide_eq_true_eq] at hrise
    rcases List.mem_cons.1 he with rfl | he
    · exact hrise.1
    · exact hrise.1.trans (Table.lt_of_risesFrom hrise.2 e he)

theorem Table.rises_tail {α : Type} {k : Option Nat} {e : Nat × α} {es : List (Nat × α)} (h : Table.risesFrom k (e :: es) = true) :
    Table.risesFrom (some e.1) es = true := by
  cases k with
  | none => exact h
  | some k => exact (Bool.and_eq_true _ _ ▸ h : _ ∧ _).2

/-- In rising entries an entry is the one found under its number. -/
theorem Table.findIn_eq_some_iff {α : Type} {k : Option Nat} {j : Nat} {v : α} : ∀ {es : List (Nat × α)},
    Table.risesFrom k es = true → (Table.findIn j es = some v ↔ (j, v) ∈ es)
  | [], _ => by simp [Table.findIn]
  | (i, w) :: es, h => by
    have htail := Table.rises_tail h
    have habove := Table.lt_of_risesFrom htail
    unfold Table.findIn
    split
    case isTrue hi =>
      subst hi
      simp only [Option.some.injEq, List.mem_cons, Prod.mk.injEq, true_and]
      exact ⟨fun e => .inl e.symm, fun e => e.elim Eq.symm fun m => absurd (habove _ m) (Nat.lt_irrefl i)⟩
    case isFalse hi =>
      rw [Table.findIn_eq_some_iff htail]
      simp only [List.mem_cons, Prod.mk.injEq]
      exact ⟨.inr, fun e => e.resolve_left fun e => hi e.1.symm⟩

theorem Table.mem_entries_iff {α : Type} {t : Table α} (h : t.wf = true) {j : Nat} {v : α} : (j, v) ∈ t.entries ↔ t.find j = some v :=
  (Table.findIn_eq_some_iff h).symm

theorem Table.mem_of_findIn {α : Type} {k : Nat} {x : α} : ∀ {es : List (Nat × α)}, Table.findIn k es = some x → (k, x) ∈ es
  | [], h => by cases h
  | e :: es, h => by
    unfold Table.findIn at h
    split at h
    case isTrue hk =>
      cases h
      cases hk
      exact List.mem_cons_self
    case isFalse => exact List.mem_cons_of_mem e (Table.mem_of_findIn h)

theorem Table.mem_of_find {α : Type} {t : Table α} {k : Nat} {x : α} (h : t.find k = some x) : (k, x) ∈ t.entries := Table.mem_of_findIn h

theorem Table.keys_ascending {α : Type} {k : Option Nat} : ∀ {es : List (Nat × α)}, Table.risesFrom k es = true →
    es.Pairwise fun d e => d.1 < e.1
  | [], _ => .nil
  | _ :: _, h => .cons (Table.lt_of_risesFrom (Table.rises_tail h)) (Table.keys_ascending (Table.rises_tail h))

/-! ### One entry read after a change -/

@[simp] theorem State.order_setOrder_other {k n : Nat} (h : k ≠ n) (s : State) (x : Order) : (s.setOrder n x).order k = s.order k :=
  Table.find_insert_other _ h _

@[simp] theorem State.order_delOrder_same (s : State) (n : Nat) : (s.delOrder n).order n = none := Table.find_erase_same _ _

@[simp] theorem State.order_delOrder_other {k n : Nat} (h : k ≠ n) (s : State) : (s.delOrder n).order k = s.order k :=
  Table.find_erase_other _ h

@[simp] theorem State.reel_delReel_same (s : State) (r : Nat) : (s.delReel r).reel r = none := Table.find_erase_same _ _

@[simp] theorem State.reel_delReel_other {k r : Nat} (h : k ≠ r) (s : State) : (s.delReel r).reel k = s.reel k :=
  Table.find_erase_other _ h

@[simp] theorem State.bay_setBay_same (s : State) (b : Nat) (x : Bay) : (s.setBay b x).bay b = some x := Table.find_insert_same _ _ _

@[simp] theorem State.bay_setBay_other {c b : Nat} (h : c ≠ b) (s : State) (x : Bay) : (s.setBay b x).bay c = s.bay c :=
  Table.find_insert_other _ h _

theorem State.reel_onReel (s : State) (r q : Nat) (f : Reel → Reel) :
    (s.onReel r f).reel q = if q = r then (s.reel r).map f else s.reel q := by
  split
  case isTrue h =>
    subst h
    cases hr : s.reel q with
    | none => simp only [State.onReel, hr, Option.map_none]
    | some x => exact State.onReel_reel_same hr
  case isFalse h => exact State.onReel_reel_other h

theorem State.bay_onBay (s : State) (b c : Nat) (f : Bay → Bay) : (s.onBay b f).bay c = if c = b then (s.bay b).map f else s.bay c := by
  unfold State.onBay
  split
  case h_1 x hx =>
    rw [hx]
    exact Table.find_insert _ _ _ _
  case h_2 hx =>
    split
    case isTrue h => rw [h, hx, Option.map_none]
    case isFalse => rfl

theorem State.order_onOrder (s : State) (n k : Nat) (f : Order → Order) :
    (s.onOrder n f).order k = if k = n then (s.order n).map f else s.order k := by
  unfold State.onOrder
  split
  case h_1 x hx =>
    rw [hx]
    exact Table.find_insert _ _ _ _
  case h_2 hx =>
    split
    case isTrue h => rw [h, hx, Option.map_none]
    case isFalse => rfl

/-! ### What an operation changes at most -/

theorem State.onReel_eq (s : State) (r : Nat) (f : Reel → Reel) : s.onReel r f = { s with reels := (s.onReel r f).reels } := by
  unfold State.onReel
  split <;> rfl

theorem State.onBay_eq (s : State) (b : Nat) (f : Bay → Bay) : s.onBay b f = { s with bays := (s.onBay b f).bays } := by
  unfold State.onBay
  split <;> rfl

theorem State.onOrder_eq (s : State) (n : Nat) (f : Order → Order) :
    s.onOrder n f = { s with orders := { s.orders with table := (s.onOrder n f).orders.table } } := by
  unfold State.onOrder
  split <;> rfl

theorem relevel_eq (b : Nat) : ∀ (l : Nat) (rs : List Nat) (s : State), relevel b l rs s = { s with reels := (relevel b l rs s).reels }
  | _, [], _ => rfl
  | l, r :: rs, s => by
    unfold relevel
    rw [relevel_eq b (l + 1) rs, State.onReel_eq]

theorem State.leaveBay_eq (s : State) (b r : Nat) :
    s.leaveBay b r = { s with bays := (s.leaveBay b r).bays, reels := (s.leaveBay b r).reels } := by
  unfold State.leaveBay
  split
  · rw [relevel_eq]
    rfl
  · rfl

theorem State.pushBay_eq (s : State) (b r : Nat) :
    s.pushBay b r = { s with bays := (s.pushBay b r).bays, reels := (s.pushBay b r).reels } := by
  unfold State.pushBay
  split
  · dsimp only
    rw [State.onReel_eq]
    rfl
  · rfl

@[simp] theorem State.onReel_demands (s : State) (r : Nat) (f : Reel → Reel) : (s.onReel r f).demands = s.demands := by rw [onReel_eq]
@[simp] theorem State.onReel_bays (s : State) (r : Nat) (f : Reel → Reel) : (s.onReel r f).bays = s.bays := by rw [onReel_eq]
@[simp] theorem State.onReel_vehicles (s : State) (r : Nat) (f : Reel → Reel) : (s.onReel r f).vehicles = s.vehicles := by rw [onReel_eq]
@[simp] theorem State.onReel_locks (s : State) (r : Nat) (f : Reel → Reel) : (s.onReel r f).locks = s.locks := by rw [onReel_eq]
@[simp] theorem State.onReel_vlink (s : State) (r : Nat) (f : Reel → Reel) : (s.onReel r f).vlink = s.vlink := by rw [onReel_eq]
@[simp] theorem State.onReel_clock (s : State) (r : Nat) (f : Reel → Reel) : (s.onReel r f).clock = s.clock := by rw [onReel_eq]
@[simp] theorem State.onReel_nodes (s : State) (r : Nat) (f : Reel → Reel) : (s.onReel r f).nodes = s.nodes := by rw [onReel_eq]
@[simp] theorem State.onReel_notices (s : State) (r : Nat) (f : Reel → Reel) : (s.onReel r f).notices = s.notices := by rw [onReel_eq]
@[simp] theorem State.onReel_apart (s : State) (r : Nat) (f : Reel → Reel) : (s.onReel r f).apart = s.apart := by
  rw [onReel_eq]
  rfl

@[simp] theorem State.onBay_positions (s : State) (b : Nat) (f : Bay → Bay) : (s.onBay b f).positions = s.positions := by rw [onBay_eq]
@[simp] theorem State.onBay_demands (s : State) (b : Nat) (f : Bay → Bay) : (s.onBay b f).demands = s.demands := by rw [onBay_eq]
@[simp] theorem State.onBay_reels (s : State) (b : Nat) (f : Bay → Bay) : (s.onBay b f).reels = s.reels := by rw [onBay_eq]
@[simp] theorem State.onBay_vehicles (s : State) (b : Nat) (f : Bay → Bay) : (s.onBay b f).vehicles = s.vehicles := by rw [onBay_eq]
@[simp] theorem State.onBay_locks (s : State) (b : Nat) (f : Bay → Bay) : (s.onBay b f).locks = s.locks := by rw [onBay_eq]
@[simp] theorem State.onBay_vlink (s : State) (b : Nat) (f : Bay → Bay) : (s.onBay b f).vlink = s.vlink := by rw [onBay_eq]
@[simp] theorem State.onBay_notices (s : State) (b : Nat) (f : Bay → Bay) : (s.onBay b f).notices = s.notices := by rw [onBay_eq]
@[simp] theorem State.onBay_apart (s : State) (b : Nat) (f : Bay → Bay) : (s.onBay b f).apart = s.apart := by
  rw [onBay_eq]
  rfl

@[simp] theorem State.raise_apart (s : State) (b : Subjects) : (s.raise b).apart = s.apart := (Move.raise b).apart

/-! ### A free tag (R38) -/

/-- The `k`-th tag after `n`. -/
def tagsAfter (n : Nat) : Nat → Nat
  | 0 => n
  | k + 1 => tagsAfter (tagAfter n) k

theorem tagAfter_range (n : Nat) : 1 ≤ tagAfter n ∧ tagAfter n ≤ 65535 := by
  unfold tagAfter
  split <;> omega

/-- Counting on from a tag goes around 1 to 65535. -/
theorem tagsAfter_eq {n : Nat} : ∀ (k : Nat), 1 ≤ n → n ≤ 65535 → tagsAfter n k = (n - 1 + k) % 65535 + 1
  | 0, h1, h2 => by
    rw [Nat.add_zero, Nat.mod_eq_of_lt (by omega)]
    exact (Nat.sub_add_cancel h1).symm
  | k + 1, h1, h2 => by
    obtain ⟨r1, r2⟩ := tagAfter_range n
    change tagsAfter (tagAfter n) k = _
    rw [tagsAfter_eq k r1 r2]
    unfold tagAfter
    split
    case isTrue => rw [show n + 1 - 1 + k = n - 1 + (k + 1) by omega]
    case isFalse h =>
      have hn : n = 65535 := by omega
      rw [hn, show 65535 - 1 + (k + 1) = k + 65535 by omega, Nat.add_mod_right, Nat.sub_self, Nat.zero_add]

theorem tagsAfter_injOn {n j k : Nat} (h1 : 1 ≤ n) (h2 : n ≤ 65535) (hj : j < 65535) (hk : k < 65535)
    (h : tagsAfter n j = tagsAfter n k) : j = k := by
  rw [tagsAfter_eq j h1 h2, tagsAfter_eq k h1 h2] at h
  omega

/-- The tag that `freeTag` gives is one of the next, and none before it is free. -/
theorem freeTag_spec (used : Table Order) : ∀ (n t : Nat), ∃ k, k ≤ n ∧ freeTag used n t = tagsAfter (tagAfter t) k ∧
    (∀ j < k, used.has (tagsAfter (tagAfter t) j) = true) ∧ (k < n → used.has (tagsAfter (tagAfter t) k) = false)
  | 0, t => ⟨0, Nat.le_refl 0, rfl, fun j h => absurd h (Nat.not_lt_zero j), fun h => absurd h (Nat.lt_irrefl 0)⟩
  | n + 1, t => by
    unfold freeTag
    split
    case isTrue h =>
      obtain ⟨k, hk, heq, hbefore, hfree⟩ := freeTag_spec used n (tagAfter t)
      refine ⟨k + 1, Nat.succ_le_succ hk, heq, fun j hj => ?_, fun hlt => hfree (Nat.lt_of_succ_lt_succ hlt)⟩
      cases j with
      | zero => exact h
      | succ j => exact hbefore j (Nat.lt_of_succ_lt_succ hj)
    case isFalse h => exact ⟨0, Nat.zero_le _, rfl, fun j h => absurd h (Nat.not_lt_zero j), fun _ => by simpa [tagsAfter] using h⟩

theorem Table.mem_keys_of_has {α : Type} {t : Table α} {k : Nat} (h : t.has k = true) : k ∈ t.keys := by
  obtain ⟨x, hx⟩ := Option.isSome_iff_exists.1 h
  exact List.mem_map.2 ⟨(k, x), Table.mem_of_find hx, rfl⟩

theorem State.ordersFull_false_iff : s.ordersFull = false ↔ s.orders.table.count < 32 := by
  rw [← Nat.not_le]
  exact decide_eq_false_iff_not

/-- With room in the list, the next tag is carried by no order (R38): more tags are tried than the list has orders. -/
theorem State.order_nextTag (h : s.ordersFull = false) : s.order s.nextTag = none := by
  have hcount := State.ordersFull_false_iff.1 h
  obtain ⟨k, hk, heq, hbefore, hfree⟩ := freeTag_spec s.orders.table s.orderCount s.orders.lastTag
  obtain ⟨h1, h2⟩ := tagAfter_range s.orders.lastTag
  have hk' : k ≤ s.orders.table.count := hk
  change s.orders.table.find (freeTag s.orders.table s.orderCount s.orders.lastTag) = none
  rw [heq, ← Option.not_isSome_iff_eq_none]
  intro hused
  by_cases hlt : k < s.orders.table.count
  · have := hfree hlt
    rw [Table.has, hused] at this
    cases this
  · have hsub : (List.range (k + 1)).map (tagsAfter (tagAfter s.orders.lastTag)) ⊆ s.orders.table.keys := by
      intro x hx
      obtain ⟨j, hj, rfl⟩ := List.mem_map.1 hx
      rcases Nat.lt_succ_iff_lt_or_eq.1 (List.mem_range.1 hj) with hj | rfl
      · exact Table.mem_keys_of_has (hbefore j hj)
      · exact Table.mem_keys_of_has hused
    have hnodup : ((List.range (k + 1)).map (tagsAfter (tagAfter s.orders.lastTag))).Nodup := by
      refine List.Nodup.map_on (fun i hi j hj hij => ?_) List.nodup_range
      exact tagsAfter_injOn h1 h2 (by have := List.mem_range.1 hi; omega) (by have := List.mem_range.1 hj; omega) hij
    have hlen := (hnodup.subperm hsub).length_le
    rw [List.length_map, List.length_range, Table.keys, List.length_map] at hlen
    exact absurd hlen (by unfold Table.count at hlt hk'; omega)

/-! ### An order made (R40) -/

/-- The reel record under a new tag, where the order has a reel. -/
def taggedReels (s : State) (n : NewOrder) : Table Reel :=
  match n.reel with
  | some r => (s.onReel r fun x => { x with tag := some s.nextTag }).reels
  | none => s.reels

/-- The bays with the promise of a new order, where it has a bay for its destination. -/
def promisedBays (s : State) (n : NewOrder) : Table Bay :=
  match n.destination.bay? with
  | some b => (s.promise b).bays
  | none => s.bays

theorem State.onReel_reels_congr {s t : State} (h : t.reels = s.reels) (r : Nat) (f : Reel → Reel) :
    (t.onReel r f).reels = (s.onReel r f).reels := by
  unfold State.onReel State.reel
  rw [h]
  split <;> simp [State.setReel, h]

theorem State.onBay_bays_congr {s t : State} (h : t.bays = s.bays) (b : Nat) (f : Bay → Bay) :
    (t.onBay b f).bays = (s.onBay b f).bays := by
  unfold State.onBay State.bay
  rw [h]
  split <;> simp [State.setBay, h]

/-- The whole state after an order is created. -/
theorem State.createOrder_eq (s : State) (n : NewOrder) : s.createOrder n = { s with
    reels := taggedReels s n
    bays := promisedBays s n
    orders := { s.orders with
      table := s.orders.table.insert s.nextTag (s.newOrder n), lastTag := s.nextTag
      nextSequence := s.orders.nextSequence + 1 } } := by
  have hreel : ∀ (u : State), u.reels = s.reels → (u.whenSome n.reel fun s' r => s'.onReel r fun x => { x with tag := some s.nextTag }) =
      { u with reels := taggedReels s n } := by
    intro u hu
    unfold taggedReels
    cases n.reel with
    | none => exact hu ▸ rfl
    | some r => exact (State.onReel_eq u r _).trans (by rw [State.onReel_reels_congr hu])
  have hbay : ∀ (u : State), u.bays = s.bays → (u.whenSome n.destination.bay? fun s' b => s'.promise b) =
      { u with bays := promisedBays s n } := by
    intro u hu
    unfold promisedBays
    cases n.destination.bay? with
    | none => exact hu ▸ rfl
    | some b => exact (State.promise_eq u b).trans (by rw [State.promise, State.onBay_bays_congr hu]; rfl)
  exact (congrArg (fun u : State => u.whenSome n.destination.bay? fun s' b => s'.promise b) (hreel { s with orders := { s.orders with
    table := s.orders.table.insert s.nextTag (s.newOrder n), lastTag := s.nextTag
    nextSequence := s.orders.nextSequence + 1 } } rfl)).trans (hbay _ rfl)

theorem taggedReels_find (s : State) (n : NewOrder) (r : Nat) : (taggedReels s n).find r =
    if n.reel = some r then (s.reel r).map fun x => { x with tag := some s.nextTag } else s.reel r := by
  unfold taggedReels
  cases hr : n.reel with
  | none => rfl
  | some q =>
    refine (s.reel_onReel q r _).trans ?_
    by_cases h : r = q
    · subst h
      simp
    · simp [h, Ne.symm h]

theorem promisedBays_find (s : State) (n : NewOrder) (b : Nat) : (promisedBays s n).find b =
    if n.destination.bay? = some b then (s.bay b).map fun x => { x with inbound := x.inbound + 1 } else s.bay b := by
  unfold promisedBays
  cases hr : n.destination.bay? with
  | none => rfl
  | some q =>
    refine (s.bay_onBay q b _).trans ?_
    by_cases h : b = q
    · subst h
      simp
    · simp [h, Ne.symm h]

theorem Place.bay?_eq_some_iff {x : Place} {b : Nat} : x.bay? = some b ↔ ∃ l, x = .bay b l := by
  cases x <;> simp [Place.bay?]

theorem created_createOrder (s : State) (n : NewOrder) : Created s (s.createOrder n) n := by
  rw [State.createOrder_eq]
  refine ⟨Table.find_insert_same _ _ _, fun k hk => Table.find_insert_other _ hk _, rfl, rfl, fun r x hr hx => ?_, fun r hr => ?_,
    fun b l x hb hx => ?_, fun b hb => ?_, rfl, rfl, rfl, rfl, rfl⟩
  · exact (taggedReels_find s n r).trans (by rw [if_pos hr, hx, Option.map_some])
  · exact (taggedReels_find s n r).trans (if_neg hr)
  · exact (promisedBays_find s n b).trans (by rw [if_pos (Place.bay?_eq_some_iff.2 ⟨l, hb⟩), hx, Option.map_some])
  · exact (promisedBays_find s n b).trans (if_neg fun h => (Place.bay?_eq_some_iff.1 h).elim fun l hl => hb l hl)

@[simp] theorem State.createOrder_positions (s : State) (n : NewOrder) : (s.createOrder n).positions = s.positions := by
  rw [createOrder_eq]
@[simp] theorem State.createOrder_notices (s : State) (n : NewOrder) : (s.createOrder n).notices = s.notices := by rw [createOrder_eq]
@[simp] theorem State.createOrder_backlog (s : State) (n : NewOrder) : (s.createOrder n).orders.backlog = s.orders.backlog := by
  rw [createOrder_eq]
@[simp] theorem State.createOrder_pos (s : State) (n : NewOrder) (p : Nat) : (s.createOrder n).pos p = s.pos p := by
  simp [State.pos]

/-! ### The outbound queue (R80) -/

theorem State.setFrames_append (s : State) (q w : List VehicleFrame) :
    (s.setFrames q w).vlink.queue ++ (s.setFrames q w).vlink.waiting = q ++ w := refillFrom_append q w

theorem State.enqueue_eq (s : State) (f : VehicleFrame) : s.enqueue f = { s with vlink := { s.vlink with
    queue := (s.enqueue f).vlink.queue, waiting := (s.enqueue f).vlink.waiting } } := by
  unfold State.enqueue
  split <;> rfl

theorem State.withdraw_eq (s : State) (p : VehicleFrame → Bool) : s.withdraw p = { s with vlink := { s.vlink with
    queue := (s.withdraw p).vlink.queue, waiting := (s.withdraw p).vlink.waiting } } := rfl

/-- A frame taken in joins those of the queue and the waiting line at their end, unless one of its kind is there. -/
theorem State.enqueue_frames (s : State) (f : VehicleFrame) :
    (s.enqueue f).vlink.queue ++ (s.enqueue f).vlink.waiting =
      (s.vlink.queue ++ s.vlink.waiting) ++ if ∃ g ∈ s.vlink.queue ++ s.vlink.waiting, g.slot = f.slot then [] else [f] := by
  have hany : (s.vlink.queue ++ s.vlink.waiting).any (fun g => g.slot = f.slot) = true ↔
      ∃ g ∈ s.vlink.queue ++ s.vlink.waiting, g.slot = f.slot := by
    rw [List.any_eq_true]
    simp only [decide_eq_true_eq]
  unfold State.enqueue
  by_cases h : ∃ g ∈ s.vlink.queue ++ s.vlink.waiting, g.slot = f.slot
  · rw [if_pos (hany.2 h), if_pos h, List.append_nil]
  · rw [if_neg (mt hany.1 h), if_neg h, State.setFrames_append, List.append_assoc]

theorem State.mem_enqueue {f g : VehicleFrame} (h : g ∈ s.vlink.queue ++ s.vlink.waiting) :
    g ∈ (s.enqueue f).vlink.queue ++ (s.enqueue f).vlink.waiting := by
  rw [State.enqueue_frames]
  exact List.mem_append_left _ h

theorem State.mem_withdraw {p : VehicleFrame → Bool} {f : VehicleFrame} :
    f ∈ (s.withdraw p).vlink.queue ++ (s.withdraw p).vlink.waiting ↔ f ∈ s.vlink.queue ++ s.vlink.waiting ∧ p f = false := by
  rw [State.withdraw, State.setFrames_append, ← List.filter_append, List.mem_filter, Bool.not_eq_true']

/-! ### Zone locks (R75) -/

theorem State.holder_giveZones (s : State) (v z : Nat) (zs : List Nat) :
    (s.giveZones v zs).holder z = if z ∈ zs then some v else s.holder z := by
  have key : ∀ (l : Table Nat), (zs.foldl (fun l y => l.insert y v) l).find z = if z ∈ zs then some v else l.find z := by
    induction zs with
    | nil => exact fun l => rfl
    | cons y ys ih =>
      intro l
      rw [List.foldl_cons, ih, Table.find_insert]
      by_cases hy : z = y <;> by_cases hz : z ∈ ys <;> simp [hy, hz]
  exact key s.locks

theorem State.zonesOpen_iff {v : Nat} {zs : List Nat} :
    s.zonesOpen v zs = true ↔ ∀ z ∈ zs, s.holder z = none ∨ s.holder z = some v := by
  simp only [State.zonesOpen, List.all_eq_true]
  refine forall₂_congr fun z _ => ?_
  cases s.holder z <;> simp

/-- Filtering rising entries keeps an entry exactly where the filter does. -/
theorem Table.find_filter {α : Type} {t : Table α} (h : t.wf = true) (f : Nat × α → Bool) (k : Nat) :
    (⟨t.entries.filter f⟩ : Table α).find k = (t.find k).filter fun x => f (k, x) := by
  ext x
  rw [← Table.mem_entries_iff (Table.wf_filter t f h)]
  simp only [List.mem_filter, Table.mem_entries_iff h, Option.filter_eq_some_iff]

theorem State.holder_keepZone (hwf : s.locks.wf = true) (v z : Nat) (keep : Option Nat) :
    (s.keepZone v keep).holder z = if s.holder z = some v ∧ some z ≠ keep then none else s.holder z := by
  refine (Table.find_filter hwf _ z).trans ?_
  change (s.holder z).filter _ = _
  cases hz : s.holder z with
  | none => simp
  | some w =>
    by_cases hw : w = v <;> by_cases hk : some z = keep <;> simp [Option.filter, hw, hk]

end Sys2Proof.Machine
end

section
/-!
PROOF. The leg request (O24) and the selection and bay rules (O20, O21).
-/

namespace Sys2Proof.Machine

open Sys2Proof

variable {s t u : State}

/-! ### The least of a list -/

/-- The first least element of a list whose elements carry rising numbers is the least in the order of key and number. -/
theorem argmin_eq_some_iff_lex {α : Type} [DecidableEq α] {l : List α} {number key : α → Nat}
    (hasc : l.Pairwise fun a b => number a < number b) {x : α} :
    l.argmin key = some x ↔ x ∈ l ∧ ∀ y ∈ l, key x < key y ∨ (key x = key y ∧ number x ≤ number y) := by
  have hleast {x : α} (hx : l.argmin key = some x) : x ∈ l ∧ ∀ y ∈ l, key x < key y ∨ (key x = key y ∧ number x ≤ number y) := by
    refine ⟨List.argmin_mem hx, fun y hy => ?_⟩
    have hle : key x ≤ key y := List.le_of_mem_argmin hy hx
    rcases Nat.lt_or_ge (key x) (key y) with hlt | hge
    · exact .inl hlt
    have hindex := List.index_of_argmin hx hy hge
    have hxi := List.idxOf_lt_length_iff.2 (List.argmin_mem hx)
    have hyi := List.idxOf_lt_length_iff.2 hy
    refine .inr ⟨Nat.le_antisymm hle hge, ?_⟩
    rcases Nat.lt_or_eq_of_le hindex with hlt | heq
    · have := List.pairwise_iff_getElem.1 hasc _ _ hxi hyi hlt
      rw [List.getElem_idxOf, List.getElem_idxOf] at this
      exact Nat.le_of_lt this
    · have hxy : l[l.idxOf x] = l[l.idxOf y] := by simp only [heq]
      rw [List.getElem_idxOf, List.getElem_idxOf] at hxy
      rw [hxy]
  refine ⟨hleast, fun ⟨hmem, hmin⟩ => ?_⟩
  cases hy : l.argmin key with
  | none =>
    rw [List.argmin_eq_none.1 hy] at hmem
    exact absurd hmem List.not_mem_nil
  | some y =>
    obtain ⟨hymem, hymin⟩ := hleast hy
    have hnum : number x = number y := by
      have h1 := hmin y hymem
      have h2 := hymin x hmem
      omega
    by_contra hne
    have hne : x ≠ y := fun h => hne (h ▸ rfl)
    obtain ⟨i, hi, rfl⟩ := List.getElem_of_mem hmem
    obtain ⟨j, hj, rfl⟩ := List.getElem_of_mem hymem
    rcases Nat.lt_trichotomy i j with h | rfl | h
    · have := List.pairwise_iff_getElem.1 hasc _ _ hi hj h
      omega
    · exact hne rfl
    · have := List.pairwise_iff_getElem.1 hasc _ _ hj hi h
      omega

/-! ### The selection rule (R26, R27) -/

theorem State.eligibleTop_eq_some_iff {g w r : Nat} {b : Bay} {x : Reel} : s.eligibleTop g w b = some (r, x) ↔
    b.stack.getLast? = some r ∧ s.reel r = some x ∧ x.state = .stored ∧ x.grade = g ∧ x.width = w ∧ x.tag = none ∧
      x.restUntil ≤ s.clock.seconds ∧ b.inbound = 0 := by
  unfold State.eligibleTop Bay.top
  cases htop : b.stack.getLast? with
  | none => simp
  | some q =>
    dsimp only
    cases hq : s.reel q with
    | none =>
      simp only [Option.some.injEq, reduceCtorEq, false_iff, not_and]
      rintro rfl
      simp [hq]
    | some y =>
      simp only [Option.some.injEq, State.rested, Bool.and_eq_true, decide_eq_true_eq]
      constructor
      · intro h
        split at h
        case isTrue hfit =>
          cases h
          obtain ⟨⟨⟨⟨⟨h1, h2⟩, h3⟩, h4⟩, h5⟩, h6⟩ := hfit
          exact ⟨rfl, hq, h1, h2, h3, h4, h5, h6⟩
        case isFalse => cases h
      · rintro ⟨rfl, hr, h1, h2, h3, h4, h5, h6⟩
        obtain rfl : y = x := Option.some.inj (hq.symm.trans hr)
        exact if_pos ⟨⟨⟨⟨⟨h1, h2⟩, h3⟩, h4⟩, h5⟩, h6⟩

/-- The eligible top reels of a list of bays: the bay, the reel and its arrival. -/
def State.eligibleReels (s : State) (g w : Nat) (es : List (Nat × Bay)) : List (Nat × Nat × Nat) :=
  es.filterMap fun e => (s.eligibleTop g w e.2).map fun c => (e.1, c.1, c.2.arrival)

/-- The arrival of an eligible reel. -/
def arrivalOf (c : Nat × Nat × Nat) : Nat := c.2.2

/-- The model's walk over the bays keeps the first eligible reel of the least arrival. -/
theorem State.bestOf_eq (s : State) (g w : Nat) : ∀ (es : List (Nat × Bay)) (best : Option (Nat × Nat × Nat)),
    s.bestOf g w es (best.map (·.2)) =
      ((s.eligibleReels g w es).foldl (List.argAux fun a b => arrivalOf a < arrivalOf b) best).map (·.2)
  | [], _ => rfl
  | e :: es, best => by
    unfold State.bestOf
    cases he : s.eligibleTop g w e.2 with
    | none =>
      rw [State.bestOf_eq s g w es best]
      simp only [State.eligibleReels, List.filterMap_cons, he, Option.map_none]
    | some c =>
      have hlist : s.eligibleReels g w (e :: es) = (e.1, c.1, c.2.arrival) :: s.eligibleReels g w es := by
        simp only [State.eligibleReels, List.filterMap_cons, he, Option.map_some]
      rw [hlist, List.foldl_cons, ← State.bestOf_eq s g w es]
      cases best with
      | none => rfl
      | some b =>
        simp only [List.argAux, arrivalOf, Option.map_some]
        by_cases h : c.2.arrival < b.2.2 <;> simp only [h, if_true, if_false, Option.map_some]

theorem State.select_eq (s : State) (g w : Nat) :
    s.select g w = ((s.eligibleReels g w s.bays.entries).argmin arrivalOf).map fun c => c.2.1 := by
  have h := s.bestOf_eq g w s.bays.entries none
  rw [Option.map_none] at h
  rw [State.select, h, Option.map_map]
  rfl

theorem State.mem_eligibleReels (hwf : s.bays.wf = true) {g w n r a : Nat} : (n, r, a) ∈ s.eligibleReels g w s.bays.entries ↔
    ∃ b x, s.bay n = some b ∧ s.eligibleTop g w b = some (r, x) ∧ x.arrival = a := by
  simp only [State.eligibleReels, List.mem_filterMap, Option.map_eq_some_iff, Prod.exists, Prod.mk.injEq, Table.mem_entries_iff hwf]
  constructor
  · rintro ⟨n', b, hb, r', x, he, rfl, rfl, rfl⟩
    exact ⟨b, x, hb, he, rfl⟩
  · rintro ⟨b, x, hb, he, rfl⟩
    exact ⟨n, b, hb, r, x, he, rfl, rfl, rfl⟩

theorem State.eligibleReels_ascending (hwf : s.bays.wf = true) (g w : Nat) :
    (s.eligibleReels g w s.bays.entries).Pairwise fun a b => a.1 < b.1 := by
  refine List.pairwise_filterMap.2 ((Table.keys_ascending hwf).imp fun h a ha b hb => ?_)
  obtain ⟨-, -, rfl⟩ := Option.map_eq_some_iff.1 ha
  obtain ⟨-, -, rfl⟩ := Option.map_eq_some_iff.1 hb
  exact h

/-- Settles O20: the rule's walk is the least of the eligible reels by arrival and then by bay. -/
theorem selectionRule : Obligations.SelectionRule := by
  intro s g w fits hwf hfits
  have hmem (n r a : Nat) : (n, r, a) ∈ s.eligibleReels g w s.bays.entries ↔ ∃ x, fits n r x ∧ x.arrival = a := by
    rw [State.mem_eligibleReels hwf]
    simp only [hfits, State.eligibleTop_eq_some_iff]
    constructor
    · rintro ⟨b, x, hb, he, ha⟩
      exact ⟨x, ⟨b, hb, he⟩, ha⟩
    · rintro ⟨x, ⟨b, hb, he⟩, ha⟩
      exact ⟨b, x, hb, he, ha⟩
  have hasc := State.eligibleReels_ascending hwf g w
  rw [State.select_eq]
  refine ⟨?none, fun r => ?some⟩
  case none =>
    rw [Option.map_eq_none_iff, List.argmin_eq_none, List.eq_nil_iff_forall_not_mem]
    exact ⟨fun h n r x hx => h _ ((hmem n r x.arrival).2 ⟨x, hx, rfl⟩), fun h ⟨n, r, a⟩ hc =>
      ((hmem n r a).1 hc).elim fun x hx => h n r x hx.1⟩
  case some =>
    simp only [Option.map_eq_some_iff, argmin_eq_some_iff_lex hasc, Prod.exists, Prod.forall, arrivalOf]
    constructor
    · rintro ⟨n, r', a, ⟨hin, hmin⟩, rfl⟩
      obtain ⟨x, hx, rfl⟩ := (hmem n r' a).1 hin
      exact ⟨n, x, hx, fun n' q y hy => hmin n' q y.arrival ((hmem n' q y.arrival).2 ⟨y, hy, rfl⟩)⟩
    · rintro ⟨n, x, hx, hmin⟩
      refine ⟨n, r, x.arrival, ⟨(hmem n r x.arrival).2 ⟨x, hx, rfl⟩, fun n' q a hq => ?_⟩, rfl⟩
      obtain ⟨y, hy, rfl⟩ := (hmem n' q a).1 hq
      exact hmin n' q y hy

/-! ### The automatic bay choice (R25) -/

/-- The first bay of rising entries that satisfies a test is the lowest-numbered one. -/
theorem firstBay_eq_some {test : Nat → Bay → Bool} {k : Option Nat} {n : Nat} {b : Bay} : ∀ {es : List (Nat × Bay)},
    Table.risesFrom k es = true → (n, b) ∈ es → test n b = true → (∀ m c, (m, c) ∈ es → test m c = true → n ≤ m) →
    firstBay test es = some n
  | [], _, hmem, _, _ => absurd hmem List.not_mem_nil
  | (m, c) :: es, hrise, hmem, htest, hleast => by
    unfold firstBay
    have habove := Table.lt_of_risesFrom (Table.rises_tail hrise)
    rcases List.mem_cons.1 hmem with heq | hmem
    · cases heq
      exact if_pos htest
    · have hm : ¬test m c = true := fun hm => by
        have h1 := hleast m c List.mem_cons_self hm
        have h2 : m < n := habove _ hmem
        omega
      rw [if_neg hm]
      exact firstBay_eq_some (Table.rises_tail hrise) hmem htest fun i d hd => hleast i d (List.mem_cons_of_mem _ hd)

theorem firstBay_eq_none {test : Nat → Bay → Bool} : ∀ {es : List (Nat × Bay)}, (∀ m c, (m, c) ∈ es → ¬test m c = true) →
    firstBay test es = none
  | [], _ => rfl
  | (m, c) :: es, h => by
    unfold firstBay
    rw [if_neg (h m c List.mem_cons_self)]
    exact firstBay_eq_none fun i d hd => h i d (List.mem_cons_of_mem _ hd)

theorem State.topFree_iff {b : Bay} : s.topFree b = true ↔
    ∀ r, b.stack.getLast? = some r → ∃ x, s.reel r = some x ∧ x.state = .stored ∧ x.tag = none := by
  unfold State.topFree Bay.top
  cases b.stack.getLast? with
  | none => simp
  | some q => cases hq : s.reel q <;> simp [hq]

theorem State.hasRoom_iff {b : Bay} : s.hasRoom b = true ↔ b.stack.length + b.inbound < b.height ∧
    ∀ r, b.stack.getLast? = some r → ∃ x, s.reel r = some x ∧ x.state = .stored ∧ x.tag = none := by
  rw [State.hasRoom, Bool.and_eq_true, decide_eq_true_eq, State.topFree_iff]

theorem State.topMatches_iff {g w : Nat} {b : Bay} : s.topMatches g w b = true ↔
    ∃ r x, b.stack.getLast? = some r ∧ s.reel r = some x ∧ x.grade = g ∧ x.width = w := by
  unfold State.topMatches Bay.top
  cases b.stack.getLast? with
  | none => simp
  | some q => cases hq : s.reel q <;> simp [hq]

/-- Settles O21: each of the three steps is a lowest-numbered bay, and an earlier step that finds none leaves it to the next. -/
theorem automaticBayChoice : Obligations.AutomaticBayChoice := by
  intro s g w excluded room alike hwf hroom halike
  have hopen (n : Nat) (b : Bay) : (n, b) ∈ s.bays.entries ∧ (s.hasRoom b && decide (some n ≠ excluded)) = true ↔ room n b := by
    rw [hroom, Table.mem_entries_iff hwf, Bool.and_eq_true, decide_eq_true_eq, State.hasRoom_iff]
    change s.bay n = some b ∧ _ ↔ _
    tauto
  have hlike (n : Nat) (b : Bay) :
      (n, b) ∈ s.bays.entries ∧ (s.hasRoom b && decide (some n ≠ excluded) && s.topMatches g w b) = true ↔ alike n b := by
    rw [halike, ← hopen, Bool.and_eq_true, State.topMatches_iff, and_assoc]
  have hempty (n : Nat) (b : Bay) :
      (n, b) ∈ s.bays.entries ∧ (s.hasRoom b && decide (some n ≠ excluded) && (b.stack = [] && b.inbound = 0)) = true ↔
        room n b ∧ b.stack = [] ∧ b.inbound = 0 := by
    rw [← hopen, Bool.and_eq_true, Bool.and_eq_true (decide (b.stack = [])), decide_eq_true_eq, decide_eq_true_eq, and_assoc]
  have hnone {p : Nat → Bay → Prop} {test : Nat → Bay → Bool} (h : ∀ n b, (n, b) ∈ s.bays.entries ∧ test n b = true ↔ p n b)
      (hp : ∀ n b, ¬p n b) : firstBay test s.bays.entries = none :=
    firstBay_eq_none fun n b hmem htest => hp n b ((h n b).1 ⟨hmem, htest⟩)
  have hsome {p : Nat → Bay → Prop} {test : Nat → Bay → Bool} (h : ∀ n b, (n, b) ∈ s.bays.entries ∧ test n b = true ↔ p n b)
      {n : Nat} {b : Bay} (hp : p n b) (hleast : ∀ m c, p m c → n ≤ m) : firstBay test s.bays.entries = some n :=
    firstBay_eq_some hwf ((h n b).2 hp).1 ((h n b).2 hp).2 fun m c hmem htest => hleast m c ((h m c).1 ⟨hmem, htest⟩)
  unfold State.autoBay
  dsimp only
  refine ⟨fun n b hb hleast => ?_, fun n b halone hb hstack hin hleast => ?_, fun n b halone hfull hb hleast => ?_, fun hno => ?_⟩
  · rw [hsome hlike hb hleast]
  · rw [hnone hlike halone, hsome hempty ⟨hb, hstack, hin⟩ fun m c hc => hleast m c hc.1 hc.2.1 hc.2.2]
  · rw [hnone hlike halone, hnone hempty fun m c hc => hfull m c hc.1 hc.2]
    exact hsome hopen hb hleast
  · rw [hnone hlike fun m c hc => hno m c ((halike m c).1 hc).1, hnone hempty fun m c hc => hno m c hc.1]
    exact hnone hopen hno

/-! ### A leg request (R42, R47, R76) -/

@[simp] theorem State.setOrder_veh (s : State) (n : Nat) (x : Order) (v : Nat) : (s.setOrder n x).veh v = s.veh v := rfl
@[simp] theorem State.setOrder_reel (s : State) (n : Nat) (x : Order) (r : Nat) : (s.setOrder n x).reel r = s.reel r := rfl
@[simp] theorem State.setOrder_pos (s : State) (n : Nat) (x : Order) (p : Nat) : (s.setOrder n x).pos p = s.pos p := rfl
@[simp] theorem State.setOrder_bay (s : State) (n : Nat) (x : Order) (b : Nat) : (s.setOrder n x).bay b = s.bay b := rfl
@[simp] theorem State.setOrder_holder (s : State) (n : Nat) (x : Order) (z : Nat) : (s.setOrder n x).holder z = s.holder z := rfl

theorem State.enqueue_vlink_congr {s t : State} (h : t.vlink = s.vlink) (f : VehicleFrame) : (t.enqueue f).vlink = (s.enqueue f).vlink := by
  unfold State.enqueue
  rw [h]
  split <;> simp [State.setFrames, h]

theorem State.enqueue_vlink_eq (s : State) (f : VehicleFrame) : s.enqueue f = { s with vlink := (s.enqueue f).vlink } := by
  unfold State.enqueue
  split <;> rfl

/-- What a frame does to the outbound queue depends on the vehicle link alone. -/
theorem State.enqueue_eq_of_vlink {s u : State} (h : u.vlink = s.vlink) (f : VehicleFrame) :
    u.enqueue f = { u with vlink := (s.enqueue f).vlink } := by
  rw [← State.enqueue_vlink_congr h]
  exact State.enqueue_vlink_eq u f

/-- The order under an offer: its leg marked, its GO not yet sent. -/
def State.offered (s : State) (o : Order) (v : Nat) (zs : List Nat) : Order :=
  { o with
    state := .offered, reason := none, heldSince := none, legZones := zs, legPassed := leadingPassed (s.veh v).zone zs
    goSent := false }

/-- The order under a wait for its zones. -/
def State.heldForZones (s : State) (o : Order) (zs : List Nat) : Order :=
  { o with
    state := .heldZones, reason := none, heldSince := some s.clock.seconds, holdReported := false, legZones := zs, legPassed := 0
    goSent := false }

section
variable {n v target : Nat} {o : Order} {zs : List Nat}

theorem State.offerLeg_eq (s : State) (n : Nat) (o : Order) (v target : Nat) (zs : List Nat) : s.offerLeg n o v target zs = { s with
    orders := { s.orders with table := s.orders.table.insert n (s.offered o v zs) }
    locks := (s.giveZones v (s.askedZones zs target)).locks
    vlink := (s.enqueue (.go v n o.progress target o.action zs)).vlink } := by
  exact State.enqueue_eq_of_vlink (s := s) (u := (s.giveZones v (s.askedZones zs target)).setOrder n (s.offered o v zs)) rfl _

theorem State.askZones_open (h : s.zonesOpen v (s.askedZones zs target) = true) :
    s.askZones n o v target zs = s.offerLeg n o v target zs := if_pos h

theorem State.askZones_taken (h : ¬s.zonesOpen v (s.askedZones zs target) = true) :
    s.askZones n o v target zs = s.setOrder n (s.heldForZones o zs) := if_neg h

/-- The zones of the way from the vehicle to a node: none at the node, else the route's. -/
def State.wayZones (s : State) (v target : Nat) : Option (List Nat) :=
  if (s.veh v).node = target then some [] else (s.route (s.veh v).node target).map (·.zones)

theorem State.wayZones_eq_some_iff : s.wayZones v target = some zs ↔
    ((s.veh v).node = target ∧ zs = []) ∨
      ((s.veh v).node ≠ target ∧ ∃ r, s.route (s.veh v).node target = some r ∧ r.zones = zs) := by
  unfold State.wayZones
  split
  case isTrue h => simp [h, eq_comm]
  case isFalse h => simp [h]

theorem State.routeLeg_of_way (htarget : s.targetNode o = some target) (hway : s.wayZones v target = some zs) :
    s.routeLeg n o v = s.askZones n o v target zs := by
  simp only [State.routeLeg, htarget]
  rcases State.wayZones_eq_some_iff.1 hway with ⟨hat, rfl⟩ | ⟨hat, r, hr, rfl⟩
  · rw [if_pos hat]
  · rw [if_neg hat]
    simp only [hr]

theorem State.routeLeg_of_noRoute (htarget : s.targetNode o = some target) (hat : (s.veh v).node ≠ target)
    (hroute : s.route (s.veh v).node target = none) :
    s.routeLeg n o v = (s.setOrder n { o with
      state := .suspended, reason := some .noRoute, heldSince := none, legZones := [], goSent := false }).raise
        (.orderSuspended n .noRoute v (o.reel.getD 0)) := by
  simp only [State.routeLeg, htarget, if_neg hat, hroute, State.raiseSuspended]

/-- The order is on a carry leg to a position's arm. -/
def Order.carries (o : Order) (p : Nat) : Prop := (∃ a, o.destination = .arm p a) ∧ 2 ≤ o.progress

theorem State.requestLeg_plain (ho : s.order n = some o) (hv : o.vehicle = some v) (hdrive : (s.veh v).state.canDrive = true)
    (hplain : ∀ p, ¬o.carries p) : s.requestLeg n = s.routeLeg n o v := by
  simp only [State.requestLeg, ho, hv, hdrive, if_true]
  split
  case h_1 p a hdest hprogress => exact absurd ⟨⟨_, hdest⟩, of_decide_eq_true hprogress⟩ (hplain p)
  case h_2 => rfl

theorem State.requestLeg_carry (ho : s.order n = some o) (hv : o.vehicle = some v) (hdrive : (s.veh v).state.canDrive = true)
    {p : Nat} (hcarry : o.carries p) : s.requestLeg n =
      if (s.pos p).arm (s.pos p).standbyArm = none then s.routeLeg n { o with targetArm := some (s.pos p).standbyArm } v
      else s.setOrder n { o with state := .heldArm, reason := none, heldSince := none, legZones := [], goSent := false } := by
  obtain ⟨⟨a, hdest⟩, hprogress⟩ := hcarry
  simp only [State.requestLeg, ho, hv, hdrive, if_true, hdest, hprogress, decide_true]

end

theorem VehicleState.canDrive_iff {x : VehicleState} : x.canDrive = true ↔ x = .idle ∨ x = .offered ∨ x = .driving := by
  cases x <;> simp [VehicleState.canDrive]

theorem Order.sameTask_refl (o : Order) : o.sameTask o := ⟨rfl, rfl, rfl, rfl, rfl, rfl, rfl, rfl, rfl, rfl, rfl⟩

/-- Settles O24: the order is routed as it is or with the arm it is bound for, and then the way and its zones decide. -/
theorem legRequest : Obligations.LegRequest := by
  intro s n v target o o₁ ho hv hstate htarget
  have hdrive : (s.veh v).state.canDrive = true := VehicleState.canDrive_iff.2 hstate
  refine ⟨fun hleg => ?_, fun p a hdest hprogress harm => ?_, fun hheld hfree => ?_⟩
  · obtain ⟨hrequest, htarget₁, hgo, hreel₁⟩ : s.requestLeg n = s.routeLeg n o₁ v ∧ s.targetNode o₁ = some target ∧
        (∀ zs, VehicleFrame.go v n o₁.progress target o₁.action zs = .go v n o.progress target o.action zs) ∧ o₁.reel = o.reel := by
      rcases hleg with ⟨hplain, rfl⟩ | ⟨p, a, hdest, hprogress, harm, rfl⟩
      · refine ⟨State.requestLeg_plain ho hv hdrive ?_, htarget, fun _ => rfl, rfl⟩
        rintro p ⟨⟨a, hdest⟩, hprogress⟩
        rcases hplain with h | h
        · omega
        · exact h p a hdest
      · exact ⟨(State.requestLeg_carry ho hv hdrive ⟨⟨a, hdest⟩, hprogress⟩).trans (if_pos harm), htarget, fun _ => rfl, rfl⟩
    refine ⟨fun hat hroute => ?_, fun zs hway => ⟨fun hfree => ?_, fun htaken => ?_⟩⟩
    · rw [hrequest, State.routeLeg_of_noRoute htarget₁ hat hroute, hreel₁]
    · rw [hrequest, State.routeLeg_of_way htarget₁ (State.wayZones_eq_some_iff.2 hway),
        State.askZones_open (State.zonesOpen_iff.2 hfree), State.offerLeg_eq, hgo]
      refine ⟨Table.find_insert_same _ _ _, fun k hk => Table.find_insert_other _ hk _, fun z hz => ?_, fun z hz => ?_, rfl, rfl, rfl, rfl⟩
      · exact (s.holder_giveZones v z _).trans (if_pos hz)
      · exact (s.holder_giveZones v z _).trans (if_neg hz)
    · obtain ⟨z, hz, h, hholder, hne⟩ := htaken
      rw [hrequest, State.routeLeg_of_way htarget₁ (State.wayZones_eq_some_iff.2 hway), State.askZones_taken]
      · rfl
      · intro hopen
        rcases State.zonesOpen_iff.1 hopen z hz with hn | hn
        · rw [hn] at hholder
          cases hholder
        · rw [hn] at hholder
          exact hne (Option.some.inj hholder).symm
  · exact (State.requestLeg_carry ho hv hdrive ⟨⟨a, hdest⟩, hprogress⟩).trans (if_neg harm)
  · have hgrant : s.grantOne n = s.offerLeg n o v target o.legZones := by
      simp only [State.grantOne, ho, hheld, hv, htarget, State.zonesOpen_iff.2 hfree, if_true]
    rw [hgrant, State.offerLeg_eq]
    refine ⟨⟨_, Table.find_insert_same _ _ _, rfl, o.sameTask_refl⟩, fun z hz => ?_, rfl⟩
    exact (s.holder_giveZones v z _).trans (if_pos hz)

end Sys2Proof.Machine
end

section
/-!
PROOF. The passes that end an event (O39): what a leg request, a grant, an assignment and a demand served may change, and so what the close
of an event may.
-/

namespace Sys2Proof.Machine

open Sys2Proof

variable {s t u w : State} {n v target : Nat} {o : Order} {zs : List Nat}

/-! ### What a leg request changes -/

/-- `u` is `s` after a leg request of order `n`: the order keeps its task and its vehicle, no zone is taken from its holder, no queued frame
is lost, and nothing else changes. -/
structure State.Legged (s u : State) (n : Nat) : Prop where
  rest : u = { s with
    orders := { s.orders with table := u.orders.table }, locks := u.locks, notices := u.notices
    vlink := { s.vlink with queue := u.vlink.queue, waiting := u.vlink.waiting } }
  others : ∀ k, k ≠ n → u.order k = s.order k
  absent : s.order n = none → u.order n = none
  order : ∀ o, s.order n = some o → ∃ o', u.order n = some o' ∧ o.sameTask o' ∧ o'.vehicle = o.vehicle ∧
    ((∀ p a, o.destination ≠ .arm p a) → o'.targetArm = o.targetArm)
  holder : ∀ z v, s.holder z = some v → u.holder z = some v
  frames : ∀ f ∈ s.vlink.queue ++ s.vlink.waiting, f ∈ u.vlink.queue ++ u.vlink.waiting

theorem State.Legged.refl (s : State) (n : Nat) : s.Legged s n where
  rest := rfl
  others _ _ := rfl
  absent h := h
  order o h := ⟨o, h, o.sameTask_refl, rfl, fun _ => rfl⟩
  holder _ _ h := h
  frames _ h := h

/-- An order changed in its leg alone. -/
theorem State.Legged.setOrder (ho : s.order n = some o) {x : Order} (hsame : o.sameTask x) (hv : x.vehicle = o.vehicle)
    (harm : (∀ p a, o.destination ≠ .arm p a) → x.targetArm = o.targetArm) : s.Legged (s.setOrder n x) n where
  rest := rfl
  others k hk := by simp [hk]
  absent h := by rw [h] at ho; cases ho
  order o' h := by
    obtain rfl : o = o' := Option.some.inj (ho.symm.trans h)
    exact ⟨x, by simp, hsame, hv, harm⟩
  holder _ _ h := h
  frames _ h := h

theorem State.Legged.raise (h : s.Legged u n) (b : Subjects) : s.Legged (u.raise b) n := by
  rw [State.raise_eq]
  obtain ⟨rest, others, absent, order, holder, frames⟩ := h
  exact ⟨by rw [rest], others, absent, order, holder, frames⟩

theorem State.Legged.offerLeg (ho : s.order n = some o) {x : Order} (hsame : o.sameTask x) (hv : x.vehicle = o.vehicle)
    (harm : (∀ p a, o.destination ≠ .arm p a) → x.targetArm = o.targetArm) (hopen : s.zonesOpen v (s.askedZones zs target) = true) :
    s.Legged (s.offerLeg n x v target zs) n := by
  rw [State.offerLeg_eq, State.enqueue_eq]
  have hset := State.Legged.setOrder ho (x := s.offered x v zs) hsame hv harm
  refine ⟨rfl, hset.others, hset.absent, hset.order, fun z k hz => ?_, fun f hf => State.mem_enqueue hf⟩
  refine (s.holder_giveZones v z _).trans ?_
  split
  case isTrue hmem =>
    rcases State.zonesOpen_iff.1 hopen z hmem with hn | hn
    · rw [hn] at hz
      cases hz
    · rw [← hz, hn]
  case isFalse => exact hz

theorem State.Legged.askZones (ho : s.order n = some o) {x : Order} (hsame : o.sameTask x) (hv : x.vehicle = o.vehicle)
    (harm : (∀ p a, o.destination ≠ .arm p a) → x.targetArm = o.targetArm) (v target : Nat) (zs : List Nat) :
    s.Legged (s.askZones n x v target zs) n := by
  by_cases hopen : s.zonesOpen v (s.askedZones zs target) = true
  · rw [State.askZones_open hopen]
    exact .offerLeg ho hsame hv harm hopen
  · rw [State.askZones_taken hopen]
    exact .setOrder ho hsame hv harm

theorem State.Legged.routeLeg (ho : s.order n = some o) {x : Order} (hsame : o.sameTask x) (hv : x.vehicle = o.vehicle)
    (harm : (∀ p a, o.destination ≠ .arm p a) → x.targetArm = o.targetArm) (v : Nat) : s.Legged (s.routeLeg n x v) n := by
  unfold State.routeLeg
  split
  · exact .refl s n
  split
  · exact .askZones ho hsame hv harm _ _ _
  split
  · exact .askZones ho hsame hv harm _ _ _
  · refine State.Legged.raise (.setOrder ho ?_ ?_ ?_) _
    · exact hsame
    · exact hv
    · exact harm

theorem State.requestLeg_legged (s : State) (n : Nat) : s.Legged (s.requestLeg n) n := by
  cases ho : s.order n with
  | none =>
    simp only [State.requestLeg, ho]
    exact .refl s n
  | some o =>
  cases hv : o.vehicle with
  | none =>
    simp only [State.requestLeg, ho, hv]
    exact .refl s n
  | some v =>
  by_cases hdrive : (s.veh v).state.canDrive = true
  · by_cases hcarry : ∃ p, o.carries p
    · obtain ⟨p, hcarry⟩ := hcarry
      obtain ⟨⟨a, hdest⟩, -⟩ := id hcarry
      rw [State.requestLeg_carry ho hv hdrive hcarry]
      split
      · exact .routeLeg (x := { o with targetArm := some (s.pos p).standbyArm }) ho o.sameTask_refl rfl (fun h => absurd hdest (h p a)) v
      · exact .setOrder ho o.sameTask_refl rfl fun _ => rfl
    · rw [State.requestLeg_plain ho hv hdrive fun p hp => hcarry ⟨p, hp⟩]
      exact .routeLeg ho o.sameTask_refl rfl (fun _ => rfl) v
  · simp only [State.requestLeg, ho, hv, hdrive]
    exact .refl s n

/-- A leg request along a way that there is raises no notice. -/
theorem State.routeLeg_notices (hway : ∀ target, s.targetNode o = some target → (s.wayZones v target).isSome = true) :
    (s.routeLeg n o v).notices = s.notices := by
  cases htarget : s.targetNode o with
  | none => simp only [State.routeLeg, htarget]
  | some target =>
    obtain ⟨zs, hzs⟩ := Option.isSome_iff_exists.1 (hway target htarget)
    rw [State.routeLeg_of_way htarget hzs]
    by_cases hopen : s.zonesOpen v (s.askedZones zs target) = true
    · rw [State.askZones_open hopen, State.offerLeg_eq]
    · rw [State.askZones_taken hopen]
      rfl

theorem State.requestLeg_notices (ho : s.order n = some o) (hv : o.vehicle = some v)
    (hway : ∀ target, s.targetNode o = some target → (s.wayZones v target).isSome = true) :
    (s.requestLeg n).notices = s.notices := by
  by_cases hdrive : (s.veh v).state.canDrive = true
  · by_cases hcarry : ∃ p, o.carries p
    · obtain ⟨p, hcarry⟩ := hcarry
      rw [State.requestLeg_carry ho hv hdrive hcarry]
      split
      · exact State.routeLeg_notices (o := { o with targetArm := _ }) hway
      · rfl
    · rw [State.requestLeg_plain ho hv hdrive fun p hp => hcarry ⟨p, hp⟩]
      exact State.routeLeg_notices hway
  · simp only [State.requestLeg, ho, hv, hdrive]
    rfl

/-! ### The vehicle of an assignment (R44) -/

/-- The vehicles of a list that may take an order to a node, each with its route length. -/
def State.candidates (s : State) (target : Nat) (vs : List Nat) : List (Nat × Nat) :=
  vs.filterMap fun v => if s.freeVehicle v then (s.distance v target).map fun d => (v, d) else none

theorem State.nearest_eq (s : State) (target : Nat) : ∀ (vs : List Nat) (best : Option (Nat × Nat)),
    s.nearest target vs best = (s.candidates target vs).foldl (List.argAux fun a b => a.2 < b.2) best
  | [], _ => rfl
  | v :: vs, best => by
    unfold State.nearest
    by_cases hfree : s.freeVehicle v = true
    case neg =>
      rw [if_neg hfree, State.nearest_eq s target vs best]
      simp only [State.candidates, List.filterMap_cons, hfree]
      rfl
    rw [if_pos hfree]
    cases hd : s.distance v target with
    | none =>
      dsimp only
      rw [State.nearest_eq s target vs best]
      simp only [State.candidates, List.filterMap_cons, hfree, if_true, hd, Option.map_none]
    | some d =>
      have hlist : s.candidates target (v :: vs) = (v, d) :: s.candidates target vs := by
        simp only [State.candidates, List.filterMap_cons, hfree, if_true, hd, Option.map_some]
      rw [hlist, List.foldl_cons, ← State.nearest_eq s target vs]
      cases best with
      | none => rfl
      | some b => rfl

theorem State.mem_candidates {vs : List Nat} {d : Nat} :
    (v, d) ∈ s.candidates target vs ↔ v ∈ vs ∧ s.freeVehicle v = true ∧ s.distance v target = some d := by
  simp only [State.candidates, List.mem_filterMap]
  constructor
  · rintro ⟨k, hk, h⟩
    split at h
    case isTrue hfree =>
      obtain ⟨e, he, heq⟩ := Option.map_eq_some_iff.1 h
      cases heq
      exact ⟨hk, hfree, he⟩
    case isFalse => cases h
  · rintro ⟨hv, hfree, hd⟩
    exact ⟨v, hv, by rw [if_pos hfree, hd, Option.map_some]⟩

theorem State.candidates_ascending (s : State) (target : Nat) : (s.candidates target allVehicles).Pairwise fun a b => a.1 < b.1 := by
  have hasc : allVehicles.Pairwise (· < ·) := by decide
  refine List.pairwise_filterMap.2 (hasc.imp fun {i j} h a ha b hb => ?_)
  have hfst {k : Nat} {c : Nat × Nat} (hc : (if s.freeVehicle k then (s.distance k target).map fun d => (k, d) else none) = some c) :
      c.1 = k := by
    split at hc
    · obtain ⟨-, -, rfl⟩ := Option.map_eq_some_iff.1 hc
      rfl
    · cases hc
  rw [hfst ha, hfst hb]
  exact h

theorem State.nearest_none_iff : s.nearest target allVehicles none = none ↔
    ∀ v d, v ∈ allVehicles → s.freeVehicle v = true → s.distance v target ≠ some d := by
  rw [State.nearest_eq]
  refine (List.foldl_argAux_eq_none _).trans ?_
  simp only [and_true, List.eq_nil_iff_forall_not_mem, Prod.forall, State.mem_candidates, not_and, ne_eq]

/-- The vehicle taken is the candidate of the shortest way, the lower number between equals. -/
theorem State.nearest_some_iff {d : Nat} : s.nearest target allVehicles none = some (v, d) ↔
    (v ∈ allVehicles ∧ s.freeVehicle v = true ∧ s.distance v target = some d) ∧
      ∀ k e, (k ∈ allVehicles ∧ s.freeVehicle k = true ∧ s.distance k target = some e) → d < e ∨ (d = e ∧ v ≤ k) := by
  rw [State.nearest_eq]
  refine (argmin_eq_some_iff_lex (number := fun a : Nat × Nat => a.1) (s.candidates_ascending target)).trans ?_
  simp only [Prod.forall, State.mem_candidates]

theorem State.distance_eq_some_iff {d : Nat} : s.distance v target = some d ↔ ((s.veh v).node = target ∧ d = 0) ∨
    ((s.veh v).node ≠ target ∧ ∃ r, s.route (s.veh v).node target = some r ∧ r.length = d) := by
  unfold State.distance
  split
  case isTrue h => simp [h, eq_comm]
  case isFalse h => simp [h]

theorem State.wayZones_isSome_of_distance (h : (s.distance v target).isSome = true) : (s.wayZones v target).isSome = true := by
  unfold State.distance at h
  unfold State.wayZones
  split
  · rfl
  · rw [if_neg ‹_›] at h
    simpa using h

theorem State.idle_of_freeVehicle (h : s.freeVehicle v = true) : (s.veh v).state = .idle := by
  simp only [State.freeVehicle, Bool.and_eq_true, decide_eq_true_eq] at h
  exact h.1.1.1.1

/-! ### What a pass changes -/

/-- `u` is `s` after passes that end an event, as the statement about them says. -/
structure State.Passed (s u : State) : Prop where
  apart : u.apart = s.apart
  bays : u.bays = s.bays
  notices : u.notices = s.notices
  orders : ∀ t o, s.order t = some o → ∃ o', u.order t = some o' ∧ o.sameTask o' ∧
    (o.state ≠ .waiting → o.state ≠ .heldZones → o' = o)
  vehicles : ∀ v, ∃ order, u.veh v = { s.veh v with order := order } ∧ ((s.veh v).state ≠ .idle → order = (s.veh v).order)
  holder : ∀ z v, s.holder z = some v → u.holder z = some v
  frames : ∀ f ∈ s.vlink.queue ++ s.vlink.waiting, f ∈ u.vlink.queue ++ u.vlink.waiting
  noReel : ∀ r, s.reel r = none → u.reel r = none
  reels : ∀ r x, s.reel r = some x → ∃ y, u.reel r = some y ∧ (x.state ≠ .stored → y = x) ∧
    y = { x with state := y.state, reservation := y.reservation, tag := y.tag }
  positions : ∀ p, (u.pos p).core = (s.pos p).core
  demands : u.demands.Sublist s.demands

theorem Order.sameTask_trans {a b c : Order} (h : a.sameTask b) (k : b.sameTask c) : a.sameTask c := by
  obtain ⟨h1, h2, h3, h4, h5, h6, h7, h8, h9, h10, h11⟩ := h
  obtain ⟨k1, k2, k3, k4, k5, k6, k7, k8, k9, k10, k11⟩ := k
  exact ⟨k1.trans h1, k2.trans h2, k3.trans h3, k4.trans h4, k5.trans h5, k6.trans h6, k7.trans h7, k8.trans h8, k9.trans h9,
    k10.trans h10, k11.trans h11⟩

theorem State.Passed.refl (s : State) : s.Passed s where
  apart := rfl
  bays := rfl
  notices := rfl
  orders _ o h := ⟨o, h, o.sameTask_refl, fun _ _ => rfl⟩
  vehicles _ := ⟨_, rfl, fun _ => rfl⟩
  holder _ _ h := h
  frames _ h := h
  noReel _ h := h
  reels _ x h := ⟨x, h, fun _ => rfl, rfl⟩
  positions _ := rfl
  demands := .refl _

theorem State.Passed.trans (h : s.Passed t) (k : t.Passed u) : s.Passed u where
  apart := k.apart.trans h.apart
  bays := k.bays.trans h.bays
  notices := k.notices.trans h.notices
  orders n o ho := by
    obtain ⟨p, hp, hsame, hkeep⟩ := h.orders n o ho
    obtain ⟨q, hq, ksame, kkeep⟩ := k.orders n p hp
    refine ⟨q, hq, Order.sameTask_trans hsame ksame, fun h1 h2 => ?_⟩
    cases hkeep h1 h2
    exact kkeep h1 h2
  vehicles v := by
    obtain ⟨a, ha, hidle⟩ := h.vehicles v
    obtain ⟨b, hb, kidle⟩ := k.vehicles v
    refine ⟨b, by rw [hb, ha], fun hstate => ?_⟩
    rw [kidle (by rw [ha]; exact hstate), ha]
    exact hidle hstate
  holder z v hz := k.holder z v (h.holder z v hz)
  frames f hf := k.frames f (h.frames f hf)
  noReel r hr := k.noReel r (h.noReel r hr)
  reels r x hx := by
    obtain ⟨y, hy, hkeep, heq⟩ := h.reels r x hx
    obtain ⟨z, hz, kkeep, keq⟩ := k.reels r y hy
    refine ⟨z, hz, fun hstate => ?_, by rw [keq, heq]⟩
    cases hkeep hstate
    exact kkeep hstate
  positions p := (k.positions p).trans (h.positions p)
  demands := k.demands.trans h.demands

theorem State.Passed.foldl {α : Type} {f : State → α → State} (hf : ∀ (s : State) (a : α), s.Passed (f s a)) : ∀ (as : List α) (s : State),
    s.Passed (as.foldl f s)
  | [], s => .refl s
  | a :: as, s => (hf s a).trans (State.Passed.foldl hf as (f s a))

/-- A leg request without a notice, of an order that waits, is of the passes' kind. -/
theorem State.Legged.passed (h : s.Legged u n) (hnotices : u.notices = s.notices)
    (hwaits : ∀ o, s.order n = some o → o.state = .waiting ∨ o.state = .heldZones) : s.Passed u := by
  have hrest := h.rest
  exact {
    apart := by rw [hrest, hnotices]; rfl
    bays := by rw [hrest]
    notices := hnotices
    orders := fun k o ho => by
      by_cases hk : k = n
      · subst hk
        obtain ⟨o', ho', hsame, -, -⟩ := h.order o ho
        exact ⟨o', ho', hsame, fun h1 h2 => ((hwaits o ho).elim h1 h2).elim⟩
      · exact ⟨o, (h.others k hk).trans ho, o.sameTask_refl, fun _ _ => rfl⟩
    vehicles := fun v => ⟨(s.veh v).order, by rw [hrest]; rfl, fun _ => rfl⟩
    holder := h.holder
    frames := h.frames
    noReel := fun r hr => by rw [hrest]; exact hr
    reels := fun r x hx => ⟨x, by rw [hrest]; exact hx, fun _ => rfl, rfl⟩
    positions := fun p => by rw [hrest]; rfl
    demands := by rw [hrest] }

theorem State.grantOne_passed (s : State) (n : Nat) : s.Passed (s.grantOne n) := by
  unfold State.grantOne
  split
  case h_2 => exact .refl s
  case h_1 o ho =>
    split
    case h_2 => exact .refl s
    case h_1 v target hstate hv htarget =>
      split
      case isFalse => exact .refl s
      case isTrue hopen =>
        refine (State.Legged.offerLeg ho o.sameTask_refl rfl (fun _ => rfl) hopen).passed (by rw [State.offerLeg_eq]) fun x hx => .inr ?_
        obtain rfl : o = x := Option.some.inj (ho.symm.trans hx)
        exact hstate

/-- A WAITING order bound to an IDLE vehicle that has a way to it. -/
theorem State.bind_passed (ho : s.order n = some o) (hwaiting : o.state = .waiting) (hidle : (s.veh v).state = .idle)
    (hway : ∀ target, s.targetNode o = some target → (s.wayZones v target).isSome = true) : s.Passed (s.bind n o v) := by
  have hbound : s.Passed ((s.setOrder n { o with vehicle := some v }).onVeh v fun x => { x with order := some n }) := {
    apart := rfl
    bays := rfl
    notices := rfl
    orders := fun k x hx => by
      by_cases hk : k = n
      · subst hk
        obtain rfl : o = x := Option.some.inj (ho.symm.trans hx)
        exact ⟨_, Table.find_insert_same _ _ _, o.sameTask_refl, fun h => absurd hwaiting h⟩
      · exact ⟨x, (Table.find_insert_other _ hk _).trans hx, x.sameTask_refl, fun _ _ => rfl⟩
    vehicles := fun k => by
      by_cases hk : k = v
      · subst hk
        exact ⟨some n, by simp, fun h => absurd hidle h⟩
      · exact ⟨(s.veh k).order, by simp [hk], fun _ => rfl⟩
    holder := fun _ _ h => h
    frames := fun _ h => h
    noReel := fun _ h => h
    reels := fun _ x h => ⟨x, h, fun _ => rfl, rfl⟩
    positions := fun _ => rfl
    demands := .refl _ }
  have horder : ((s.setOrder n { o with vehicle := some v }).onVeh v fun x => { x with order := some n }).order n =
      some { o with vehicle := some v } := Table.find_insert_same _ _ _
  refine hbound.trans ((State.requestLeg_legged _ n).passed (State.requestLeg_notices horder rfl fun target htarget => ?_)
    fun x hx => .inl ?_)
  · have hsome := hway target htarget
    unfold State.wayZones at hsome ⊢
    rw [State.onVeh_veh_same]
    exact hsome
  · rw [horder] at hx
    cases hx
    exact hwaiting

theorem State.assignOne_passed (s : State) (n : Nat) : s.Passed (s.assignOne n) := by
  unfold State.assignOne
  split
  · exact .refl s
  case h_2 o ho =>
  split
  · exact .refl s
  case isFalse hwaiting =>
  have hwaiting := not_not.1 hwaiting
  split
  · exact .refl s
  case h_2 target htarget =>
  have hways {v : Nat} (hd : (s.distance v target).isSome = true) (k : Nat) (hk : s.targetNode o = some k) :
      (s.wayZones v k).isSome = true := by
    obtain rfl : target = k := Option.some.inj (htarget.symm.trans hk)
    exact State.wayZones_isSome_of_distance hd
  split
  · split
    case isTrue h => exact State.bind_passed ho hwaiting h.1 (hways h.2.2)
    case isFalse => exact .refl s
  · exact .refl s
  · split
    case h_1 v d hnear =>
      obtain ⟨⟨-, hfree, hd⟩, -⟩ := State.nearest_some_iff.1 hnear
      exact State.bind_passed ho hwaiting (State.idle_of_freeVehicle hfree) (hways (by rw [hd]; rfl))
    case h_2 => exact .refl s

/-! ### What a grant and an assignment leave as they are -/

/-- `u` has the reels, the positions and the Demand Queue of `s`. -/
def State.Quiet (s u : State) : Prop := u.reels = s.reels ∧ u.positions = s.positions ∧ u.demands = s.demands

theorem State.Quiet.refl (s : State) : s.Quiet s := ⟨rfl, rfl, rfl⟩

theorem State.Quiet.trans (h : s.Quiet t) (k : t.Quiet u) : s.Quiet u := ⟨k.1.trans h.1, k.2.1.trans h.2.1, k.2.2.trans h.2.2⟩

theorem State.Quiet.foldl {α : Type} {f : State → α → State} (hf : ∀ (s : State) (a : α), s.Quiet (f s a)) : ∀ (as : List α) (s : State),
    s.Quiet (as.foldl f s)
  | [], s => .refl s
  | a :: as, s => (hf s a).trans (State.Quiet.foldl hf as (f s a))

theorem State.Legged.quiet (h : s.Legged u n) : s.Quiet u := by
  have hrest := h.rest
  rw [hrest]
  exact ⟨rfl, rfl, rfl⟩

theorem State.grantOne_quiet (s : State) (n : Nat) : s.Quiet (s.grantOne n) := by
  unfold State.grantOne
  split
  case h_2 => exact .refl s
  case h_1 o ho =>
    split
    case h_2 => exact .refl s
    case h_1 v target _ _ _ =>
      split
      case isFalse => exact .refl s
      case isTrue hopen => exact (State.Legged.offerLeg ho o.sameTask_refl rfl (fun _ => rfl) hopen).quiet

theorem State.bind_quiet (s : State) (n : Nat) (o : Order) (v : Nat) : s.Quiet (s.bind n o v) := (State.requestLeg_legged _ n).quiet

theorem State.assignOne_quiet (s : State) (n : Nat) : s.Quiet (s.assignOne n) := by
  unfold State.assignOne
  split
  · exact .refl s
  split
  · exact .refl s
  split
  · exact .refl s
  split
  · split
    · exact s.bind_quiet _ _ _
    · exact .refl s
  · exact .refl s
  · split
    · exact s.bind_quiet _ _ _
    · exact .refl s

end Sys2Proof.Machine
end

section
/-!
PROOF. A demand served (R34), the order of a pass (R44, R77), and what the close of an event does (O39).
-/

namespace Sys2Proof.Machine

open Sys2Proof

variable {s t u : State} {n v target p r : Nat} {o : Order} {q : Priority}

/-! ### A DELIVER made (R40) -/

/-- What a DELIVER of reel `r` for position `p` is made of. -/
def State.deliverOrder (s : State) (p r : Nat) (q : Priority) : NewOrder :=
  ⟨.deliver, q, some r, s.bayPlace r, .arm p none, some p, none⟩

/-- A position whose DELIVER has been made. -/
def Position.ordered (x : Position) : Position := { x with callOff := { x.callOff with state := .ordered, ordersFull := false } }

theorem State.makeDeliver_eq (s : State) (p r : Nat) (q : Priority) : s.makeDeliver p r q = { s with
    reels := taggedReels s (s.deliverOrder p r q)
    demands := s.demands.filter fun e => decide (e.position ≠ p)
    positions := s.positions.insert p (s.pos p).ordered
    orders := if q = .urgent then ((s.createOrder (s.deliverOrder p r q)).raiseDisposals p).orders
      else (s.createOrder (s.deliverOrder p r q)).orders } := by
  unfold State.makeDeliver
  dsimp only
  rw [show s.createOrder ⟨.deliver, q, some r, s.bayPlace r, .arm p none, some p, none⟩ = _ from s.createOrder_eq (s.deliverOrder p r q),
    s.createOrder_eq (s.deliverOrder p r q)]
  split <;> rfl

theorem State.makeDeliver_normal_orders (s : State) (p r : Nat) :
    (s.makeDeliver p r .normal).orders = (s.createOrder (s.deliverOrder p r .normal)).orders := by
  rw [State.makeDeliver_eq]
  rfl

/-- The order a RETURN or CLEAR disposes with, after the DELIVER in its way has become URGENT. -/
theorem State.raiseDisposals_order (s : State) (p k : Nat) : (s.raiseDisposals p).order k =
    (s.order k).map fun o => if o.disposesAt p then { o with priority := .urgent } else o := by
  refine (Table.find_mapEntries _ _ k).trans ?_
  rfl

/-! ### A demand served (R34) -/

theorem State.select_stored (h : s.select g w = some r) : ∃ x, s.reel r = some x ∧ x.state = .stored := by
  rw [State.select_eq, Option.map_eq_some_iff] at h
  obtain ⟨⟨k, r', a⟩, hmin, rfl⟩ := h
  obtain ⟨e, -, he⟩ := List.mem_filterMap.1 (List.argmin_mem hmin)
  obtain ⟨⟨r'', x⟩, hx, heq⟩ := Option.map_eq_some_iff.1 he
  cases heq
  obtain ⟨-, hreel, hstored, -⟩ := State.eligibleTop_eq_some_iff.1 hx
  exact ⟨x, hreel, hstored⟩

/-- The part with reel `r` RESERVED for the position `p`, whose demand waits no longer. -/
def State.servedFrom (s : State) (r p : Nat) : State := (s.reserve r p).leaveQueue p

theorem State.servedFrom_eq (s : State) (r p : Nat) : s.servedFrom r p = { s with
    reels := (s.reserve r p).reels
    rest := { s.rest with watch := (s.reserve r p).rest.watch }
    demands := s.demands.filter fun e => decide (e.position ≠ p) } := by
  unfold State.servedFrom State.reserve State.rewatch
  rw [State.onReel_eq]
  rfl

theorem State.reserve_reel (s : State) (r p k : Nat) : (s.reserve r p).reel k =
    if k = r then (s.reel r).map fun x => { x with state := .reserved, reservation := some p } else s.reel k := s.reel_onReel r k _

theorem State.serveDemand_of_select {e : DemandEntry} (h : s.select e.grade e.width = some r) : s.serveDemand e =
    if s.reacts 7 then (s.servedFrom r e.position).deliverOrBacklog e.position r
    else (s.servedFrom r e.position).setCallOff e.position .raised false := by
  have hreacts : (s.servedFrom r e.position).reacts 7 = s.reacts 7 := by
    rw [State.servedFrom_eq]
    rfl
  unfold State.servedFrom at hreacts
  simp only [State.serveDemand, h, hreacts]
  rfl

theorem BacklogItem.slot_delivery_iff {i : BacklogItem} : i.slot = (BacklogItem.delivery p r q).slot ↔ i.isDeliveryOf p = true := by
  cases i <;> simp [BacklogItem.slot, BacklogItem.isDeliveryOf]

theorem State.joinBacklog_of_none {i : BacklogItem} (h : ∀ j ∈ s.orders.backlog, j.slot ≠ i.slot) :
    s.joinBacklog i = s.setBacklog (s.orders.backlog ++ [i]) := if_neg (by simpa using h)

theorem State.joinBacklog_of_some {i : BacklogItem} (h : ∃ j ∈ s.orders.backlog, j.slot = i.slot) : s.joinBacklog i = s :=
  if_pos (by simpa using h)

theorem State.joinBacklog_eq (s : State) (i : BacklogItem) :
    s.joinBacklog i = { s with orders := { s.orders with backlog := (s.joinBacklog i).orders.backlog } } := by
  unfold State.joinBacklog
  split <;> rfl

theorem State.bayPlace_congr {s t : State} (h : (t.reel r).bind Reel.place = (s.reel r).bind Reel.place) : t.bayPlace r = s.bayPlace r := by
  unfold State.bayPlace
  rw [h]

/-- A reel reserved stands where it stood. -/
theorem State.servedFrom_bayPlace (s : State) (r p k : Nat) : (s.servedFrom r p).bayPlace k = s.bayPlace k := by
  refine State.bayPlace_congr ?_
  change ((s.reserve r p).reel k).bind Reel.place = _
  rw [State.reserve_reel]
  split
  case isTrue h =>
    subst h
    cases s.reel k <;> rfl
  case isFalse => rfl

theorem State.servedFrom_tagged (s : State) (p r k : Nat) : (taggedReels (s.servedFrom r p) (s.deliverOrder p r .normal)).find k =
    if k = r then (s.reel r).map fun x => { x with state := .reserved, reservation := some p, tag := some s.nextTag } else s.reel k := by
  rw [taggedReels_find]
  change (if some r = some k then ((s.reserve r p).reel k).map _ else (s.reserve r p).reel k) = _
  rw [State.reserve_reel]
  by_cases hk : k = r
  · subst hk
    simp only [if_true]
    cases s.reel k with
    | none => rfl
    | some x =>
      simp only [Option.map_some]
      rw [State.servedFrom_eq]
      rfl
  · simp [hk, Ne.symm hk]

/-- The three ways a demand with a reel is served, each said whole. -/
theorem State.serveDemand_raised {e : DemandEntry} (h : s.select e.grade e.width = some r) (hreacts : s.reacts 7 = false) :
    s.serveDemand e = { s with
      reels := (s.reserve r e.position).reels
      rest := { s.rest with watch := (s.reserve r e.position).rest.watch }
      demands := s.demands.filter fun k => decide (k.position ≠ e.position)
      positions := s.positions.insert e.position { s.pos e.position with
        callOff := { (s.pos e.position).callOff with state := .raised, ordersFull := false } } } := by
  rw [State.serveDemand_of_select h, hreacts, if_neg Bool.false_ne_true, State.servedFrom_eq]
  rfl

theorem State.serveDemand_backlog {e : DemandEntry} (h : s.select e.grade e.width = some r) (hreacts : s.reacts 7 = true)
    (hfull : s.ordersFull = true) : s.serveDemand e = { s with
      reels := (s.reserve r e.position).reels
      rest := { s.rest with watch := (s.reserve r e.position).rest.watch }
      demands := s.demands.filter fun k => decide (k.position ≠ e.position)
      orders := (s.joinBacklog (.delivery e.position r .normal)).orders
      positions := s.positions.insert e.position { s.pos e.position with
        callOff := { (s.pos e.position).callOff with state := .waitStock, ordersFull := true } } } := by
  have hfull' : (s.servedFrom r e.position).ordersFull = true := by
    rw [State.servedFrom_eq]
    exact hfull
  have hjoin : ((s.servedFrom r e.position).joinBacklog (.delivery e.position r .normal)) =
      { s.servedFrom r e.position with orders := (s.joinBacklog (.delivery e.position r .normal)).orders } := by
    rw [State.servedFrom_eq]
    unfold State.joinBacklog
    dsimp only
    split <;> rfl
  rw [State.serveDemand_of_select h, hreacts, if_pos rfl, State.deliverOrBacklog, if_pos hfull', hjoin, State.servedFrom_eq]
  rfl

theorem State.serveDemand_ordered {e : DemandEntry} (h : s.select e.grade e.width = some r) (hreacts : s.reacts 7 = true)
    (hroom : s.ordersFull = false) : s.serveDemand e = { s with
      reels := taggedReels (s.servedFrom r e.position) (s.deliverOrder e.position r .normal)
      rest := { s.rest with watch := (s.reserve r e.position).rest.watch }
      demands := s.demands.filter fun k => decide (k.position ≠ e.position)
      orders := (s.createOrder (s.deliverOrder e.position r .normal)).orders
      positions := s.positions.insert e.position (s.pos e.position).ordered } := by
  have hroom' : (s.servedFrom r e.position).ordersFull = false := by
    rw [State.servedFrom_eq]
    exact hroom
  have horder : (s.servedFrom r e.position).deliverOrder e.position r .normal = s.deliverOrder e.position r .normal := by
    rw [State.deliverOrder, State.servedFrom_bayPlace]
    rfl
  have horders : ((s.servedFrom r e.position).createOrder (s.deliverOrder e.position r .normal)).orders =
      (s.createOrder (s.deliverOrder e.position r .normal)).orders := by
    rw [State.createOrder_eq, State.createOrder_eq, State.servedFrom_eq]
    rfl
  have hpos : (s.servedFrom r e.position).pos e.position = s.pos e.position := by
    rw [State.servedFrom_eq]
    rfl
  rw [State.serveDemand_of_select h, hreacts, if_pos rfl, State.deliverOrBacklog, if_neg (by simp [hroom']), State.makeDeliver_eq, horder,
    if_neg (by decide), horders, hpos]
  generalize taggedReels (s.servedFrom r e.position) _ = reels
  rw [State.servedFrom_eq]
  simp only [List.filter_filter, Bool.and_self]

theorem State.serveDemand_of_none {e : DemandEntry} (h : s.select e.grade e.width = none) : s.serveDemand e = s := by
  simp only [State.serveDemand, h]

end Sys2Proof.Machine
end

section
/-!
PROOF. The order of a pass (R44, R77), and what the close of an event does (O39).
-/

namespace Sys2Proof.Machine

open Sys2Proof

variable {s t u : State} {n v target p r : Nat} {o : Order}

/-! ### A demand served is of the passes' kind -/

/-- A reel of the store taken for a position, and the position's call-off with it. -/
theorem State.Passed.of_taken {x : Reel} (hr : s.reel r = some x) (hstored : x.state = .stored) {state : ReelState} {place : Option Nat}
    {tag : Option Nat} {c : CallOff}
    (hrest : u = { s with reels := u.reels, rest := { s.rest with watch := u.rest.watch }, demands := u.demands, orders := u.orders, positions := u.positions })
    (hreel : ∀ k, u.reel k = if k = r then some { x with state := state, reservation := place, tag := tag } else s.reel k)
    (horders : ∀ k o, s.order k = some o → u.order k = some o)
    (hpositions : u.positions = s.positions.insert p { s.pos p with callOff := c })
    (hdemands : u.demands.Sublist s.demands) : s.Passed u where
  apart := by rw [hrest]; rfl
  bays := by rw [hrest]
  notices := by rw [hrest]
  orders k o ho := ⟨o, horders k o ho, o.sameTask_refl, fun _ _ => rfl⟩
  vehicles k := ⟨_, by rw [hrest]; rfl, fun _ => rfl⟩
  holder z k h := by rw [hrest]; exact h
  frames f h := by rw [hrest]; exact h
  noReel k hk := by
    rw [hreel]
    split
    case isTrue h => rw [h, hr] at hk; cases hk
    case isFalse => exact hk
  reels k y hy := by
    rw [hreel]
    split
    case isTrue h =>
      subst h
      obtain rfl : x = y := Option.some.inj (hr.symm.trans hy)
      exact ⟨_, rfl, fun h => absurd hstored h, rfl⟩
    case isFalse => exact ⟨y, hy, fun _ => rfl, rfl⟩
  positions k := by
    have hpos : u.pos k = if k = p then { s.pos p with callOff := c } else s.pos k := by
      unfold State.pos
      rw [hpositions, Table.find_insert]
      split <;> rfl
    rw [hpos]
    split
    case isTrue h => subst h; rfl
    case isFalse => rfl
  demands := hdemands

theorem State.serveDemand_passed (s : State) (e : DemandEntry) : s.Passed (s.serveDemand e) := by
  cases hselect : s.select e.grade e.width with
  | none =>
    rw [State.serveDemand_of_none hselect]
    exact .refl s
  | some r =>
    obtain ⟨x, hx, hstored⟩ := State.select_stored hselect
    have hdemands : (s.demands.filter fun k => decide (k.position ≠ e.position)).Sublist s.demands := List.filter_sublist
    have hreserved (k : Nat) : (s.reserve r e.position).reel k =
        if k = r then some { x with state := .reserved, reservation := some e.position, tag := x.tag } else s.reel k := by
      rw [State.reserve_reel, hx]
      rfl
    cases hreacts : s.reacts 7 with
    | false =>
      rw [State.serveDemand_raised hselect hreacts]
      exact .of_taken hx hstored rfl hreserved (fun _ _ h => h) rfl hdemands
    | true =>
    cases hfull : s.ordersFull with
    | true =>
      rw [State.serveDemand_backlog hselect hreacts hfull]
      refine .of_taken hx hstored rfl hreserved (fun k o h => ?_) rfl hdemands
      change (s.joinBacklog _).orders.table.find k = _
      rw [State.joinBacklog_eq]
      exact h
    | false =>
      rw [State.serveDemand_ordered hselect hreacts hfull]
      refine .of_taken hx hstored rfl (fun k => (s.servedFrom_tagged e.position r k).trans (by rw [hx]; rfl)) (fun k o h => ?_) rfl hdemands
      have hk : k ≠ s.nextTag := by
        rintro rfl
        rw [State.order_nextTag hfull] at h
        cases h
      refine ((created_createOrder s _).others k hk).trans h

/-! ### The close of an event -/

theorem State.grantPass_passed (s : State) : s.Passed s.grantPass := State.Passed.foldl State.grantOne_passed _ s

theorem State.grantPass_quiet (s : State) : s.Quiet s.grantPass := State.Quiet.foldl State.grantOne_quiet _ s

theorem State.arbiterPass_passed (s : State) : s.Passed s.arbiterPass := State.Passed.foldl State.serveDemand_passed _ s

theorem State.assignPass_passed (s : State) : s.Passed s.assignPass := State.Passed.foldl State.assignOne_passed _ s

theorem State.assignPass_quiet (s : State) : s.Quiet s.assignPass := State.Quiet.foldl State.assignOne_quiet _ s

theorem State.close_passed (s pre : State) (force : Bool) : s.Passed (s.close pre force) := by
  unfold State.close
  dsimp only
  have h := s.grantPass_passed.trans s.grantPass.arbiterPass_passed
  split
  · exact h.trans (State.assignPass_passed _)
  · exact h

theorem State.close_quiet (pre : State) (force : Bool) (h : s.demands = []) : s.Quiet (s.close pre force) := by
  obtain ⟨-, -, hdemands⟩ := s.grantPass_quiet
  have harbiter : s.grantPass.arbiterPass = s.grantPass := by rw [State.arbiterPass, hdemands, h]; rfl
  unfold State.close
  rw [harbiter]
  dsimp only
  split
  · exact s.grantPass_quiet.trans (State.assignPass_quiet _)
  · exact s.grantPass_quiet

theorem State.close_eq (pre : State) (force : Bool) (h : u = s.demands.foldl State.serveDemand s.grantPass) :
    s.close pre force = if force || assignmentDue pre u then u.assignPass else u := by
  obtain ⟨-, -, hdemands⟩ := s.grantPass_quiet
  have harbiter : s.grantPass.arbiterPass = u := by rw [State.arbiterPass, hdemands, h]
  unfold State.close
  rw [harbiter]

end Sys2Proof.Machine
end

section
/-!
PROOF. The order in which a pass takes the orders (R44, R77), when an event calls for one (R44), and the statement on the passes (O39).
-/

namespace Sys2Proof.Machine

open Sys2Proof

variable {s t u : State} {n v target p r : Nat} {o : Order}

/-! ### The order of a pass -/

/-- An order is taken before another, or is its equal. -/
def Order.notAfter (a b : Order) : Prop := (a.priority = b.priority → a.sequence ≤ b.sequence) ∧ (a.priority ≠ b.priority → a.priority = .urgent)

theorem Order.notAfter_of_before {a b : Order} (h : a.before b = true) : a.notAfter b := by
  unfold Order.before at h
  split at h
  case isTrue heq => exact ⟨fun _ => le_of_lt (of_decide_eq_true h), fun hne => absurd heq hne⟩
  case isFalse hne => exact ⟨fun heq => absurd heq hne, fun _ => of_decide_eq_true h⟩

theorem Order.notAfter_of_not_before {a b : Order} (h : ¬a.before b = true) : b.notAfter a := by
  unfold Order.before at h
  split at h
  case isTrue heq => exact ⟨fun _ => not_lt.1 fun hlt => h (decide_eq_true hlt), fun hne => absurd heq.symm hne⟩
  case isFalse hne =>
    refine ⟨fun heq => absurd heq.symm hne, fun _ => ?_⟩
    have ha : a.priority ≠ .urgent := fun hu => h (decide_eq_true hu)
    revert ha hne
    cases a.priority <;> cases b.priority <;> decide

theorem Order.notAfter_trans {a b c : Order} (h : a.notAfter b) (k : b.notAfter c) : a.notAfter c := by
  obtain ⟨h1, h2⟩ := h
  obtain ⟨k1, k2⟩ := k
  by_cases hab : a.priority = b.priority
  · refine ⟨fun hac => (h1 hab).trans (k1 (hab.symm.trans hac)), fun hac => ?_⟩
    rw [hab]
    exact k2 fun hbc => hac (hab.trans hbc)
  · have ha := h2 hab
    refine ⟨fun hac => ?_, fun _ => ha⟩
    have hbc : b.priority ≠ c.priority := fun hbc => hab (hac.trans hbc.symm)
    exact absurd ((ha.trans (k2 hbc).symm)) hab

theorem insertOrder_perm (e : Nat × Order) : ∀ l : List (Nat × Order), (insertOrder e l).Perm (e :: l)
  | [] => .refl _
  | f :: fs => by
    unfold insertOrder
    split
    · exact .refl _
    · exact ((insertOrder_perm e fs).cons f).trans (.swap e f fs)

theorem insertOrder_sorted (e : Nat × Order) : ∀ {l : List (Nat × Order)}, l.Pairwise (fun a b => a.2.notAfter b.2) →
    (insertOrder e l).Pairwise fun a b => a.2.notAfter b.2
  | [], _ => List.pairwise_singleton _ _
  | f :: fs, h => by
    obtain ⟨hf, hfs⟩ := List.pairwise_cons.1 h
    unfold insertOrder
    split
    case isTrue hbefore =>
      have hef := Order.notAfter_of_before hbefore
      refine List.pairwise_cons.2 ⟨fun g hg => ?_, h⟩
      rcases List.mem_cons.1 hg with rfl | hg
      · exact hef
      · exact Order.notAfter_trans hef (hf g hg)
    case isFalse hnot =>
      refine List.pairwise_cons.2 ⟨fun g hg => ?_, insertOrder_sorted e hfs⟩
      rcases List.mem_cons.1 ((insertOrder_perm e fs).subset hg) with rfl | hg
      · exact Order.notAfter_of_not_before hnot
      · exact hf g hg

theorem foldl_insertOrder_sorted : ∀ (es l : List (Nat × Order)), l.Pairwise (fun a b => a.2.notAfter b.2) →
    (es.foldl (fun l e => insertOrder e l) l).Pairwise fun a b => a.2.notAfter b.2
  | [], _, h => h
  | e :: es, _, h => foldl_insertOrder_sorted es _ (insertOrder_sorted e h)

theorem foldl_insertOrder_perm : ∀ es l : List (Nat × Order), (es.foldl (fun l e => insertOrder e l) l).Perm (es ++ l)
  | [], l => .refl l
  | e :: es, l => (foldl_insertOrder_perm es (insertOrder e l)).trans (((insertOrder_perm e l).append_left es).trans List.perm_middle)

/-- The orders a pass over `p` takes: each order that satisfies it once, by priority and then by creation sequence. -/
theorem State.passOrder_spec (hwf : s.orders.table.wf = true) (p : Order → Bool) : (s.passOrder p).Nodup ∧
    (s.passOrder p).Pairwise (fun a b => ∀ x y, s.order a = some x → s.order b = some y → x.notAfter y) ∧
    ∀ k, k ∈ s.passOrder p ↔ ∃ o, s.order k = some o ∧ p o = true := by
  have hperm := foldl_insertOrder_perm (s.orders.table.entries.filter fun e => p e.2) []
  rw [List.append_nil] at hperm
  have hentry {e : Nat × Order} (he : e ∈ (s.orders.table.entries.filter fun e => p e.2).foldl (fun l e => insertOrder e l) []) :
      s.order e.1 = some e.2 ∧ p e.2 = true := by
    obtain ⟨hmem, hp⟩ := List.mem_filter.1 (hperm.subset he)
    exact ⟨(Table.mem_entries_iff hwf).1 hmem, hp⟩
  unfold State.passOrder
  refine ⟨?_, ?_, fun k => ?_⟩
  · refine (hperm.map _).nodup_iff.2 (List.pairwise_map.2 ?_)
    exact ((Table.keys_ascending hwf).imp fun h => ne_of_lt h).sublist List.filter_sublist
  · refine List.pairwise_map.2 ((foldl_insertOrder_sorted _ _ .nil).imp_of_mem fun ha hb h x y hx hy => ?_)
    obtain rfl := Option.some.inj ((hentry ha).1.symm.trans hx)
    obtain rfl := Option.some.inj ((hentry hb).1.symm.trans hy)
    exact h
  · rw [List.mem_map]
    constructor
    · rintro ⟨e, he, rfl⟩
      exact ⟨e.2, hentry he⟩
    · rintro ⟨o, ho, hp⟩
      exact ⟨(k, o), hperm.symm.subset (List.mem_filter.2 ⟨(Table.mem_entries_iff hwf).2 ho, hp⟩), rfl⟩

/-! ### When an event calls for an assignment pass (R44) -/

theorem newWaiting_iff (hwf : u.orders.table.wf = true) : newWaiting s u = true ↔ ∃ k o, u.order k = some o ∧ o.state = .waiting ∧
    ∀ x, s.order k = some x → x.state = .waiting → x.sequence ≠ o.sequence := by
  have hone (k : Nat) (o : Order) : (match s.order k with
      | some x => !(decide (x.state = .waiting) && decide (x.sequence = o.sequence))
      | none => true) = true ↔ ∀ x, s.order k = some x → x.state = .waiting → x.sequence ≠ o.sequence := by
    cases s.order k with
    | none => simp
    | some x => simp [← imp_iff_not_or]
  unfold newWaiting
  simp only [List.any_eq_true, Prod.exists, Bool.and_eq_true, decide_eq_true_eq]
  refine exists_congr fun k => exists_congr fun o => ?_
  rw [Table.mem_entries_iff hwf]
  exact and_congr_right fun _ => and_congr_right fun _ => hone k o

theorem State.idleFree_iff : s.idleFree v = true ↔ (s.veh v).state = .idle ∧ (s.veh v).order = none := by simp [State.idleFree]

theorem assignmentDue_iff (hwf : u.orders.table.wf = true) : assignmentDue s u = true ↔
    (∃ t o, u.order t = some o ∧ o.state = .waiting ∧ ∀ x, s.order t = some x → x.state = .waiting → x.sequence ≠ o.sequence) ∨
    (∃ v, 1 ≤ v ∧ v ≤ 12 ∧ (u.veh v).state = .idle ∧ (u.veh v).order = none ∧ ((s.veh v).state ≠ .idle ∨ (s.veh v).order ≠ none)) := by
  rw [assignmentDue, Bool.or_eq_true, newWaiting_iff hwf, List.any_eq_true]
  refine or_congr_right (exists_congr fun k => ?_)
  rw [mem_allVehicles, Bool.and_eq_true, State.idleFree_iff, Bool.not_eq_true', ← Bool.not_eq_true, State.idleFree_iff]
  tauto

/-! ### The vehicle an order gets -/

theorem State.parkNames_iff (hwf : s.orders.table.wf = true) : s.parkNames v = true ↔
    ∃ k x, s.order k = some x ∧ x.kind = .park ∧ x.state = .waiting ∧ x.vehicle = some v := by
  unfold State.parkNames
  simp only [List.any_eq_true, Prod.exists, Bool.and_eq_true, decide_eq_true_eq, and_assoc]
  exact exists_congr fun k => exists_congr fun x => and_congr_left fun _ => Table.mem_entries_iff hwf

theorem State.freeVehicle_iff (hwf : s.orders.table.wf = true) : s.freeVehicle v = true ↔ (s.veh v).state = .idle ∧ (s.veh v).order = none ∧
    (s.veh v).load = none ∧ s.vconfig.lowBattery ≤ (s.veh v).battery ∧
    ∀ k x, s.order k = some x → x.kind = .park → x.state = .waiting → x.vehicle ≠ some v := by
  have hpark : s.parkNames v = false ↔ ∀ k x, s.order k = some x → x.kind = .park → x.state = .waiting → x.vehicle ≠ some v := by
    rw [← Bool.not_eq_true, State.parkNames_iff hwf]
    push Not
    rfl
  simp only [State.freeVehicle, Bool.and_eq_true, decide_eq_true_eq, Bool.not_eq_true', hpark]
  tauto

theorem State.bind_eq (s : State) (n : Nat) (o : Order) (v : Nat) : s.bind n o v =
    ((s.setOrder n { o with vehicle := some v }).setVeh v { s.veh v with order := some n }).requestLeg n := rfl

theorem State.assignOne_of_target (ho : s.order n = some o) (hwaiting : o.state = .waiting) (htarget : s.targetNode o = some target)
    (hkind : o.kind ≠ .park) : s.assignOne n = match s.nearest target allVehicles none with
      | some (v, _) => s.bind n o v
      | none => s := by
  simp only [State.assignOne, ho, hwaiting, ne_eq, not_true_eq_false, if_false, htarget]
  split
  case h_1 h _ => exact absurd h hkind
  case h_2 h _ => exact absurd h hkind
  case h_3 => rfl

theorem State.assignOne_of_park (ho : s.order n = some o) (hwaiting : o.state = .waiting) (htarget : s.targetNode o = some target)
    (hkind : o.kind = .park) (hv : o.vehicle = some v) : s.assignOne n =
      if (s.veh v).state = .idle ∧ (s.veh v).order = none ∧ (s.distance v target).isSome then s.bind n o v else s := by
  simp only [State.assignOne, ho, hwaiting, ne_eq, not_true_eq_false, if_false, htarget, hkind, hv]

theorem State.distance_isSome_iff : (s.distance v target).isSome = true ↔
    (s.veh v).node = target ∨ (s.route (s.veh v).node target).isSome = true := by
  unfold State.distance
  split
  case isTrue h => simp [h]
  case isFalse h => simp [h]

/-! ### A demand at its turn, as the statement says it -/

theorem State.reacts_eq_false (h : (s.handling n).mode = .report ∨ (s.handling n).mode = .off) : s.reacts n = false := by
  unfold State.reacts
  rcases h with h | h <;> rw [h] <;> rfl

theorem State.reacts_eq_true (h : (s.handling n).mode = .auto ∨ (s.handling n).mode = .both) : s.reacts n = true := by
  unfold State.reacts
  rcases h with h | h <;> rw [h] <;> rfl

/-- A call-off changed at one position: what every position then is. -/
theorem State.pos_of_insert {x : Position} (h : u.positions = s.positions.insert p x) (k : Nat) : u.pos k = if k = p then x else s.pos k := by
  unfold State.pos
  rw [h, Table.find_insert]
  split <;> rfl

/-- Settles O39: each part of a pass is what one order or one demand at its turn is, and nothing of the part but what a leg request, an
assignment and a demand served name changes. -/
theorem passesThatEndAnEvent : Obligations.PassesThatEndAnEvent := by
  unfold Obligations.PassesThatEndAnEvent
  refine ⟨fun s pre force => ?_, fun s pre u hu => ?_, fun s ahead hwf hahead => ?_, fun s n target o fit ho hwaiting htarget hwf hfit => ?_,
    fun s e => ⟨fun h => State.serveDemand_of_none h, fun r y hselect hy => ⟨_, rfl, ?_⟩⟩⟩
  case refine_1 =>
    have h := s.close_passed pre force
    refine ⟨h.apart, h.bays, h.notices, h.orders, h.vehicles, h.holder, h.frames, h.noReel, h.reels, h.positions, h.demands, fun hnone => ?_⟩
    obtain ⟨hreels, hpositions, -⟩ := State.close_quiet pre force hnone
    exact ⟨hreels, hpositions⟩
  case refine_2 =>
    refine ⟨State.close_eq pre true hu, fun h => ?_, fun h => ?_, assignmentDue_iff⟩
    · rw [State.close_eq pre false hu, h]
      rfl
    · rw [State.close_eq pre false hu, h]
      rfl
  case refine_3 =>
    have htake (q : OrderState) : (s.passOrder fun o => o.state = q).Nodup ∧ (s.passOrder fun o => o.state = q).Pairwise ahead ∧
        ∀ t, t ∈ (s.passOrder fun o => o.state = q) ↔ ∃ o, s.order t = some o ∧ o.state = q := by
      obtain ⟨h1, h2, h3⟩ := State.passOrder_spec hwf fun o => o.state = q
      refine ⟨h1, h2.imp fun h => (hahead _ _).2 h, fun t => ?_⟩
      simpa using h3 t
    exact ⟨⟨_, rfl, htake .heldZones⟩, ⟨_, rfl, htake .waiting⟩⟩
  case refine_4 =>
    have hcandidate (v d : Nat) : (v ∈ allVehicles ∧ s.freeVehicle v = true ∧ s.distance v target = some d) ↔ fit v d := by
      rw [hfit, mem_allVehicles, State.freeVehicle_iff hwf, State.distance_eq_some_iff]
      simp only [and_assoc]
    refine ⟨fun hkind => ⟨fun v d hv hleast => ?_, fun hnone => ?_⟩, fun v hkind hv => ⟨fun hidle hfree hway => ?_, fun hnot => ?_⟩⟩
    · have hnear : s.nearest target allVehicles none = some (v, d) :=
        State.nearest_some_iff.2 ⟨(hcandidate v d).2 hv, fun k e hk => hleast k e ((hcandidate k e).1 hk)⟩
      rw [State.assignOne_of_target ho hwaiting htarget hkind, hnear]
      exact State.bind_eq s n o v
    · have hnear : s.nearest target allVehicles none = none :=
        State.nearest_none_iff.2 fun v d h1 h2 h3 => hnone v d ((hcandidate v d).1 ⟨h1, h2, h3⟩)
      rw [State.assignOne_of_target ho hwaiting htarget hkind, hnear]
    · rw [State.assignOne_of_park ho hwaiting htarget hkind hv, if_pos ⟨hidle, hfree, State.distance_isSome_iff.2 hway⟩]
      exact State.bind_eq s n o v
    · rw [State.assignOne_of_park ho hwaiting htarget hkind hv, if_neg]
      rintro ⟨hidle, hfree, hway⟩
      rcases hnot with h | h | ⟨h, hnoroute⟩
      · exact h hidle
      · exact h hfree
      · rcases State.distance_isSome_iff.1 hway with h' | h'
        · exact h h'
        · rw [hnoroute] at h'
          cases h'
  case refine_5 =>
    have hreserved (k : Nat) : (s.reserve r e.position).reel k =
        if k = r then some { y with state := .reserved, reservation := some e.position } else s.reel k := by
      rw [State.reserve_reel, hy]
      rfl
    cases hreacts : s.reacts 7 with
    | false =>
      have hmode (h : (s.handling 7).mode = .auto ∨ (s.handling 7).mode = .both) : False := by
        rw [State.reacts_eq_true h] at hreacts
        cases hreacts
      rw [State.serveDemand_raised hselect hreacts]
      refine ⟨rfl, fun k hk => (hreserved k).trans (if_neg hk), fun k hk => (State.pos_of_insert rfl k).trans (if_neg hk), fun _ => ⟨?_, rfl, ?_⟩,
        fun h => (hmode h).elim, fun h => (hmode h).elim⟩
      · exact (hreserved r).trans (if_pos rfl)
      · rw [State.pos_of_insert rfl e.position, if_pos rfl]
    | true =>
    have hmode (h : (s.handling 7).mode = .report ∨ (s.handling 7).mode = .off) : False := by
      rw [State.reacts_eq_false h] at hreacts
      cases hreacts
    cases hfull : s.ordersFull with
    | true =>
      rw [State.serveDemand_backlog hselect hreacts hfull]
      refine ⟨rfl, fun k hk => (hreserved k).trans (if_neg hk), fun k hk => (State.pos_of_insert rfl k).trans (if_neg hk),
        fun h => (hmode h).elim, fun _ h => (Bool.noConfusion h), fun _ _ => ⟨?_, fun hnone => ?_, fun hsome => ?_, ?_, ?_⟩⟩
      · exact (hreserved r).trans (if_pos rfl)
      · change (s.joinBacklog _).orders = _
        rw [State.joinBacklog_of_none fun j hj h => by
          rw [BacklogItem.slot_delivery_iff, hnone j hj] at h
          cases h]
        rfl
      · change (s.joinBacklog _).orders = _
        obtain ⟨j, hj, h⟩ := hsome
        rw [State.joinBacklog_of_some ⟨j, hj, BacklogItem.slot_delivery_iff.2 h⟩]
      · rw [State.pos_of_insert rfl e.position, if_pos rfl]
      · rw [State.pos_of_insert rfl e.position, if_pos rfl]
    | false =>
      have htagged (k : Nat) := s.servedFrom_tagged e.position r k
      rw [State.serveDemand_ordered hselect hreacts hfull]
      refine ⟨rfl, fun k hk => (htagged k).trans (if_neg hk), fun k hk => (State.pos_of_insert rfl k).trans (if_neg hk),
        fun h => (hmode h).elim, fun _ _ => ⟨?_, ?_, ?_⟩, fun _ h => (Bool.noConfusion h)⟩
      · refine (htagged r).trans ?_
        rw [if_pos rfl, hy]
        rfl
      · exact (created_createOrder s _).order
      · rw [State.pos_of_insert rfl e.position, if_pos rfl]
        rfl

end Sys2Proof.Machine
end

section
/-!
PROOF. The requests of chapters 1 and 2: queries in turn (R17, R37, R62), INTAKE (R14, R15), RESTOCK (R16) and REMOVE (R18).
-/

namespace Sys2Proof.Machine

open Sys2Proof

variable {s t u : State} {tag n k p r b : Nat}

/-! ### Queries in turn (O12) -/

theorem entryAfter_eq_none {α : Type} : ∀ {es : List (Nat × α)}, (∀ e ∈ es, ¬n < e.1) → entryAfter n es = none
  | [], _ => rfl
  | e :: es, h => by
    unfold entryAfter
    rw [if_neg (h e List.mem_cons_self)]
    exact entryAfter_eq_none fun d hd => h d (List.mem_cons_of_mem _ hd)

/-- Of entries whose numbers rise, the first above `n` is the one with none between them. -/
theorem entryAfter_eq_some {α : Type} {x : α} : ∀ {es : List (Nat × α)}, es.Pairwise (fun d e => d.1 < e.1) → (k, x) ∈ es → n < k →
    (∀ e ∈ es, n < e.1 → k ≤ e.1) → entryAfter n es = some (k, x)
  | [], _, hx, _, _ => by cases hx
  | e :: es, hasc, hx, hn, hleast => by
    obtain ⟨hhead, htail⟩ := List.pairwise_cons.1 hasc
    unfold entryAfter
    rcases List.mem_cons.1 hx with rfl | hx
    · rw [if_pos hn]
    · have hbelow : ¬n < e.1 := fun h => absurd (hhead _ hx) (not_lt.2 (hleast e List.mem_cons_self h))
      rw [if_neg hbelow]
      exact entryAfter_eq_some htail hx hn fun d hd => hleast d (List.mem_cons_of_mem _ hd)

theorem queried_next_of_least {α : Type} {t : Table α} {x : α} (hwf : t.wf = true) (hx : t.find k = some x) (hn : n < k)
    (hleast : ∀ j, n < j → j < k → t.find j = none) : queried t .next n = some (k, x) := by
  refine entryAfter_eq_some (Table.keys_ascending hwf) ((Table.mem_entries_iff hwf).2 hx) hn fun e he hne => ?_
  by_contra hlt
  have hnone := hleast e.1 hne (not_le.1 hlt)
  rw [(Table.mem_entries_iff hwf).1 he] at hnone
  cases hnone

theorem queried_next_of_none {α : Type} {t : Table α} (hwf : t.wf = true) (hnone : ∀ j, n < j → t.find j = none) :
    queried t .next n = none := by
  refine entryAfter_eq_none fun e he hne => ?_
  have h := hnone e.1 hne
  rw [(Table.mem_entries_iff hwf).1 he] at h
  cases h

theorem State.reqReelinfo_next (s : State) (n : Nat) : s.reqReelinfo n 1 = match queried s.reels .next n with
    | some e => s.grant (s.reelRecord e.1 e.2)
    | none => s.refuse .unknown := rfl

theorem State.reqOrderinfo_next (s : State) (n : Nat) : s.reqOrderinfo n 1 = match queried s.orders.table .next n with
    | some e => s.grant (s.orderRecord e.1 e.2)
    | none => s.refuse .unknown := rfl

/-- Settles O12: each query in NEXT mode is a search for the first entry above a number, and the numbers rise. -/
theorem queriesInTurn : Obligations.QueriesInTurn := by
  unfold Obligations.QueriesInTurn
  intro s tag n k htakes hcanon hnk
  simp only [State.canonical, Bool.and_eq_true] at hcanon
  obtain ⟨⟨⟨⟨⟨⟨⟨⟨⟨⟨⟨⟨-, -⟩, hreels⟩, -⟩, hbays⟩, horders⟩, -⟩, -⟩, -⟩, -⟩, -⟩, -⟩, -⟩ := hcanon
  refine ⟨fun x hx hleast => ?_, fun hnone => ?_, fun o ho hleast => ?_, fun hnone => ?_, fun b hb hleast => ?_, fun hnone => ?_⟩
  · refine answered_in_run (r := .reelinfo n 1) rfl htakes rfl rfl ?_
    exact (s.reqReelinfo_next n).trans (by rw [queried_next_of_least hreels hx hnk hleast])
  · refine refused_in_run (r := .reelinfo n 1) rfl htakes rfl rfl (e := .unknown) ?_ rfl
    exact (s.reqReelinfo_next n).trans (by rw [queried_next_of_none hreels hnone])
  · refine answered_in_run (r := .orderinfo n 1) rfl htakes rfl rfl ?_
    exact (s.reqOrderinfo_next n).trans (by rw [queried_next_of_least horders ho hnk hleast])
  · refine refused_in_run (r := .orderinfo n 1) rfl htakes rfl rfl (e := .unknown) ?_ rfl
    exact (s.reqOrderinfo_next n).trans (by rw [queried_next_of_none horders hnone])
  · refine ⟨listBytes (b.stack.map s.stackItem) ++ openField1 .bayinfoInbound b.inbound ++
      openField1 .bayinfoFree (b.height - b.stack.length - b.inbound) ++ flagByte (s.hasRoom b) ++ flagByte (s.topEligible b) ++
      openField1 .bayinfoBays s.bays.count, answered_in_run (r := .bayinfo n 1) rfl htakes rfl rfl ?_⟩
    have hquery := queried_next_of_least hbays hb hnk hleast
    change s.reqBayinfo n 1 = _
    simp only [State.reqBayinfo, queryModeOf, reduceCtorEq, false_and, if_false, hquery, List.append_assoc]
  · refine refused_in_run (r := .bayinfo n 1) rfl htakes rfl rfl (e := .unknown) ?_ rfl
    have hquery := queried_next_of_none hbays hnone
    change s.reqBayinfo n 1 = _
    simp only [State.reqBayinfo, queryModeOf, reduceCtorEq, false_and, if_false, hquery]

/-! ### INTAKE (O17) -/

/-- A reel that does not stand STORED keeps its record through the close of an event. -/
theorem State.close_reel (pre : State) (force : Bool) {x : Reel} (hx : s.reel r = some x) (hstate : x.state ≠ .stored) :
    (s.close pre force).reel r = some x := by
  obtain ⟨y, hy, hkeep, -⟩ := (s.close_passed pre force).reels r x hx
  rw [hy, hkeep hstate]

theorem State.nodeHasKind_has {kind : NodeKind} (h : s.nodeHasKind n kind = true) : s.nodes.has n = true := by
  unfold State.nodeHasKind at h
  unfold Table.has
  cases hn : s.nodes.find n with
  | none => simp [hn] at h
  | some x => rfl

theorem State.intakePlaces_eq_none {node bay : Nat} (hnode : node = 0 ∨ s.nodeHasKind node .intake = true)
    (hbay : bay ≠ 0 → (s.bay bay).isSome = true) : s.intakePlaces node bay = none := by
  unfold State.intakePlaces
  have h1 : ¬(node ≠ 0 ∧ s.nodes.has node = false) := by
    rintro ⟨h0, hno⟩
    rw [State.nodeHasKind_has (hnode.resolve_left h0)] at hno
    cases hno
  have h2 : ¬(bay ≠ 0 ∧ (s.bay bay).isNone = true) := by
    rintro ⟨h0, hno⟩
    have := hbay h0
    cases hb : s.bay bay <;> simp [hb] at this hno
  have h3 : ¬(node ≠ 0 ∧ s.nodeHasKind node .intake = false) := by
    rintro ⟨h0, hno⟩
    rw [hnode.resolve_left h0] at hno
    cases hno
  rw [if_neg h1, if_neg h2, if_neg h3]

/-- INTAKE once its checks pass. -/
theorem State.reqIntake_eq {d : ReelData} {node bay n b : Nat} (hdata : reelDataOk d = true) (hn96 : node ≤ 96) (hb120 : bay ≤ 120)
    (hnode : node = 0 ∨ s.nodeHasKind node .intake = true) (hbay : bay ≠ 0 → (s.bay bay).isSome = true)
    (hallowed : intakeAllowed (s.reel d.id) = true) (hn : s.intakeNode (s.reel d.id) node = some n)
    (hcount : s.reel d.id = none → s.reels.count < 512) (hfull : s.ordersFull = false)
    (hb : s.targetBay bay (((s.reel d.id).map (·.grade)).getD d.grade) (((s.reel d.id).map (·.width)).getD d.width) none = some b) :
    s.reqIntake d node bay = ((s.takeIn d (s.reel d.id) n b).close s false).grant (be2 s.nextTag ++ be1 b ++
      be4 (((((s.takeIn d (s.reel d.id) n b).close s false).reel d.id).map (·.restUntil)).getD 0)) := by
  have hrange : ¬(!(reelDataOk d && decide (node ≤ 96) && decide (bay ≤ 120))) = true := by simp [hdata, hn96, hb120]
  have hroom : ¬((s.reel d.id).isNone = true ∧ 512 ≤ s.reels.count) := by
    rintro ⟨h, hc⟩
    exact absurd hc (not_le.2 (hcount (Option.isNone_iff_eq_none.1 h)))
  unfold State.reqIntake
  dsimp only
  rw [if_neg hrange, State.intakePlaces_eq_none hnode hbay]
  dsimp only
  rw [hallowed, if_neg (by decide), hn]
  dsimp only
  rw [if_neg hroom, hfull, if_neg (by decide), hb]

/-- Settles O17: the record made is INCOMING, so the close of the event leaves it as it is; the order is the one that stands for `Created`. -/
theorem intakeMakesAnOrder : Obligations.IntakeMakesAnOrder := by
  unfold Obligations.IntakeMakesAnOrder
  intro s tag node bay n b d htakes hdata hn96 hb120 hfull
  refine ⟨fun hnew hcount hnode hb hbay => ?_, fun x hx hincoming htag hplace hnode hb hbay => ?_⟩
  · have hcreated := created_createOrder (s.setReel d.id (s.newReel d .intake s.clock.seconds .incoming (.atIntake n) none))
      ⟨.intake, .normal, some d.id, .node n, .bay b 0, none, none⟩
    have hrecord := hcreated.reel d.id _ rfl (Table.find_insert_same _ _ _)
    refine ⟨_, answered_in_run (r := .intake d node bay) rfl htakes rfl rfl ?_, hrecord, hcreated⟩
    have hfinal := State.close_reel s false hrecord (by simp [State.newReel])
    refine (State.reqIntake_eq (n := n) (b := b) hdata hn96 hb120 ?_ hbay ?_ ?_ (fun _ => hcount) hfull ?_).trans ?_
    · rcases hnode with ⟨h, -⟩ | ⟨rfl, -, h⟩
      · exact .inl h
      · exact .inr h
    · rw [hnew]
      rfl
    · rw [hnew]
      rcases hnode with ⟨rfl, h⟩ | ⟨rfl, h, -⟩
      · exact h
      · exact if_neg h
    · rw [hnew]
      exact hb
    · rw [hnew]
      unfold State.takeIn
      dsimp only
      rw [hfinal]
      rfl
  · have hcreated := created_createOrder s ⟨.intake, .normal, some d.id, .node n, .bay b 0, none, none⟩
    have hfinal := State.close_reel s false (hcreated.reel d.id x rfl hx) (by simp [hincoming])
    refine ⟨_, answered_in_run (r := .intake d node bay) rfl htakes rfl rfl ?_, hcreated⟩
    refine (State.reqIntake_eq (n := n) (b := b) hdata hn96 hb120 ?_ hbay ?_ ?_ (fun h => ?_) hfull ?_).trans ?_
    · rcases hnode with h | ⟨rfl, h⟩
      · exact .inl h
      · exact .inr h
    · simp [hx, intakeAllowed, hincoming, htag]
    · rw [hx]
      simp only [State.intakeNode, hplace]
      rw [if_pos (hnode.imp id (·.1))]
    · rw [hx] at h
      cases h
    · rw [hx]
      exact hb
    · rw [hx]
      unfold State.takeIn
      dsimp only
      rw [hfinal]
      rfl

/-! ### RESTOCK and REMOVE (O18) -/

theorem ReelLeft.delReel {y : Bay} (h : ReelLeft s u b r y) : ReelLeft s (u.delReel r) b r y where
  stack := h.stack
  above lower upper i q z hstack hnodup hq hz := by
    have hne : q ≠ r := by
      rintro rfl
      rw [hstack] at hnodup
      exact (List.nodup_cons.1 (List.nodup_append.1 hnodup).2.1).1 (List.mem_of_getElem? hq)
    exact (State.reel_delReel_other hne u).trans (h.above lower upper i q z hstack hnodup hq hz)
  others q hq hout := (State.reel_delReel_other hq u).trans (h.others q hq hout)

theorem ReelLeft.rewatch {y : Bay} (h : ReelLeft s u b r y) : ReelLeft s u.rewatch b r y := ⟨h.stack, h.above, h.others⟩

theorem State.leaveBay_bay_other (s : State) (b r : Nat) {c : Nat} (h : c ≠ b) : (s.leaveBay b r).bay c = s.bay c := by
  unfold State.leaveBay
  split
  · rw [relevel_eq]
    exact Table.find_insert_other _ h _
  · rfl

theorem Reel.place_eq_some_iff {x : Reel} {l : Nat} : x.place = some (b, l) ↔ x.location = .inBay b l := by
  unfold Reel.place
  split <;> simp_all

/-- RESTOCK's changes (R16). -/
def State.restocked (s : State) (d : ReelData) (o : Origin) (arrival bay level : Nat) (b : Bay) : State :=
  ((s.setReel d.id (s.newReel d o arrival .stored (.inBay bay level) none)).setBay bay { b with stack := b.stack ++ [d.id] }).rewatch

theorem State.reqRestock_eq {d : ReelData} {origin arrival bay level : Nat} {o : Origin} {b : Bay} (hdata : reelDataOk d = true)
    (ho : originOf origin = some o) (harrival : arrival ≤ s.clock.seconds) (h1 : 1 ≤ bay) (h120 : bay ≤ 120) (hb : s.bay bay = some b)
    (hnew : s.reel d.id = none) (hcount : s.reels.count < 512) (hlevel : level = b.stack.length + 1) (hheight : level ≤ b.height)
    (h3 : level ≤ 3) (hinbound : b.inbound = 0) (htop : s.topFree b = true) :
    s.reqRestock d origin arrival bay level = ((s.restocked d o arrival bay level b).close s false).grant
      (be4 (s.newReel d o arrival .stored (.inBay bay level) none).restUntil) := by
  have hrange : ¬(!(reelDataOk d && bayOk bay && (decide (1 ≤ level) && decide (level ≤ 3)) && decide (arrival ≤ s.clock.seconds))) = true := by
    have hbay : bayOk bay = true := bayOk_iff.2 ⟨h1, h120⟩
    have hone : 1 ≤ level := by omega
    simp [hdata, hbay, hone, h3, harrival]
  have hfits : s.stackFits b level = true := by
    unfold State.stackFits
    rw [decide_eq_true hlevel, decide_eq_true hheight, decide_eq_true hinbound, htop]
    rfl
  unfold State.reqRestock
  rw [ho]
  dsimp only
  rw [if_neg hrange, hb]
  dsimp only
  rw [if_neg (by simp [hnew]), if_neg (not_le.2 hcount), hfits, if_neg (by decide)]
  rfl

theorem State.removeReel_eq (s : State) (r : Nat) (x : Reel) : s.removeReel r x = { s with
    reels := (s.removeReel r x).reels, bays := (s.removeReel r x).bays
    rest := { s.rest with watch := (s.removeReel r x).rest.watch } } := by
  unfold State.removeReel State.rewatch
  dsimp only
  split
  · rw [State.leaveBay_eq]
    rfl
  · rfl

/-- Settles O18: both requests end with the rest watch recomputed, and REMOVE is the reel's leave from its bay and its record's end. -/
theorem restockAndRemove : Obligations.RestockAndRemove := by
  unfold Obligations.RestockAndRemove
  refine ⟨fun s tag origin arrival bay level d o b htakes hdata ho harrival h1 h120 hb hnew hcount hlevel hheight h3 hinbound htop => ?_,
    fun s tag r x htakes h1 hmax hx hstate htag => ?_, fun s tag r x htakes h1 hmax hx hbad => ?_⟩
  · refine ⟨s.restocked d o arrival bay level b, answered_in_run (r := .restock d origin arrival bay level) rfl htakes rfl rfl ?_, ?_, ?_,
      fun c hc => ?_, fun q hq => ?_, rfl, rfl, rfl, rfl, rfl, rfl, rfl⟩
    · exact State.reqRestock_eq hdata ho harrival h1 h120 hb hnew hcount hlevel hheight h3 hinbound htop
    · exact Table.find_insert_same _ _ _
    · exact Table.find_insert_same _ _ _
    · exact Table.find_insert_other _ hc _
    · exact Table.find_insert_other _ hq _
  · have hok : reelIdOk r = true := by simp [reelIdOk, h1, hmax]
    have hperform : s.reqRemove r = ((s.removeReel r x).close s false).grant (((s.removeReel r x).close s false).reelRecord r x) := by
      simp only [State.reqRemove, hok, hx, Bool.true_eq_false, if_false]
      exact if_pos ⟨hstate, htag⟩
    have hrest := s.removeReel_eq r x
    refine ⟨s.removeReel r x, _, answered_in_run (r := .remove r) rfl htakes rfl rfl hperform, ?_, rfl, ?_, ?_, ?_, ?_, ?_, ?_,
      fun hplace => ?_, fun b l y hplace hb => ?_⟩
    · exact Table.find_erase_same _ _
    · rw [hrest]
      rfl
    · rw [hrest]
    · rw [hrest]
    · rw [hrest]
    · rw [hrest]
    · rw [hrest]
    · unfold State.removeReel
      dsimp only
      split
      case h_1 b l hloc =>
        rw [Reel.place_eq_some_iff.2 hloc] at hplace
        cases hplace
      case h_2 => rfl
    · have hloc := Reel.place_eq_some_iff.1 hplace
      have hremoved : s.removeReel r x = ((s.leaveBay b r).delReel r).rewatch := by
        simp only [State.removeReel, hloc]
      rw [hremoved]
      exact ⟨(State.leaveBay_left r hb).delReel.rewatch, fun c hc => s.leaveBay_bay_other b r hc⟩
  · have hok : reelIdOk r = true := by simp [reelIdOk, h1, hmax]
    refine refused_in_run (r := .remove r) rfl htakes rfl rfl (e := .state) ?_ rfl
    change s.reqRemove r = _
    simp only [State.reqRemove, hok, hx, Bool.true_eq_false, if_false]
    refine if_neg ?_
    rintro ⟨hstate, htag⟩
    rcases hbad with ⟨hn1, hn2⟩ | hn
    · exact hstate.elim hn1 hn2
    · exact hn htag

end Sys2Proof.Machine
end

section
/-!
PROOF. The requests that make orders: RELOCATE, RETURN, CLEAR, PARK (O23) and DELIVER (O22).
-/

namespace Sys2Proof.Machine

open Sys2Proof

variable {s t u : State} {tag n p r b l arm bay priority : Nat} {a : Arm} {q : Priority} {x : Reel}

/-! ### RELOCATE, RETURN, CLEAR and PARK (O23) -/

theorem State.bayPlace_of_inBay (hx : s.reel r = some x) (h : x.location = .inBay b l) : s.bayPlace r = .bay b l := by
  unfold State.bayPlace
  rw [hx, Option.bind_some, Reel.place_eq_some_iff.2 h]

theorem State.targetBay_isSome {bay : Nat} (h : bay ≠ 0 → (s.bay bay).isSome = true) : ¬(bay ≠ 0 ∧ (s.bay bay).isNone = true) := by
  rintro ⟨h0, hno⟩
  have := h h0
  cases hb : s.bay bay <;> simp [hb] at this hno

theorem State.reqRelocate_eq {own : Nat} {y : Bay} (hq : priorityOf priority = some q) (hfull : s.ordersFull = false) (h1 : 1 ≤ r)
    (hmax : r ≤ reelIdMax) (h120 : bay ≤ 120) (hx : s.reel r = some x) (hloc : x.location = .inBay own l) (hstate : x.state = .stored)
    (htag : x.tag = none) (hy : s.bay own = some y) (htop : y.stack.getLast? = some r) (hne : bay ≠ own)
    (hbay : bay ≠ 0 → (s.bay bay).isSome = true) (hb : s.targetBay bay x.grade x.width (some own) = some b) :
    s.reqRelocate r bay priority =
      ((s.createOrder ⟨.relocate, q, some r, .bay own l, .bay b 0, none, none⟩).close s false).grant (be2 s.nextTag ++ be1 b) := by
  have hrange : ¬(!(reelIdOk r && decide (bay ≤ 120))) = true := by simp [reelIdOk, h1, hmax, h120]
  have hmovable : s.movable r x = some own := by
    have htop' : (s.bay own).bind Bay.top = some r := by rw [hy]; exact htop
    simp only [State.movable, Reel.place_eq_some_iff.2 hloc, hstate, htag, htop', and_self, if_true]
  simp only [State.reqRelocate, hq, if_neg hrange, hx, if_neg (State.targetBay_isSome hbay), hmovable, if_neg hne, hfull, Bool.false_eq_true,
    if_false, hb, State.bayPlace_of_inBay hx hloc]

theorem State.freeButt_eq (harm : (s.pos p).arm a = some r) (hx : s.reel r = some x) (hstate : x.state = .butt) (htag : x.tag = none) :
    s.freeButt p a = some (r, x) := by
  simp only [State.freeButt, harm, hx]
  exact if_pos ⟨hstate, htag⟩

theorem State.reqReturn_eq (hq : priorityOf priority = some q) (hfull : s.ordersFull = false) (hp : positionOk p = true) (h120 : bay ≤ 120)
    (ha : armOf arm = some a) (harm : (s.pos p).arm a = some r) (hx : s.reel r = some x) (hstate : x.state = .butt) (htag : x.tag = none)
    (hbay : bay ≠ 0 → (s.bay bay).isSome = true) (hb : s.targetBay bay x.grade x.width none = some b) :
    s.reqReturn p arm bay priority = (((s.dropDisposal p a).makeReturn p a r b q).close s false).grant (be2 s.nextTag ++ be1 b) := by
  have hrange : ¬(!(positionOk p && decide (bay ≤ 120))) = true := by simp [hp, h120]
  simp only [State.reqReturn, ha, hq, if_neg hrange, if_neg (State.targetBay_isSome hbay), State.freeButt_eq harm hx hstate htag, hfull,
    Bool.false_eq_true, if_false, hb]

theorem State.reqClear_eq (hq : priorityOf priority = some q) (hfull : s.ordersFull = false) (hp : positionOk p = true)
    (ha : armOf arm = some a) (harm : (s.pos p).arm a = some r) (hx : s.reel r = some x) (hstate : x.state = .butt) (htag : x.tag = none)
    (hn : s.nodeOfKind .waste = some n) :
    s.reqClear p arm priority = (((s.dropDisposal p a).makeClear p a r n q).close s false).grant (be2 s.nextTag ++ be1 n) := by
  simp only [State.reqClear, ha, hq, hp, Bool.true_eq_false, if_false, State.freeButt_eq harm hx hstate htag, hfull, Bool.false_eq_true, hn]

/-- The URGENT priority of a DELIVER does not hang on the backlog's disposals. -/
theorem State.dropDisposal_buttPriority (s : State) (p : Nat) (a : Arm) (q : Priority) :
    (s.dropDisposal p a).buttPriority p q = s.buttPriority p q := by
  have hbacklog : (s.dropDisposal p a).orders.backlog.any (fun i => i.isDeliveryOf p && i.urgent) =
      s.orders.backlog.any fun i => i.isDeliveryOf p && i.urgent := by
    refine Bool.eq_iff_iff.2 ?_
    simp only [List.any_eq_true, Bool.and_eq_true]
    refine exists_congr fun i => and_congr_left fun hi => List.mem_filter.trans (and_iff_left ?_)
    cases i with
    | delivery => rfl
    | disposal => cases hi.1
  unfold State.buttPriority State.deliverUrgent
  rw [hbacklog]
  rfl

theorem Created.onPos {m : NewOrder} (h : Created s u m) (p : Nat) (f : Position → Position) : Created s (u.onPos p f) m :=
  ⟨h.order, h.others, h.lastTag, h.next, h.reel, h.reels, h.bay, h.bays, h.demands, h.vehicles, h.locks, h.frames, h.apart⟩

/-- An order made once an item has left the backlog is made as before. -/
theorem Created.of_dropDisposal {m : NewOrder} (h : Created (s.dropDisposal p a) u m) : Created s u m :=
  ⟨h.order, h.others, h.lastTag, h.next, h.reel, h.reels, h.bay, h.bays, h.demands, h.vehicles, h.locks, h.frames, h.apart⟩

/-- The butt of an arm taken into an order: what the RETURN and the CLEAR of a request have in common. -/
theorem created_for_butt (s : State) (p : Nat) (a : Arm) (m : NewOrder) :
    Created s (((s.dropDisposal p a).createOrder m).onPos p fun x => x.setDisposal a (some .ordered)) m ∧
      (((s.dropDisposal p a).createOrder m).onPos p fun x => x.setDisposal a (some .ordered)).pos p = (s.pos p).setDisposal a (some .ordered) ∧
      (∀ k, k ≠ p → (((s.dropDisposal p a).createOrder m).onPos p fun x => x.setDisposal a (some .ordered)).pos k = s.pos k) ∧
      (((s.dropDisposal p a).createOrder m).onPos p fun x => x.setDisposal a (some .ordered)).orders.backlog =
        s.orders.backlog.filter fun i => !(i.isDisposalOf p a) := by
  refine ⟨((created_createOrder _ m).onPos p _).of_dropDisposal, ?_, fun k hk => ?_, ?_⟩
  · rw [State.onPos_pos_same, State.createOrder_pos]
    rfl
  · rw [State.onPos_pos_other _ hk, State.createOrder_pos]
    rfl
  · exact State.createOrder_backlog _ _

/-- Settles O23: each of the four is `createOrder` of its order, RETURN and CLEAR with the backlog's item and the arm's disposal besides. -/
theorem orderRequests : Obligations.OrderRequests := by
  unfold Obligations.OrderRequests
  intro s tag priority q htakes hq hfull
  refine ⟨fun r bay b own l x y h1 hmax h120 hx hloc hstate htag hy htop hne hbay hb => ?_,
    fun p arm bay b r a x h1 h8 h120 ha harm hx hstate htag hbay hb => ?_,
    fun p arm n r a x h1 h8 ha harm hx hstate htag hn => ?_, fun v node h1 h12 hn1 hn96 hnode hstate horder hpark => ?_⟩
  · refine ⟨_, answered_in_run (r := .relocate r bay priority) rfl htakes rfl rfl ?_, created_createOrder _ _, State.createOrder_positions _ _⟩
    exact State.reqRelocate_eq hq hfull h1 hmax h120 hx hloc hstate htag hy htop hne hbay hb
  · have hperform := State.reqReturn_eq hq hfull (positionOk_iff.2 ⟨h1, h8⟩) h120 ha harm hx hstate htag hbay hb
    unfold State.makeReturn at hperform
    rw [State.dropDisposal_buttPriority] at hperform
    obtain ⟨hcreated, hpos, hother, hbacklog⟩ := created_for_butt s p a
      ⟨.ret, s.buttPriority p q, some r, .arm p (some a), .bay b 0, some p, none⟩
    exact ⟨_, answered_in_run (r := .ret p arm bay priority) rfl htakes rfl rfl hperform, hcreated, hpos, hother, hbacklog⟩
  · have hperform := State.reqClear_eq hq hfull (positionOk_iff.2 ⟨h1, h8⟩) ha harm hx hstate htag hn
    unfold State.makeClear at hperform
    rw [State.dropDisposal_buttPriority] at hperform
    obtain ⟨hcreated, hpos, hother, hbacklog⟩ := created_for_butt s p a
      ⟨.clear, s.buttPriority p q, some r, .arm p (some a), .node n, some p, none⟩
    exact ⟨_, answered_in_run (r := .clear p arm priority) rfl htakes rfl rfl hperform, hcreated, hpos, hother, hbacklog⟩
  · refine ⟨_, answered_in_run (r := .park v node priority) rfl htakes rfl rfl ?_, created_createOrder _ _, State.createOrder_positions _ _⟩
    have hrange : ¬(!(vehicleOk v && nodeOk node)) = true := by simp [vehicleOk, nodeOk_iff.2 ⟨hn1, hn96⟩, h1, h12]
    change s.reqPark v node priority = _
    simp only [State.reqPark, hq, if_neg hrange, hnode, Bool.true_eq_false, if_false, hstate, horder, hpark, hfull, Bool.false_eq_true,
      ne_eq, not_true_eq_false, or_self]

/-! ### DELIVER (O22) -/

/-- A DELIVER request's changes once its reel is found (R40, R49, R98). -/
def State.delivering (s : State) (p r : Nat) (q : Priority) : State :=
  ((if (s.pos p).callOff.state = .none then s.clearUrgency p else s).dropDelivery p).makeDeliver p r q

theorem State.deliverNow_eq (hx : s.reel r = some x) (hloc : x.location = .inBay b l) :
    s.deliverNow p r q = ((s.delivering p r q).close s false).grant (be1 1 ++ be2 s.nextTag ++ be4 r ++ be1 b) := by
  simp only [State.deliverNow, hx, Option.bind_some, Reel.place_eq_some_iff.2 hloc]
  rfl

/-- What DELIVER's changes are on the part `s` where its reel is `x`, in bay `b`. -/
theorem State.makeDeliver_order_same (s : State) (p r : Nat) (q : Priority) :
    (s.makeDeliver p r q).order s.nextTag = some (s.newOrder (s.deliverOrder p r q)) := by
  rw [State.makeDeliver_eq]
  have hmade : (s.createOrder (s.deliverOrder p r q)).order s.nextTag = some (s.newOrder (s.deliverOrder p r q)) := (created_createOrder _ _).order
  change Table.find (if q = .urgent then _ else _ : OrderList).table s.nextTag = _
  split
  · refine (State.raiseDisposals_order _ p _).trans ?_
    rw [hmade]
    rfl
  · exact hmade

theorem State.makeDeliver_order_other (s : State) (p r : Nat) (q : Priority) {k : Nat} (hk : k ≠ s.nextTag) :
    (s.makeDeliver p r q).order k = (s.order k).map fun o =>
      { o with priority := if q = .urgent ∧ o.position = some p ∧ o.progress = 1 ∧ (o.kind = .ret ∨ o.kind = .clear) then .urgent else o.priority } := by
  rw [State.makeDeliver_eq]
  have hmade : (s.createOrder (s.deliverOrder p r q)).order k = s.order k := (created_createOrder _ _).others k hk
  change Table.find (if q = .urgent then _ else _ : OrderList).table k = _
  split
  case isTrue hu =>
    refine (State.raiseDisposals_order _ p _).trans ?_
    rw [hmade]
    refine congrArg (fun f => Option.map f (s.order k)) (funext fun o => ?_)
    have hiff : o.disposesAt p = true ↔ q = .urgent ∧ o.position = some p ∧ o.progress = 1 ∧ (o.kind = .ret ∨ o.kind = .clear) := by
      simp only [Order.disposesAt, Bool.and_eq_true, Bool.or_eq_true, decide_eq_true_eq, hu, true_and]
      tauto
    by_cases hd : o.disposesAt p = true
    · rw [if_pos hd, if_pos (hiff.1 hd)]
    · rw [if_neg hd, if_neg (mt hiff.2 hd)]
  case isFalse hu =>
    refine hmade.trans ?_
    simp [hu]

theorem State.makeDeliver_backlog (s : State) (p r : Nat) (q : Priority) : (s.makeDeliver p r q).orders.backlog = s.orders.backlog.map (fun
    | .delivery k r c => .delivery k r c
    | .disposal k a c e => .disposal k a c (if q = .urgent ∧ k = p then .urgent else e)) := by
  rw [State.makeDeliver_eq]
  change (if q = .urgent then _ else _ : OrderList).backlog = _
  split
  case isTrue hu =>
    change List.map _ (s.createOrder _).orders.backlog = _
    rw [State.createOrder_backlog]
    refine List.map_congr_left fun i _ => ?_
    cases i with
    | delivery => rfl
    | disposal k a c e => by_cases hk : k = p <;> simp [BacklogItem.disposesAt, BacklogItem.raised, hk, hu]
  case isFalse hu =>
    refine (State.createOrder_backlog _ _).trans ?_
    refine (List.map_id _).symm.trans (List.map_congr_left fun i _ => ?_)
    cases i with
    | delivery => rfl
    | disposal => simp [hu]

/-- The part with the reel of a DELIVER in hand: `s` itself, or `s` with the reel reserved. -/
structure State.InHand (s t : State) (p r : Nat) (x : Reel) : Prop where
  rest : t = { s with reels := t.reels, rest := { s.rest with watch := t.rest.watch } }
  reel : ∀ k, t.reel k = if k = r then some { x with state := .reserved, reservation := some p } else s.reel k

theorem State.inHand_reserve (hx : s.reel r = some x) (p : Nat) : s.InHand (s.reserve r p) p r x where
  rest := by
    unfold State.reserve State.rewatch
    rw [State.onReel_eq]
  reel k := by
    rw [State.reserve_reel, hx]
    rfl

theorem State.inHand_self (hx : s.reel r = some x) (hstate : x.state = .reserved) (hp : x.reservation = some p) : s.InHand s p r x where
  rest := rfl
  reel k := by
    split
    case isTrue h =>
      subst h
      rw [hx, ← hstate, ← hp]
    case isFalse => rfl

/-- The part a DELIVER's order is made in. -/
def State.preparedFor (s : State) (p : Nat) : State := (if (s.pos p).callOff.state = .none then s.clearUrgency p else s).dropDelivery p

theorem State.preparedFor_eq (s : State) (p : Nat) : s.preparedFor p = { s with
    positions := (s.preparedFor p).positions
    orders := { s.orders with backlog := s.orders.backlog.filter fun i => !(i.isDeliveryOf p) } } := by
  unfold State.preparedFor
  split <;> rfl

theorem State.preparedFor_pos_same (s : State) (p : Nat) : (s.preparedFor p).pos p = { s.pos p with callOff := { (s.pos p).callOff with
    urgencyReported := if (s.pos p).callOff.state = .none then false else (s.pos p).callOff.urgencyReported } } := by
  unfold State.preparedFor
  split
  case isTrue h =>
    change (s.clearUrgency p).pos p = _
    exact State.onPos_pos_same _ p _
  case isFalse h => rfl

theorem State.preparedFor_pos_other (s : State) {p k : Nat} (h : k ≠ p) : (s.preparedFor p).pos k = s.pos k := by
  unfold State.preparedFor
  split
  · change (s.clearUrgency p).pos k = _
    exact State.onPos_pos_other _ h _
  · rfl

theorem State.InHand.prepared (h : s.InHand t p r x) : (t.preparedFor p).reels = t.reels ∧ (t.preparedFor p).nextTag = s.nextTag ∧
    (∀ m, (t.preparedFor p).newOrder m = s.newOrder m) ∧ (t.preparedFor p).order = s.order ∧ t.pos = s.pos ∧
    (t.preparedFor p).orders.backlog = s.orders.backlog.filter (fun i => !(i.isDeliveryOf p)) ∧
    (t.preparedFor p).demands = s.demands ∧ (t.preparedFor p).notices = s.notices ∧ (t.preparedFor p).bays = s.bays ∧
    (t.preparedFor p).vehicles = s.vehicles ∧ (t.preparedFor p).locks = s.locks ∧ (t.preparedFor p).vlink = s.vlink ∧
    (t.preparedFor p).apart = s.apart := by
  rw [t.preparedFor_eq p, h.rest]
  exact ⟨rfl, rfl, fun _ => rfl, rfl, rfl, rfl, rfl, rfl, rfl, rfl, rfl, rfl, rfl⟩

/-- DELIVER with the reel its checks have found (R56, step 5). -/
def State.deliverPicked (s : State) (p : Nat) (q : Priority) : Pick → State × Answer
  | .refused => s.refuse .state
  | .reserved r => s.deliverNow p r q
  | .fresh r => (s.reserve r p).deliverNow p r q
  | .noStock d => s.deliverQueued p d

theorem State.reqDeliver_eq {reel : Nat} (hq : priorityOf priority = some q) (hp : positionOk p = true) (hmax : reel ≤ reelIdMax)
    (henabled : (s.pos p).enabled = true) (hnone : s.deliverOf p = none) (hknown : reel ≠ 0 → (s.reel reel).isSome = true)
    (hfull : s.ordersFull = false) : s.reqDeliver p reel priority = s.deliverPicked p q (s.pickFor p reel) := by
  have hrange : ¬(!(positionOk p && decide (reel ≤ reelIdMax))) = true := by simp [hp, hmax]
  have hknown' : ¬(reel ≠ 0 ∧ (s.reel reel).isNone = true) := by
    rintro ⟨h0, hno⟩
    have := hknown h0
    cases hr : s.reel reel <;> simp [hr] at this hno
  simp only [State.reqDeliver, hq, if_neg hrange, henabled, hnone, Option.isSome_none, Bool.true_eq_false, Bool.false_eq_true, or_self,
    if_false, if_neg hknown', hfull]
  cases s.pickFor p reel <;> rfl

/-- The close of an event looks at the orders and the vehicles of the part before it. -/
theorem State.close_congr {pre pre' : State} (horder : pre.order = pre'.order) (hveh : pre.veh = pre'.veh) (s : State) (force : Bool) :
    s.close pre force = s.close pre' force := by
  unfold State.close assignmentDue newWaiting State.idleFree
  rw [horder, hveh]

/-- The reply and the part a DELIVER leaves with its reel in hand, in the words of its statement. -/
theorem State.InHand.delivered (h : s.InHand t p r x) (hloc : x.location = .inBay b l) :
    (t.deliverNow p r q = ((t.delivering p r q).close s false).grant (be1 1 ++ be2 s.nextTag ++ be4 r ++ be1 b)) ∧
    (t.delivering p r q).order s.nextTag = some (s.newOrder ⟨.deliver, q, some r, .bay b l, .arm p none, some p, none⟩) ∧
    (t.delivering p r q).reel r = some { x with state := .reserved, reservation := some p, tag := some s.nextTag } ∧
    (∀ k, k ≠ r → (t.delivering p r q).reel k = s.reel k) ∧
    (t.delivering p r q).demands = s.demands.filter (fun e => decide (e.position ≠ p)) ∧
    ((t.delivering p r q).pos p).callOff =
      ⟨.ordered, false, if (s.pos p).callOff.state = .none then false else (s.pos p).callOff.urgencyReported⟩ ∧
    (t.delivering p r q).notices = s.notices ∧
    (∀ k, k ≠ s.nextTag → (t.delivering p r q).order k = (s.order k).map fun o => { o with
      priority := if q = .urgent ∧ o.position = some p ∧ o.progress = 1 ∧ (o.kind = .ret ∨ o.kind = .clear) then .urgent else o.priority }) ∧
    (t.delivering p r q).orders.backlog = (s.orders.backlog.filter fun i => !(i.isDeliveryOf p)).map (fun
      | .delivery k r c => .delivery k r c
      | .disposal k a c e => .disposal k a c (if q = .urgent ∧ k = p then .urgent else e)) ∧
    (∀ k, k ≠ p → (t.delivering p r q).pos k = s.pos k) ∧ ((t.delivering p r q).pos p).core = (s.pos p).core ∧
    (t.delivering p r q).bays = s.bays ∧ (t.delivering p r q).vehicles = s.vehicles ∧ (t.delivering p r q).locks = s.locks ∧
    (t.delivering p r q).vlink = s.vlink ∧ (t.delivering p r q).apart = s.apart := by
  obtain ⟨hreels, htag, hnew, horder, hpos, hbacklog, hdemands, hnotices, hbays, hvehicles, hlocks, hvlink, hapart⟩ := h.prepared
  have hreel (k : Nat) : (t.preparedFor p).reel k = t.reel k := congrArg (fun y : Table Reel => y.find k) hreels
  have hx : t.reel r = some { x with state := .reserved, reservation := some p } := (h.reel r).trans (if_pos rfl)
  have hplace : (t.preparedFor p).bayPlace r = .bay b l := State.bayPlace_of_inBay ((hreel r).trans hx) hloc
  have hpos' (k : Nat) : (t.delivering p r q).pos k = if k = p then ((t.preparedFor p).pos p).ordered else (t.preparedFor p).pos k :=
    State.pos_of_insert (by unfold State.delivering; rw [State.makeDeliver_eq]; rfl) k
  have htag' : t.nextTag = s.nextTag := by rw [h.rest]; rfl
  have htagged (k : Nat) : (t.delivering p r q).reel k = if some r = some k then (t.reel k).map fun y => { y with tag := some s.nextTag }
      else t.reel k := by
    change ((t.preparedFor p).makeDeliver p r q).reels.find k = _
    rw [State.makeDeliver_eq]
    refine (taggedReels_find _ _ k).trans ?_
    rw [hreel, htag]
    rfl
  refine ⟨?_, ?_, ?_, fun k hk => ?_, ?_, ?_, ?_, fun k hk => ?_, ?_, fun k hk => ?_, ?_, ?_, ?_, ?_, ?_, ?_⟩
  · rw [State.deliverNow_eq hx hloc, htag', State.close_congr (pre' := s) (by rw [h.rest]; rfl) (by rw [h.rest]; rfl)]
  · have hmade := (t.preparedFor p).makeDeliver_order_same p r q
    rw [htag, hnew, State.deliverOrder, hplace] at hmade
    exact hmade
  · rw [htagged, if_pos rfl, hx]
    rfl
  · rw [htagged, if_neg (by simpa using Ne.symm hk), h.reel, if_neg hk]
  · refine Eq.trans ?_ (congrArg (List.filter fun e => decide (e.position ≠ p)) hdemands)
    exact congrArg State.demands (State.makeDeliver_eq _ p r q)
  · rw [hpos', if_pos rfl, State.preparedFor_pos_same, hpos]
    rfl
  · exact (congrArg State.notices (State.makeDeliver_eq _ p r q)).trans hnotices
  · refine ((t.preparedFor p).makeDeliver_order_other p r q (by rw [htag]; exact hk)).trans ?_
    rw [horder]
  · exact ((t.preparedFor p).makeDeliver_backlog p r q).trans (by rw [hbacklog])
  · rw [hpos', if_neg hk, State.preparedFor_pos_other _ hk, hpos]
  · rw [hpos', if_pos rfl, State.preparedFor_pos_same, hpos]
    rfl
  · exact (congrArg State.bays (State.makeDeliver_eq _ p r q)).trans hbays
  · exact (congrArg State.vehicles (State.makeDeliver_eq _ p r q)).trans hvehicles
  · exact (congrArg State.locks (State.makeDeliver_eq _ p r q)).trans hlocks
  · exact (congrArg State.vlink (State.makeDeliver_eq _ p r q)).trans hvlink
  · exact (congrArg State.apart (State.makeDeliver_eq _ p r q)).trans hapart

/-! ### A DELIVER without stock (R32) -/

theorem placeIn_eq {e : DemandEntry} (he : e.position = p) {later : List DemandEntry} : ∀ (m : Nat) {earlier : List DemandEntry},
    (∀ i ∈ earlier, i.position ≠ p) → placeIn p m (earlier ++ e :: later) = m + earlier.length
  | m, [], _ => if_pos he
  | m, i :: earlier, h => by
    refine (if_neg (h i List.mem_cons_self)).trans ?_
    refine (placeIn_eq he (m + 1) fun j hj => h j (List.mem_cons_of_mem _ hj)).trans ?_
    rw [List.length_cons]
    omega

/-- A notice raised on a part that has the notices and the clock of `s`. -/
theorem State.raise_eq_of (hnotices : t.notices = s.notices) (hclock : t.clock = s.clock) (b : Subjects) :
    t.raise b = { t with notices := (s.raise b).notices } := by
  rw [State.raise_eq t, State.raise_notices_congr hnotices hclock]

theorem State.joinQueue_of_none {d : Demand} (hnone : s.demandEntry p = none) : s.joinQueue p d = { s with
    demands := s.demands ++ [⟨p, d.grade, d.width, s.clock.seconds⟩]
    positions := (s.setCallOff p .waitStock false).positions
    notices := (s.raise (.noStock p d.grade d.width)).notices } := by
  unfold State.joinQueue State.addDemand
  rw [if_neg (by simp [hnone])]
  refine (State.raise_eq_of (s := s) ?_ ?_ _).trans ?_ <;> rfl

/-- The part a demand without stock leaves (R32, R98). -/
def State.queued (s : State) (p : Nat) (d : Demand) : State := (if (s.pos p).callOff.state = .none then s.clearUrgency p else s).joinQueue p d

theorem State.queued_eq {d : Demand} (hnone : s.demandEntry p = none) : s.queued p d = { s with
    demands := s.demands ++ [⟨p, d.grade, d.width, s.clock.seconds⟩]
    positions := (s.queued p d).positions
    notices := (s.raise (.noStock p d.grade d.width)).notices } := by
  unfold State.queued
  split
  · rw [State.joinQueue_of_none (s := s.clearUrgency p) hnone, State.raise_notices_congr (s := s.clearUrgency p) (t := s) rfl rfl]
    rfl
  · rw [State.joinQueue_of_none hnone]

theorem State.queued_positions {d : Demand} (hnone : s.demandEntry p = none) : (∀ k, k ≠ p → (s.queued p d).pos k = s.pos k) ∧
    (s.queued p d).pos p = { s.pos p with callOff :=
      ⟨.waitStock, false, if (s.pos p).callOff.state = .none then false else (s.pos p).callOff.urgencyReported⟩ } := by
  have hjoin {t : State} (ht : t.demandEntry p = none) (k : Nat) : (t.joinQueue p d).pos k = (t.setCallOff p .waitStock false).pos k := by
    rw [State.joinQueue_of_none ht]
    rfl
  have hclear : (s.clearUrgency p).demandEntry p = none := hnone
  unfold State.queued
  split
  · refine ⟨fun k hk => ?_, ?_⟩
    · rw [hjoin hclear k]
      simp [State.setCallOff, State.clearUrgency, hk]
    · rw [hjoin hclear p]
      simp [State.setCallOff, State.clearUrgency]
  · refine ⟨fun k hk => ?_, ?_⟩
    · rw [hjoin hnone k]
      simp [State.setCallOff, hk]
    · rw [hjoin hnone p]
      simp [State.setCallOff]

/-- Settles O22: the three ways a reel comes to hand leave the same part but for its record, and `makeDeliver` does the rest. -/
theorem deliverRequest : Obligations.DeliverRequest := by
  unfold Obligations.DeliverRequest
  intro s tag p reel priority r b l q x htakes h1 h8 hmax hq henabled hnone hfull
  have hp := positionOk_iff.2 ⟨h1, h8⟩
  refine ⟨fun hx hloc hways => ?_, fun d hreel hopen hdemand hselect => ⟨fun hentry => ?_, fun earlier e later hdemands hearlier he => ?_⟩⟩
  · rcases hways with ⟨hopen, hstate, hplace, -, hreel⟩ | ⟨hopen, rfl, hr0, helig⟩ | ⟨hopen, rfl, d, hdemand, hselect⟩
    · obtain ⟨hgrant, hrest⟩ := (State.inHand_self hx hstate hplace).delivered (q := q) hloc
      refine ⟨_, answered_in_run (r := .deliver p reel priority) rfl htakes rfl rfl ?_, hrest⟩
      refine (State.reqDeliver_eq hq hp hmax henabled hnone (fun h0 => ?_) hfull).trans ?_
      · rw [← hreel.resolve_left h0] at hx
        rw [hx]
        rfl
      · simp only [State.pickFor, hopen, if_pos hreel]
        exact hgrant
    · obtain ⟨hgrant, hrest⟩ := (State.inHand_reserve hx p).delivered (q := q) hloc
      refine ⟨_, answered_in_run (r := .deliver p reel priority) rfl htakes rfl rfl ?_, hrest⟩
      refine (State.reqDeliver_eq hq hp hmax henabled hnone (fun _ => by rw [hx]; rfl) hfull).trans ?_
      simp only [State.pickFor, hopen, if_pos hr0, helig, if_true]
      exact hgrant
    · obtain ⟨hgrant, hrest⟩ := (State.inHand_reserve hx p).delivered (q := q) hloc
      refine ⟨_, answered_in_run (r := .deliver p 0 priority) rfl htakes rfl rfl ?_, hrest⟩
      refine (State.reqDeliver_eq hq hp hmax henabled hnone (fun h0 => absurd rfl h0) hfull).trans ?_
      simp only [State.pickFor, hopen, hdemand, hselect]
      exact hgrant
  · subst hreel
    have hwhole := State.queued_eq (d := d) hentry
    obtain ⟨hother, hsame⟩ := State.queued_positions (d := d) hentry
    refine ⟨s.queued p d, answered_in_run (r := .deliver p 0 priority) rfl htakes rfl rfl ?_, ?_, ?_, ?_, ?_, hother, ?_, ?_, ?_, ?_, ?_, ?_⟩
    · refine (State.reqDeliver_eq hq hp hmax henabled hnone (fun h0 => absurd rfl h0) hfull).trans ?_
      have hplace : (s.queued p d).queuePlace p = s.demands.length + 1 := by
        have hearlier : ∀ i ∈ s.demands, i.position ≠ p := fun i hi => by simpa using List.find?_eq_none.1 hentry i hi
        rw [hwhole, State.queuePlace]
        exact (placeIn_eq (e := ⟨p, d.grade, d.width, s.clock.seconds⟩) rfl 1 hearlier).trans (Nat.add_comm 1 _)
      simp only [State.pickFor, hopen, hdemand, hselect]
      change s.deliverQueued p d = _
      rw [← hplace]
      simp only [State.deliverQueued, hentry, Option.isSome_none, Bool.false_eq_true, if_false]
      rfl
    · rw [hwhole]
    · rw [hsame]
    · rw [hwhole]
    · rw [hsame]
      rfl
    · rw [hwhole]
    · rw [hwhole]
    · rw [hwhole]
    · rw [hwhole]
    · rw [hwhole]
    · have hhandling : (s.raise (.noStock p d.grade d.width)).notices.handling = s.notices.handling := congrArg Apart.handling (s.raise_apart _)
      rw [hwhole]
      unfold State.apart
      rw [← hhandling]
  · subst hreel
    have hentry : (s.demandEntry p).isSome = true := by
      refine List.find?_isSome.2 ⟨e, ?_, by simpa using he⟩
      rw [hdemands]
      exact List.mem_append_right _ List.mem_cons_self
    refine answered_in_run (r := .deliver p 0 priority) rfl htakes rfl rfl ?_
    refine (State.reqDeliver_eq hq hp hmax henabled hnone (fun h0 => absurd rfl h0) hfull).trans ?_
    simp only [State.pickFor, hopen, hdemand, hselect]
    change s.deliverQueued p d = _
    have hplace : s.queuePlace p = earlier.length + 1 := by
      rw [State.queuePlace, hdemands]
      exact (placeIn_eq he 1 hearlier).trans (Nat.add_comm 1 _)
    simp only [State.deliverQueued, hentry, if_true, hplace]

end Sys2Proof.Machine
end

section
/-!
PROOF. The parts of a removal and of a conversion (R53, R54), one rule each: the reel freed, the call-off ended, the zones given up, the vehicle
that stands down.
-/

namespace Sys2Proof.Machine

open Sys2Proof

variable {s t u : State} {n v p r b k : Nat} {o : Order} {x : Reel}

/-! ### Zones given up, and a vehicle that stands down -/

theorem State.dropGrant_eq (s : State) (v : Nat) : s.dropGrant v = { s with locks := (s.dropGrant v).locks } := by
  unfold State.dropGrant
  split <;> rfl

/-- A FAULTED or LOST vehicle keeps its zones; any other keeps the one it stands in (R53, R75). -/
theorem State.dropGrant_locks (h : (s.veh v).state = .faulted ∨ (s.veh v).state = .lost) : (s.dropGrant v).locks = s.locks := by
  unfold State.dropGrant
  rw [if_pos h]

theorem State.dropGrant_holder (hf : (s.veh v).state ≠ .faulted) (hl : (s.veh v).state ≠ .lost) (hwf : s.locks.wf = true) (z : Nat) :
    (s.holder z = some v → some z ≠ s.standingZone v → (s.dropGrant v).holder z = none) ∧
    (s.holder z ≠ some v ∨ some z = s.standingZone v → (s.dropGrant v).holder z = s.holder z) := by
  have hkeep : (s.dropGrant v).holder z = if s.holder z = some v ∧ some z ≠ s.standingZone v then none else s.holder z := by
    unfold State.dropGrant
    rw [if_neg (not_or.2 ⟨hf, hl⟩)]
    exact State.holder_keepZone hwf v z _
  rw [hkeep]
  refine ⟨fun h1 h2 => if_pos ⟨h1, h2⟩, fun h => if_neg ?_⟩
  rintro ⟨h1, h2⟩
  exact h.elim (· h1) h2

theorem State.standDown_eq (s : State) (v : Nat) (o : Order) : s.standDown v o = { s with vehicles := (s.standDown v o).vehicles } := by
  unfold State.standDown
  split <;> rfl

theorem State.standDown_veh_other (s : State) (o : Order) (h : k ≠ v) : (s.standDown v o).veh k = s.veh k := by
  unfold State.standDown
  split
  · exact State.onVeh_veh_other _ h _
  · rfl

theorem State.standDown_veh_idle (h1 : (s.veh v).state = .stopped) (h2 : (s.veh v).prior = some .offered) (h3 : o.goSent = false) :
    (s.standDown v o).veh v = { s.veh v with state := .idle, prior := none } := by
  unfold State.standDown
  rw [if_pos ⟨h1, h2, h3⟩]
  exact State.onVeh_veh_same _ v _

theorem State.standDown_veh_same (h : (s.veh v).state ≠ .stopped ∨ (s.veh v).prior ≠ some .offered ∨ o.goSent = true) :
    (s.standDown v o).veh v = s.veh v := by
  unfold State.standDown
  rw [if_neg]
  rintro ⟨h1, h2, h3⟩
  rcases h with h | h | h
  · exact h h1
  · exact h h2
  · rw [h3] at h
    cases h

/-! ### The vehicle of a removed order -/

theorem State.freeVehicleOf_eq (s : State) (n : Nat) (o : Order) : s.freeVehicleOf n o =
    { s with vehicles := (s.freeVehicleOf n o).vehicles, locks := (s.freeVehicleOf n o).locks } := by
  unfold State.freeVehicleOf
  split
  · split
    · rw [State.standDown_eq, State.dropGrant_eq]
      rfl
    · rfl
  · rfl

theorem State.freeVehicleOf_bound (hv : o.vehicle = some v) (hbound : (s.veh v).order = some n) :
    s.freeVehicleOf n o = ((s.unbind v).dropGrant v).standDown v o := by
  simp only [State.freeVehicleOf, hv, hbound, if_true]

theorem State.unbind_veh_same (s : State) (v : Nat) : (s.unbind v).veh v = { s.veh v with order := none } := State.onVeh_veh_same _ v _

theorem State.unbind_standingZone (s : State) (v : Nat) : (s.unbind v).standingZone v = s.standingZone v := by
  unfold State.standingZone
  rw [State.unbind_veh_same]
  rfl

theorem State.dropGrant_veh (s : State) (v k : Nat) : (s.dropGrant v).veh k = s.veh k := by
  rw [State.dropGrant_eq]
  rfl

/-- What a removal leaves of the vehicle bound to the order (R53). -/
theorem State.freeVehicleOf_spec (hv : o.vehicle = some v) (hbound : (s.veh v).order = some n) :
    ((s.veh v).state = .stopped → (s.veh v).prior = some .offered → o.goSent = false →
      (s.freeVehicleOf n o).veh v = { s.veh v with state := .idle, prior := none, order := none }) ∧
    ((s.veh v).state ≠ .stopped ∨ (s.veh v).prior ≠ some .offered ∨ o.goSent = true →
      (s.freeVehicleOf n o).veh v = { s.veh v with order := none }) ∧
    ((s.veh v).state = .faulted ∨ (s.veh v).state = .lost → (s.freeVehicleOf n o).locks = s.locks) ∧
    ((s.veh v).state ≠ .faulted → (s.veh v).state ≠ .lost → s.locks.wf = true → ∀ z,
      (s.holder z = some v → some z ≠ s.standingZone v → (s.freeVehicleOf n o).holder z = none) ∧
      (s.holder z ≠ some v ∨ some z = s.standingZone v → (s.freeVehicleOf n o).holder z = s.holder z)) := by
  have hveh : ((s.unbind v).dropGrant v).veh v = { s.veh v with order := none } := (State.dropGrant_veh _ v v).trans (s.unbind_veh_same v)
  have hunbound := s.unbind_veh_same v
  have hlocks : (((s.unbind v).dropGrant v).standDown v o).locks = ((s.unbind v).dropGrant v).locks := by rw [State.standDown_eq]
  rw [State.freeVehicleOf_bound hv hbound]
  refine ⟨fun h1 h2 h3 => ?_, fun h => ?_, fun h => ?_, fun hf hl hwf z => ?_⟩
  · rw [State.standDown_veh_idle (by rw [hveh]; exact h1) (by rw [hveh]; exact h2) h3, hveh]
  · rw [State.standDown_veh_same (by rw [hveh]; exact h), hveh]
  · rw [hlocks, State.dropGrant_locks (by rw [hunbound]; exact h)]
    rfl
  · have hzone := State.dropGrant_holder (s := s.unbind v) (v := v) (by rw [hunbound]; exact hf) (by rw [hunbound]; exact hl) hwf z
    rw [State.unbind_standingZone] at hzone
    unfold State.holder at hzone ⊢
    rw [hlocks]
    exact hzone

theorem State.freeVehicleOf_other (h : o.vehicle ≠ some v ∨ (s.veh v).order ≠ some n) : (s.freeVehicleOf n o).veh v = s.veh v := by
  unfold State.freeVehicleOf
  cases hv : o.vehicle with
  | none => rfl
  | some w =>
    dsimp only
    split
    case isFalse => rfl
    case isTrue hbound =>
      have hne : v ≠ w := by
        rintro rfl
        exact h.elim (· hv) (· hbound)
      rw [State.standDown_veh_other _ o hne, State.dropGrant_veh]
      exact State.onVeh_veh_other _ hne _

/-! ### The reel and the position of a removed order -/

/-- A reel whose order has gone (R53). -/
def Reel.freed (x : Reel) : Reel :=
  if x.state = .reserved then { x with state := .stored, reservation := none, tag := none } else { x with tag := none }

theorem State.release_eq (s : State) (r : Nat) : s.release r = { s with
    reels := (s.release r).reels, rest := { s.rest with watch := (s.release r).rest.watch } } := by
  unfold State.release State.rewatch
  rw [State.onReel_eq]

theorem State.freeReel_eq (s : State) (r : Nat) : s.freeReel r = { s with
    reels := (s.freeReel r).reels, rest := { s.rest with watch := (s.freeReel r).rest.watch }, positions := (s.freeReel r).positions } := by
  unfold State.freeReel
  split
  · rfl
  · split
    · rw [State.release_eq]
    · dsimp only
      split <;> rfl

theorem State.freeReel_reel (s : State) (r k : Nat) : (s.freeReel r).reel k = if k = r then (s.reel r).map Reel.freed else s.reel k := by
  unfold State.freeReel
  split
  case h_1 hnone =>
    split
    case isTrue h => rw [h, hnone]; rfl
    case isFalse => rfl
  case h_2 x hx =>
    by_cases hres : x.state = .reserved
    · rw [if_pos hres]
      refine (State.reel_onReel s r k _).trans ?_
      split
      · rw [hx, Option.map_some, Option.map_some, Reel.freed, if_pos hres]
      · rfl
    · rw [if_neg hres]
      have hset : (s.setReel r { x with tag := none }).reel k = if k = r then (s.reel r).map Reel.freed else s.reel k := by
        refine (Table.find_insert _ _ _ _).trans ?_
        split
        · rw [hx, Option.map_some, Reel.freed, if_neg hres]
        · rfl
      dsimp only
      split
      · exact hset
      · exact hset

theorem State.freeReel_butt {a : Arm} (hstate : (s.reel r).map (·.state) = some .butt)
    (hloc : (s.reel r).map (·.location) = some (.onArm p a)) : ((s.freeReel r).pos p).disposal a = some .manual := by
  cases hx : s.reel r with
  | none => rw [hx] at hstate; cases hstate
  | some x =>
    rw [hx] at hstate hloc
    have hstate : x.state = .butt := Option.some.inj hstate
    have hloc : x.location = .onArm p a := Option.some.inj hloc
    simp only [State.freeReel, hx, hstate, hloc, reduceCtorEq, if_false]
    rw [State.onPos_pos_same]
    cases a <;> rfl

theorem State.callOffEnds_eq (s : State) (o : Order) : s.callOffEnds o = { s with positions := (s.callOffEnds o).positions } := by
  unfold State.callOffEnds State.whenSome
  split
  · split <;> rfl
  · rfl

theorem State.callOffEnds_pos (hkind : o.kind = .deliver) (hp : o.position = some p) :
    ((s.callOffEnds o).pos p).callOff.state = .none := by
  simp only [State.callOffEnds, hkind, hp, if_true, State.whenSome]
  exact congrArg (fun y : Position => y.callOff.state) (State.onPos_pos_same _ p _)

/-- The end of a call-off changes its record alone. -/
theorem State.callOffEnds_core (s : State) (o : Order) (p : Nat) : ((s.callOffEnds o).pos p).core = (s.pos p).core := by
  unfold State.callOffEnds State.whenSome
  split
  case isFalse => rfl
  case isTrue =>
    split
    case h_2 => rfl
    case h_1 q _ =>
      by_cases hp : p = q
      · subst hp
        change ((s.setCallOff p .none false).pos p).core = _
        rw [State.setCallOff, State.onPos_pos_same]
        rfl
      · exact congrArg Position.core (State.onPos_pos_other _ hp _)

theorem Position.disposal_of_core {x y : Position} (h : x.core = y.core) (a : Arm) : x.disposal a = y.disposal a := by
  have hA : x.core.disposalA = y.core.disposalA := by rw [h]
  have hB : x.core.disposalB = y.core.disposalB := by rw [h]
  cases a
  · exact hA
  · exact hB

theorem State.unpromise_eq (s : State) (b : Nat) : s.unpromise b = { s with bays := (s.unpromise b).bays } := State.onBay_eq s b _

theorem State.unpromise_bay (s : State) (b k : Nat) :
    (s.unpromise b).bay k = if k = b then (s.bay b).map fun y => { y with inbound := y.inbound - 1 } else s.bay k := State.bay_onBay s b k _

theorem State.promise_bay_eq (s : State) (b k : Nat) :
    (s.promise b).bay k = if k = b then (s.bay b).map fun y => { y with inbound := y.inbound + 1 } else s.bay k := State.bay_onBay s b k _

/-- The promise of an order withdrawn, where it has a bay for its destination. -/
theorem State.unpromised_eq (s : State) (d : Place) : s.whenSome d.bay? State.unpromise =
    { s with bays := (s.whenSome d.bay? State.unpromise).bays } := by
  cases d.bay? with
  | none => rfl
  | some b => exact s.unpromise_eq b

theorem State.unpromised_bay (s : State) (d : Place) (k : Nat) : (s.whenSome d.bay? State.unpromise).bay k =
    if d.bay? = some k then (s.bay k).map fun y => { y with inbound := y.inbound - 1 } else s.bay k := by
  cases hd : d.bay? with
  | none => rfl
  | some b =>
    refine (s.unpromise_bay b k).trans ?_
    by_cases h : k = b
    · subst h
      simp
    · simp [h, Ne.symm h]

end Sys2Proof.Machine
end

section
/-!
PROOF. Removal of an order, conversion, and the creation backlog (O25).
-/

namespace Sys2Proof.Machine

open Sys2Proof

variable {s t u : State} {n v p r b k : Nat} {o : Order} {x : Reel} {a : Arm} {q : Priority}

/-! ### Removal (R53) -/

theorem State.reelFreed_eq (s : State) (c : Option Nat) : s.whenSome c State.freeReel = { s with
    reels := (s.whenSome c State.freeReel).reels
    rest := { s.rest with watch := (s.whenSome c State.freeReel).rest.watch }
    positions := (s.whenSome c State.freeReel).positions } := by
  cases c with
  | none => rfl
  | some r => exact s.freeReel_eq r

theorem State.reelFreed_reel (s : State) (c : Option Nat) (k : Nat) : (s.whenSome c State.freeReel).reel k =
    if c = some k then (s.reel k).map Reel.freed else s.reel k := by
  cases c with
  | none => rfl
  | some r =>
    refine (s.freeReel_reel r k).trans ?_
    by_cases h : k = r
    · subst h
      simp
    · simp [h, Ne.symm h]

/-- The part without the order `n`, its reel, promise and call-off freed, its vehicle still bound (R53). -/
def State.orderGone (s : State) (n : Nat) (o : Order) : State :=
  ((((s.withdrawOrderGo n).delOrder n).whenSome o.reel State.freeReel).whenSome o.destination.bay? State.unpromise).callOffEnds o

theorem State.dropOrder_eq (s : State) (n : Nat) (o : Order) : s.dropOrder n o = (s.orderGone n o).freeVehicleOf n o := rfl

theorem State.orderGone_eq (s : State) (n : Nat) (o : Order) : s.orderGone n o = { s with
    orders := { s.orders with table := s.orders.table.erase n }
    vlink := (s.withdrawOrderGo n).vlink
    reels := (s.orderGone n o).reels
    rest := { s.rest with watch := (s.orderGone n o).rest.watch }
    positions := (s.orderGone n o).positions
    bays := (s.orderGone n o).bays } := by
  unfold State.orderGone
  rw [State.callOffEnds_eq, State.unpromised_eq, State.reelFreed_eq]
  rfl

theorem State.orderGone_reel (s : State) (n : Nat) (o : Order) (k : Nat) : (s.orderGone n o).reel k =
    if o.reel = some k then (s.reel k).map Reel.freed else s.reel k := by
  refine Eq.trans ?_ (((s.withdrawOrderGo n).delOrder n).reelFreed_reel o.reel k)
  unfold State.orderGone
  rw [State.callOffEnds_eq, State.unpromised_eq]
  rfl

theorem State.orderGone_bay (s : State) (n : Nat) (o : Order) (k : Nat) : (s.orderGone n o).bay k =
    if o.destination.bay? = some k then (s.bay k).map fun y => { y with inbound := y.inbound - 1 } else s.bay k := by
  unfold State.orderGone
  rw [State.callOffEnds_eq]
  refine (State.unpromised_bay _ o.destination k).trans ?_
  rw [State.reelFreed_eq]
  rfl

theorem State.orderGone_butt (hr : o.reel = some r) (hstate : (s.reel r).map (·.state) = some .butt)
    (hloc : (s.reel r).map (·.location) = some (.onArm p a)) : ((s.orderGone n o).pos p).disposal a = some .manual := by
  refine (Position.disposal_of_core (State.callOffEnds_core _ o p) a).trans ?_
  rw [State.unpromised_eq, hr]
  exact State.freeReel_butt (s := (s.withdrawOrderGo n).delOrder n) hstate hloc

theorem State.withdrawOrderGo_frames (s : State) (n : Nat) : ∀ f ∈ (s.withdrawOrderGo n).vlink.queue ++ (s.withdrawOrderGo n).vlink.waiting,
    ¬(f.isGo = true ∧ f.goTag = n) := by
  rintro f hf ⟨hgo, htag⟩
  have hkept := (State.mem_withdraw.1 hf).2
  simp [hgo, htag] at hkept

/-- The whole of a removal before the freed entry goes to the backlog (R53). -/
theorem State.dropOrder_fields (s : State) (n : Nat) (o : Order) : (s.dropOrder n o).orders = { s.orders with table := s.orders.table.erase n } ∧
    (s.dropOrder n o).vlink = (s.withdrawOrderGo n).vlink ∧ (s.dropOrder n o).reels = (s.orderGone n o).reels ∧
    (s.dropOrder n o).positions = (s.orderGone n o).positions ∧ (s.dropOrder n o).bays = (s.orderGone n o).bays ∧
    (s.orderGone n o).veh = s.veh ∧ (s.orderGone n o).locks = s.locks ∧ ∀ v, (s.orderGone n o).standingZone v = s.standingZone v := by
  rw [State.dropOrder_eq, State.freeVehicleOf_eq, State.orderGone_eq]
  exact ⟨rfl, rfl, rfl, rfl, rfl, rfl, rfl, fun _ => rfl⟩

theorem State.order_dropOrder (s : State) (n : Nat) (o : Order) (k : Nat) : (s.dropOrder n o).order k = if k = n then none else s.order k := by
  obtain ⟨horders, -⟩ := s.dropOrder_fields n o
  unfold State.order
  rw [horders]
  exact Table.find_erase _ _ _

/-! ### The creation backlog (R49) -/

theorem State.makeDisposal_ret (harm : (s.pos p).arm a = some r) (hx : s.reel r = some x) (hb : s.autoBay x.grade x.width none = some b) :
    s.makeDisposal p a .ret q = s.makeReturn p a r b q := by
  simp only [State.makeDisposal, harm, hx, hb]

theorem State.makeDisposal_noBay (harm : (s.pos p).arm a = some r) (hx : s.reel r = some x) (hb : s.autoBay x.grade x.width none = none) :
    s.makeDisposal p a .ret q = s.onPos p fun y => y.setDisposal a (some .noBay) := by
  simp only [State.makeDisposal, harm, hx, hb]

theorem State.makeDisposal_clear (harm : (s.pos p).arm a = some r) (hx : s.reel r = some x) (hn : s.nodeOfKind .waste = some n) :
    s.makeDisposal p a .clear q = s.makeClear p a r n q := by
  simp only [State.makeDisposal, harm, hx, hn]

theorem State.makeItem_backlog_length (s : State) (i : BacklogItem) : (s.makeItem i).orders.backlog.length = s.orders.backlog.length := by
  cases i with
  | delivery p r q =>
    refine (congrArg List.length (s.makeDeliver_backlog p r q)).trans ?_
    exact List.length_map _
  | disposal p a d q =>
    change (s.makeDisposal p a d q).orders.backlog.length = _
    unfold State.makeDisposal
    split
    · rfl
    · split
      · rfl
      · split
        · exact congrArg List.length (State.createOrder_backlog _ _)
        · rfl
      · split
        · exact congrArg List.length (State.createOrder_backlog _ _)
        · rfl

theorem State.fillBacklog_of_none (h : s.orders.backlog = [] ∨ s.ordersFull = true) : s.fillBacklog = s := by
  unfold State.fillBacklog
  cases hb : s.orders.backlog with
  | nil => rfl
  | cons i is =>
    have hfull := h.resolve_left (by rw [hb]; exact List.cons_ne_nil i is)
    simp only [List.length_cons, fillUpTo, hb, hfull, if_true]

/-- The oldest item leaves the backlog and is made into its order, and the rest have their turn. -/
theorem State.fillBacklog_of_room {i : BacklogItem} {is : List BacklogItem} (hb : s.orders.backlog = i :: is) (hroom : s.ordersFull = false) :
    s.fillBacklog = ((s.setBacklog is).makeItem i).fillBacklog := by
  have hlength : is.length = ((s.setBacklog is).makeItem i).orders.backlog.length := ((s.setBacklog is).makeItem_backlog_length i).symm
  unfold State.fillBacklog
  rw [← hlength, hb]
  simp only [List.length_cons, fillUpTo, hb, hroom, Bool.false_eq_true, if_false]

theorem State.makeItem_delivery (hx : s.reel r = some x) (p : Nat) (q : Priority) : ∃ u : State, s.makeItem (.delivery p r q) = u ∧
    u.order s.nextTag = some (s.newOrder ⟨.deliver, q, some r, s.bayPlace r, .arm p none, some p, none⟩) ∧
    u.reel r = some { x with tag := some s.nextTag } ∧ (∀ k, k ≠ r → u.reel k = s.reel k) ∧
    (u.pos p).callOff = { (s.pos p).callOff with state := .ordered, ordersFull := false } ∧ u.demandEntry p = none ∧
    (∀ t, t ≠ s.nextTag → u.order t = (s.order t).map fun o => { o with
      priority := if q = .urgent ∧ o.position = some p ∧ o.progress = 1 ∧ (o.kind = .ret ∨ o.kind = .clear) then .urgent
        else o.priority }) ∧
    u.orders.backlog = s.orders.backlog.map (fun
      | .delivery k r c => .delivery k r c
      | .disposal k a c e => .disposal k a c (if q = .urgent ∧ k = p then .urgent else e)) := by
  have htagged (k : Nat) : (s.makeDeliver p r q).reel k = if some r = some k then (s.reel k).map fun y => { y with tag := some s.nextTag }
      else s.reel k := by
    rw [State.makeDeliver_eq]
    exact taggedReels_find _ _ k
  refine ⟨s.makeDeliver p r q, rfl, s.makeDeliver_order_same p r q, ?_, fun k hk => ?_, ?_, ?_,
    fun k hk => s.makeDeliver_order_other p r q hk, s.makeDeliver_backlog p r q⟩
  · rw [htagged, if_pos rfl, hx]
    rfl
  · rw [htagged, if_neg (by simpa using Ne.symm hk)]
  · rw [State.pos_of_insert (s := s) (x := (s.pos p).ordered) (by rw [State.makeDeliver_eq]) p, if_pos rfl]
    rfl
  · rw [State.makeDeliver_eq]
    refine List.find?_eq_none.2 fun e he => ?_
    simpa using (List.mem_filter.1 he).2

theorem State.makeItem_disposal (harm : (s.pos p).arm a = some r) (hx : s.reel r = some x) (q : Priority) :
    (∀ b, s.autoBay x.grade x.width none = some b →
      Created s (s.makeItem (.disposal p a .ret q))
        ⟨.ret, s.buttPriority p q, some r, .arm p (some a), .bay b 0, some p, none⟩ ∧
      (s.makeItem (.disposal p a .ret q)).pos p = (s.pos p).setDisposal a (some .ordered)) ∧
    (s.autoBay x.grade x.width none = none →
      s.makeItem (.disposal p a .ret q) = s.setPos p ((s.pos p).setDisposal a (some .noBay))) ∧
    (∀ n, s.nodeOfKind .waste = some n →
      Created s (s.makeItem (.disposal p a .clear q))
        ⟨.clear, s.buttPriority p q, some r, .arm p (some a), .node n, some p, none⟩ ∧
      (s.makeItem (.disposal p a .clear q)).pos p = (s.pos p).setDisposal a (some .ordered)) := by
  have hmade (m : NewOrder) : Created s ((s.createOrder m).onPos p fun y => y.setDisposal a (some .ordered)) m ∧
      ((s.createOrder m).onPos p fun y => y.setDisposal a (some .ordered)).pos p = (s.pos p).setDisposal a (some .ordered) :=
    ⟨(created_createOrder s m).onPos p _, by rw [State.onPos_pos_same, State.createOrder_pos]⟩
  refine ⟨fun b hb => ?_, fun hb => ?_, fun n hn => ?_⟩
  · have hitem : s.makeItem (.disposal p a .ret q) = s.makeReturn p a r b q := State.makeDisposal_ret harm hx hb
    rw [hitem]
    exact hmade _
  · exact State.makeDisposal_noBay harm hx hb
  · have hitem : s.makeItem (.disposal p a .clear q) = s.makeClear p a r n q := State.makeDisposal_clear harm hx hn
    rw [hitem]
    exact hmade _

end Sys2Proof.Machine
end

section
/-!
PROOF. Conversion of an order (R54), and the statement on removals, conversions and the backlog (O25).
-/

namespace Sys2Proof.Machine

open Sys2Proof

variable {s t u : State} {n v p r b k : Nat} {o : Order} {x : Reel}

/-! ### The bay of a conversion (R23, R54) -/

theorem State.conversionBay_eq (hr : o.reel = some r) (hx : s.reel r = some x) : s.conversionBay o = x.lastBay.elim
    ((s.whenSome o.destination.bay? State.unpromise).autoBay x.grade x.width none) fun b =>
      if (s.whenSome o.destination.bay? State.unpromise).roomAt b then some b
      else (s.whenSome o.destination.bay? State.unpromise).autoBay x.grade x.width none := by
  have hx' : (s.whenSome o.destination.bay? State.unpromise).reel r = some x := by
    rw [State.unpromised_eq]
    exact hx
  simp only [State.conversionBay, hr, Option.bind_some, hx']
  cases x.lastBay <;> rfl

theorem State.roomAt_iff : s.roomAt b = true ↔ ∃ y, s.bay b = some y ∧ y.stack.length + y.inbound < y.height ∧
    ∀ q, y.stack.getLast? = some q → ∃ z, s.reel q = some z ∧ z.state = .stored ∧ z.tag = none := by
  unfold State.roomAt
  cases hb : s.bay b with
  | none => simp
  | some y => simp only [State.hasRoom_iff, Option.some.injEq, exists_eq_left']

/-! ### The order without its leg, and the conversion whole -/

/-- A leg recalled touches the vehicle link, the vehicles and the locks alone (R54). -/
theorem State.recallLeg_eq (s : State) (n : Nat) (o : Order) : s.recallLeg n o = { s with
    vlink := (s.withdrawOrderGo n).vlink, vehicles := (s.recallLeg n o).vehicles, locks := (s.recallLeg n o).locks } := by
  unfold State.recallLeg
  split
  · rw [State.standDown_eq, State.dropGrant_eq]
    rfl
  · rfl

/-- What a recalled leg leaves of the order's vehicle. -/
theorem State.recallLeg_spec (hv : o.vehicle = some v) :
    ((s.veh v).state = .stopped → (s.veh v).prior = some .offered → o.goSent = false →
      (s.recallLeg n o).veh v = { s.veh v with state := .idle, prior := none }) ∧
    ((s.veh v).state ≠ .stopped ∨ (s.veh v).prior ≠ some .offered ∨ o.goSent = true → (s.recallLeg n o).veh v = s.veh v) ∧
    ((s.veh v).state = .faulted ∨ (s.veh v).state = .lost → (s.recallLeg n o).locks = s.locks) ∧
    ((s.veh v).state ≠ .faulted → (s.veh v).state ≠ .lost → s.locks.wf = true → ∀ z,
      (s.holder z = some v → some z ≠ s.standingZone v → (s.recallLeg n o).holder z = none) ∧
      (s.holder z ≠ some v ∨ some z = s.standingZone v → (s.recallLeg n o).holder z = s.holder z)) := by
  have hrecall : s.recallLeg n o = ((s.withdrawOrderGo n).dropGrant v).standDown v o := by simp only [State.recallLeg, hv]
  have hveh : ((s.withdrawOrderGo n).dropGrant v).veh v = s.veh v := State.dropGrant_veh _ v v
  have hlocks : (((s.withdrawOrderGo n).dropGrant v).standDown v o).locks = ((s.withdrawOrderGo n).dropGrant v).locks := by
    rw [State.standDown_eq]
  rw [hrecall]
  refine ⟨fun h1 h2 h3 => ?_, fun h => ?_, fun h => ?_, fun hf hl hwf z => ?_⟩
  · rw [State.standDown_veh_idle (by rw [hveh]; exact h1) (by rw [hveh]; exact h2) h3, hveh]
  · rw [State.standDown_veh_same (by rw [hveh]; exact h), hveh]
  · rw [hlocks]
    exact State.dropGrant_locks (s := s.withdrawOrderGo n) h
  · have hzone := State.dropGrant_holder (s := s.withdrawOrderGo n) (v := v) hf hl hwf z
    unfold State.holder at hzone ⊢
    rw [hlocks]
    exact hzone

/-- A converted order, before its carry leg is asked for (R54). -/
def Order.convertedTo (o : Order) (b : Nat) : Order :=
  { o with
    destination := .bay b 0, converted := true, targetArm := none, position := none, cancelPending := false
    reason := reasonAfterConversion o.reason, heldSince := none, legZones := [], legPassed := 0, goSent := false }

/-- The part with order `n` converted, its call-off ended, before its leg is recalled. -/
def State.rebooked (s : State) (n : Nat) (o : Order) (b : Nat) : State :=
  (((((s.whenSome o.destination.bay? State.unpromise).promise b).setOrder n (o.convertedTo b)).whenSome o.reel
    fun s r => s.onReel r Reel.converted)).callOffEnds o

theorem State.convertTo_eq (s : State) (n : Nat) (o : Order) (b : Nat) :
    s.convertTo n o b = ((s.rebooked n o b).recallLeg n o).requestLeg n := rfl

theorem State.reelConverted_eq (s : State) (c : Option Nat) : (s.whenSome c fun s r => s.onReel r Reel.converted) =
    { s with reels := (s.whenSome c fun s r => s.onReel r Reel.converted).reels } := by
  cases c with
  | none => rfl
  | some r => exact s.onReel_eq r _

theorem State.rebooked_eq (s : State) (n : Nat) (o : Order) (b : Nat) : s.rebooked n o b = { s with
    bays := (s.rebooked n o b).bays
    orders := { s.orders with table := s.orders.table.insert n (o.convertedTo b) }
    reels := (s.rebooked n o b).reels
    positions := (s.rebooked n o b).positions } := by
  unfold State.rebooked
  rw [State.callOffEnds_eq, State.reelConverted_eq, State.promise_eq, State.unpromised_eq]
  rfl

theorem State.rebooked_bay (s : State) (n : Nat) (o : Order) (b k : Nat) : (s.rebooked n o b).bay k =
    if k = b then ((s.whenSome o.destination.bay? State.unpromise).bay k).map fun y => { y with inbound := y.inbound + 1 }
    else (s.whenSome o.destination.bay? State.unpromise).bay k := by
  unfold State.rebooked
  rw [State.callOffEnds_eq, State.reelConverted_eq]
  refine (State.promise_bay_eq _ b k).trans ?_
  split
  case isTrue h => rw [h]
  case isFalse => rfl

theorem State.rebooked_reel (hr : o.reel = some r) (hx : s.reel r = some x) (n b : Nat) :
    (s.rebooked n o b).reel r = some x.converted := by
  unfold State.rebooked
  rw [State.callOffEnds_eq, hr]
  refine (State.reel_onReel _ r r _).trans ?_
  rw [if_pos rfl, State.promise_eq, State.unpromised_eq]
  exact congrArg (Option.map Reel.converted) hx

/-- The conversion of an order: its leg request made in the part with the order rebooked (R54). -/
theorem State.convert_some (ho : s.order n = some o) (hb : s.conversionBay o = some b) :
    s.convert n = ((s.rebooked n o b).recallLeg n o).requestLeg n := by
  simp only [State.convert, ho, hb]
  exact s.convertTo_eq n o b

theorem State.convert_none (ho : s.order n = some o) (hb : s.conversionBay o = none) : s.convert n = s.noSpace n o := by
  simp only [State.convert, ho, hb]

theorem reasonAfterConversion_eq (r : Option Reason) : reasonAfterConversion r = if r = some .noSpace then some .vehicle else r := by
  cases r with
  | none => rfl
  | some r => cases r <;> rfl

/-- The order SUSPENDED(NO_SPACE), before its leg is recalled. -/
def Order.withoutSpace (o : Order) : Order :=
  { o with
    state := .suspended, reason := some .noSpace, cancelPending := false, heldSince := none, legZones := [], legPassed := 0, goSent := false }

theorem State.noSpace_eq (s : State) (n : Nat) (o : Order) : s.noSpace n o =
    ((s.setOrder n o.withoutSpace).recallLeg n o).raise (.orderSuspended n .noSpace (o.vehicle.getD 0) (o.reel.getD 0)) := rfl

/-- The carry leg of a conversion leaves what the rebooking made. -/
theorem State.convert_legged (ho : s.order n = some o) (hb : s.conversionBay o = some b) :
    ((s.rebooked n o b).recallLeg n o).Legged (s.convert n) n ∧
    (s.convert n).reels = (s.rebooked n o b).reels ∧ (s.convert n).bays = (s.rebooked n o b).bays ∧
    (s.convert n).positions = (s.rebooked n o b).positions ∧
    ((s.rebooked n o b).recallLeg n o).order = (s.setOrder n (o.convertedTo b)).order := by
  have hleg : ((s.rebooked n o b).recallLeg n o).Legged (s.convert n) n := by
    rw [State.convert_some ho hb]
    exact State.requestLeg_legged _ n
  refine ⟨hleg, ?_, ?_, ?_, ?_⟩
  · rw [hleg.rest, State.recallLeg_eq]
  · rw [hleg.rest, State.recallLeg_eq]
  · rw [hleg.rest, State.recallLeg_eq]
  · rw [State.recallLeg_eq, State.rebooked_eq]
    rfl

theorem Reel.freed_reserved (h : x.state = .reserved) : x.freed = { x with state := .stored, reservation := none, tag := none } := if_pos h

theorem Reel.freed_other (h : x.state ≠ .reserved) : x.freed = { x with tag := none } := if_neg h

theorem Reel.converted_wasteBound {y : Reel} (h : y.location = .wasteBound v) : y.converted.location = .onVehicle v := by
  unfold Reel.converted
  rw [h]

/-- Settles O25: the parts of a removal and of a conversion touch different components of the part, and each component is what its one rule
makes of it. -/
theorem orderRemovedOrConverted : Obligations.OrderRemovedOrConverted := by
  unfold Obligations.OrderRemovedOrConverted
  refine ⟨fun s n o ho => ?_, fun s => ?_, fun s own o r x room hr hx hown hroom => ?_, fun s n o ho hb => ?_, fun s n b o ho hb => ?_⟩
  case refine_1 =>
    obtain ⟨horders, hvlink, hreels, hpositions, hbays, hveh, hlocks, hzone⟩ := s.dropOrder_fields n o
    have hremove : s.removeOrder n = (s.dropOrder n o).fillBacklog := by simp only [State.removeOrder, ho]
    have hreel (k : Nat) : (s.dropOrder n o).reel k = if o.reel = some k then (s.reel k).map Reel.freed else s.reel k := by
      rw [← s.orderGone_reel n o k]
      exact congrArg (fun y : Table Reel => y.find k) hreels
    have hbay (k : Nat) : (s.dropOrder n o).bay k = (s.orderGone n o).bay k := congrArg (fun y : Table Bay => y.find k) hbays
    have hpos (k : Nat) : (s.dropOrder n o).pos k = (s.orderGone n o).pos k := congrArg (fun y : Table Position => (y.find k).getD Position.reset) hpositions
    refine ⟨s.dropOrder n o, hremove, by rw [horders], ?_, fun k hk => ?_, ?_, fun r x hr hx => ⟨fun hres => ?_, fun hres => ?_⟩, fun r hr => ?_,
      fun r p a hr hstate hloc => ?_, fun b l y hdest hy => ?_, fun p hkind hp => ?_, fun v hv hbound => ?_, fun v hv => ?_, ?_⟩
    · rw [State.order_dropOrder, if_pos rfl]
    · rw [State.order_dropOrder, if_neg hk]
    · rw [hvlink]
      exact s.withdrawOrderGo_frames n
    · rw [hreel, if_pos hr, hx, Option.map_some, Reel.freed_reserved hres]
    · rw [hreel, if_pos hr, hx, Option.map_some, Reel.freed_other hres]
    · rw [hreel, if_neg hr]
    · rw [hpos]
      exact State.orderGone_butt hr hstate hloc
    · rw [hbay, State.orderGone_bay, if_pos (Place.bay?_eq_some_iff.2 ⟨l, hdest⟩), hy, Option.map_some]
    · rw [hpos]
      exact State.callOffEnds_pos hkind hp
    · have hspec := State.freeVehicleOf_spec (s := s.orderGone n o) hv (by rw [hveh]; exact hbound)
      rw [hveh, hlocks] at hspec
      unfold State.holder at hspec ⊢
      rw [hlocks] at hspec
      simp only [hzone] at hspec
      exact hspec
    · refine (State.freeVehicleOf_other (s := s.orderGone n o) (by rw [hveh]; exact hv)).trans ?_
      rw [hveh]
    · exact (Moves.dropOrder .refl n o).apart
  case refine_2 =>
    exact ⟨State.fillBacklog_of_none, fun i is hi hroom => State.fillBacklog_of_room hi hroom, fun p r x q hx => State.makeItem_delivery hx p q,
      fun p a q r x harm hx => State.makeItem_disposal harm hx q⟩
  case refine_3 =>
    have hown' : own = s.whenSome o.destination.bay? State.unpromise := by
      rw [hown]
      cases o.destination <;> rfl
    have hiff (b : Nat) : room b ↔ own.roomAt b = true := by
      rw [hroom, State.roomAt_iff]
      have hreel : own.reel = s.reel := by
        rw [hown', State.unpromised_eq]
        rfl
      rw [hreel]
    rw [State.conversionBay_eq hr hx, ← hown']
    refine ⟨fun b hlast hfits => ?_, fun hnot => ?_⟩
    · rw [hlast]
      exact if_pos ((hiff b).1 hfits)
    · cases hlast : x.lastBay with
      | none => rfl
      | some b => exact if_neg (mt (hiff b).2 (hnot b hlast))
  case refine_4 =>
    refine ⟨(s.setOrder n o.withoutSpace).recallLeg n o, (State.convert_none ho hb).trans (s.noSpace_eq n o), ?_, fun k hk => ?_, ?_, ?_, ?_, ?_⟩
    · rw [State.recallLeg_eq]
      exact Table.find_insert_same _ _ _
    · rw [State.recallLeg_eq]
      exact Table.find_insert_other _ hk _
    · rw [State.recallLeg_eq]
      rfl
    · rw [State.recallLeg_eq]
      rfl
    · rw [State.recallLeg_eq]
      rfl
    · rw [State.recallLeg_eq]
      rfl
  case refine_5 =>
    obtain ⟨hleg, hreels, hbays, hpositions, horder⟩ := State.convert_legged ho hb
    have hworder : ((s.rebooked n o b).recallLeg n o).order n = some (o.convertedTo b) := by
      rw [horder]
      exact Table.find_insert_same _ _ _
    have hbay (k : Nat) : (s.convert n).bay k = if k = b then
        (if o.destination.bay? = some k then (s.bay k).map fun y => { y with inbound := y.inbound - 1 } else s.bay k).map
          fun y => { y with inbound := y.inbound + 1 }
        else if o.destination.bay? = some k then (s.bay k).map fun y => { y with inbound := y.inbound - 1 } else s.bay k := by
      rw [← State.unpromised_bay, ← State.rebooked_bay]
      exact congrArg (fun y : Table Bay => y.find k) hbays
    have hpos (k : Nat) : (s.convert n).pos k = (s.rebooked n o b).pos k :=
      congrArg (fun y : Table Position => (y.find k).getD Position.reset) hpositions
    refine ⟨⟨(s.rebooked n o b).recallLeg n o, State.convert_some ho hb, ?_, ?_, fun v hv => ?_⟩, ?_, fun y hdest hy => ?_, fun l y hdest hy => ?_,
      fun c l y hdest hcb hy => ?_, fun c l y hdest hcb hy => ?_, fun r x hr hx => ⟨x.converted, ?_, rfl, rfl, fun v => Reel.converted_wasteBound⟩,
      fun p hkind hp => ?_, fun k hk => ?_, ?_⟩
    · rw [hworder, Order.convertedTo, reasonAfterConversion_eq]
    · rw [State.recallLeg_eq]
      exact (s.rebooked n o b).withdrawOrderGo_frames n
    · have hspec := State.recallLeg_spec (s := s.rebooked n o b) (n := n) hv
      have hveh : (s.rebooked n o b).veh = s.veh := by rw [State.rebooked_eq]; rfl
      have hlocks : (s.rebooked n o b).locks = s.locks := by rw [State.rebooked_eq]
      have hholder : (s.rebooked n o b).holder = s.holder := by rw [State.rebooked_eq]; rfl
      have hzone : (s.rebooked n o b).standingZone v = s.standingZone v := by rw [State.rebooked_eq]; rfl
      rw [hveh, hlocks, hholder, hzone] at hspec
      exact hspec
    · obtain ⟨o', ho', hsame, hv, harm⟩ := hleg.order _ hworder
      obtain ⟨hkind, hconverted, -, hreel, -, hdest, hprogress, -, hposition, hcancel, -⟩ := hsame
      refine ⟨o', ho', hconverted, hdest, hposition, ?_, hcancel, hkind, hreel, hprogress, hv⟩
      exact harm fun p a h => by cases h
    · rw [hbay, if_pos rfl, if_neg fun h => (Place.bay?_eq_some_iff.1 h).elim fun l hl => hdest b l hl, hy, Option.map_some]
    · rw [hbay, if_pos rfl, if_pos (Place.bay?_eq_some_iff.2 ⟨l, hdest⟩), hy, Option.map_some, Option.map_some]
    · rw [hbay, if_neg hcb, if_pos (Place.bay?_eq_some_iff.2 ⟨l, hdest⟩), hy, Option.map_some]
    · rw [hbay, if_pos rfl, if_neg, hy, Option.map_some]
      rw [hdest]
      exact fun h => hcb (Option.some.inj h)
    · exact (congrArg (fun y : Table Reel => y.find r) hreels).trans (State.rebooked_reel hr hx n b)
    · rw [hpos]
      exact State.callOffEnds_pos hkind hp
    · rw [hleg.others k hk, horder]
      exact Table.find_insert_other _ hk _
    · exact (Moves.convert .refl n).apart

end Sys2Proof.Machine
end

section
/-!
PROOF. CANCEL (O26) and RESOLVE (O27).
-/

namespace Sys2Proof.Machine

open Sys2Proof

variable {s t u : State} {tag n v p r b k : Nat} {o : Order} {x : Reel}

/-! ### What an event's later changes leave of an order -/

/-- A leg request does nothing, or gives its order one of the states it has for it. -/
theorem State.routeLeg_outcome (s : State) (n : Nat) (o : Order) (v : Nat) : s.routeLeg n o v = s ∨
    ∃ o', (s.routeLeg n o v).order n = some o' ∧ (o'.state = .offered ∨ o'.state = .heldZones ∨ o'.state = .suspended) := by
  cases htarget : s.targetNode o with
  | none => exact .inl (by simp only [State.routeLeg, htarget])
  | some target =>
    refine .inr ?_
    cases hway : s.wayZones v target with
    | none =>
      have hat : (s.veh v).node ≠ target := fun h => by simp [State.wayZones, h] at hway
      have hroute : s.route (s.veh v).node target = none := by simpa [State.wayZones, hat] using hway
      rw [State.routeLeg_of_noRoute htarget hat hroute, State.raise_eq]
      exact ⟨_, Table.find_insert_same _ _ _, .inr (.inr rfl)⟩
    | some zs =>
      rw [State.routeLeg_of_way htarget hway]
      by_cases hopen : s.zonesOpen v (s.askedZones zs target) = true
      · rw [State.askZones_open hopen, State.offerLeg_eq]
        exact ⟨_, Table.find_insert_same _ _ _, .inl rfl⟩
      · rw [State.askZones_taken hopen]
        exact ⟨_, Table.find_insert_same _ _ _, .inr (.inl rfl)⟩

theorem State.requestLeg_outcome (s : State) (n : Nat) : s.requestLeg n = s ∨
    ∃ o', (s.requestLeg n).order n = some o' ∧ o'.state ≠ .cancelling := by
  have hroute (x : Order) (v : Nat) : s.routeLeg n x v = s ∨ ∃ o', (s.routeLeg n x v).order n = some o' ∧ o'.state ≠ .cancelling := by
    refine (s.routeLeg_outcome n x v).imp id fun ⟨o', ho', hstate⟩ => ⟨o', ho', fun h => ?_⟩
    rw [h] at hstate
    rcases hstate with h | h | h <;> cases h
  unfold State.requestLeg
  split
  · exact .inl rfl
  split
  · exact .inl rfl
  split
  · split
    · dsimp only
      split
      · exact hroute _ _
      · exact .inr ⟨_, Table.find_insert_same _ _ _, by simp⟩
    · exact hroute _ _
  · exact .inl rfl

theorem State.requestLeg_not_cancelling (ho : s.order n = some o) (hstate : o.state ≠ .cancelling) {o' : Order}
    (ho' : (s.requestLeg n).order n = some o') : o'.state ≠ .cancelling := by
  rcases s.requestLeg_outcome n with h | ⟨y, hy, hne⟩
  · rw [h, ho] at ho'
    cases ho'
    exact hstate
  · rw [hy] at ho'
    cases ho'
    exact hne

/-- An order that does not wait stays as it is through the close of an event. -/
theorem State.close_order (pre : State) (force : Bool) (ho : s.order n = some o) (h1 : o.state ≠ .waiting) (h2 : o.state ≠ .heldZones) :
    (s.close pre force).order n = some o := by
  obtain ⟨o', ho', -, hkeep⟩ := (s.close_passed pre force).orders n o ho
  rw [ho', hkeep h1 h2]

/-! ### An entry freed: the orders made in it are new (R38, R49) -/

/-- Every order of `u` is one of `s`, with its creation sequence, or has a sequence that `s` has not given. -/
structure State.Renewed (s u : State) : Prop where
  next : s.orders.nextSequence ≤ u.orders.nextSequence
  orders : ∀ k x, u.order k = some x → (∃ y, s.order k = some y ∧ y.sequence = x.sequence) ∨ s.orders.nextSequence ≤ x.sequence

theorem State.Renewed.refl (s : State) : s.Renewed s := ⟨le_rfl, fun _ x h => .inl ⟨x, h, rfl⟩⟩

theorem State.Renewed.trans (h : s.Renewed t) (g : t.Renewed u) : s.Renewed u where
  next := h.next.trans g.next
  orders k x hx := by
    rcases g.orders k x hx with ⟨y, hy, hseq⟩ | hnew
    · exact (h.orders k y hy).imp (fun ⟨z, hz, hz'⟩ => ⟨z, hz, hz'.trans hseq⟩) fun h' => hseq ▸ h'
    · exact .inr (h.next.trans hnew)

theorem Created.renewed {m : NewOrder} (h : Created s u m) : s.Renewed u where
  next := by rw [h.next]; omega
  orders k x hx := by
    by_cases hk : k = s.nextTag
    · subst hk
      rw [h.order] at hx
      cases hx
      exact .inr le_rfl
    · exact .inl ⟨x, (h.others k hk).symm.trans hx, rfl⟩

theorem State.makeDeliver_nextSequence (s : State) (p r : Nat) (q : Priority) :
    (s.makeDeliver p r q).orders.nextSequence = s.orders.nextSequence + 1 := by
  rw [State.makeDeliver_eq]
  have hnext := (created_createOrder s (s.deliverOrder p r q)).next
  change (if q = .urgent then _ else _ : OrderList).nextSequence = _
  split
  · exact hnext
  · exact hnext

theorem State.makeItem_renewed (s : State) (i : BacklogItem) : s.Renewed (s.makeItem i) := by
  cases i with
  | delivery p r q =>
    refine ⟨(s.makeDeliver_nextSequence p r q).symm ▸ Nat.le_succ _, fun k x hx => ?_⟩
    have hx : (s.makeDeliver p r q).order k = some x := hx
    by_cases hk : k = s.nextTag
    · rw [hk, State.makeDeliver_order_same] at hx
      cases hx
      exact .inr le_rfl
    · rw [State.makeDeliver_order_other s p r q hk] at hx
      obtain ⟨y, hy, rfl⟩ := Option.map_eq_some_iff.1 hx
      exact .inl ⟨y, hy, rfl⟩
  | disposal p a d q =>
    have hpos (y : State) (f : Position → Position) (h : s.Renewed y) : s.Renewed (y.onPos p f) := ⟨h.next, h.orders⟩
    change s.Renewed (s.makeDisposal p a d q)
    unfold State.makeDisposal
    split
    · exact .refl s
    split
    · exact .refl s
    · split
      · unfold State.makeReturn
        exact hpos _ _ (created_createOrder s _).renewed
      · exact hpos _ _ (.refl s)
    · split
      · unfold State.makeClear
        exact hpos _ _ (created_createOrder s _).renewed
      · exact hpos _ _ (.refl s)

theorem fillUpTo_renewed : ∀ (m : Nat) (s : State), s.Renewed (fillUpTo m s)
  | 0, s => .refl s
  | m + 1, s => by
    unfold fillUpTo
    split
    · exact .refl s
    · split
      · exact .refl s
      · rename_i i is _ _
        have hset : s.Renewed (s.setBacklog is) := ⟨le_rfl, fun _ x h => .inl ⟨x, h, rfl⟩⟩
        exact (hset.trans ((s.setBacklog is).makeItem_renewed i)).trans (fillUpTo_renewed m _)

/-- A removed order is not in the list, whatever has taken its entry. -/
theorem State.removeOrder_still (ho : s.order n = some o) (hseq : o.sequence < s.orders.nextSequence) :
    ((s.removeOrder n).still n o) = none := by
  have hremove : s.removeOrder n = (s.dropOrder n o).fillBacklog := by simp only [State.removeOrder, ho]
  obtain ⟨horders, -⟩ := s.dropOrder_fields n o
  rw [hremove, State.still, Option.filter_eq_none_iff]
  intro x hx
  rw [decide_eq_true_eq]
  rcases (fillUpTo_renewed _ (s.dropOrder n o)).orders n x hx with ⟨y, hy, -⟩ | hnew
  · rw [State.order_dropOrder, if_pos rfl] at hy
    cases hy
  · have hnext : (s.dropOrder n o).orders.nextSequence = s.orders.nextSequence := by rw [horders]
    rw [hnext] at hnew
    omega

/-! ### A cancellation and the close of its event (R52) -/

theorem Order.cancelRefused_eq_false : o.cancelRefused = false ↔
    o.state ≠ .cancelling ∧ o.converted = false ∧ ¬(o.state = .suspended ∧ o.reason = some .noSpace) := by
  simp [Order.cancelRefused, and_assoc]

theorem Order.inFlight_iff : o.inFlight = true ↔ o.state = .active ∨ (o.state = .offered ∧ o.goSent = true) := by
  simp [Order.inFlight]

theorem State.still_of_order {o' : Order} (ho : s.order n = some o') (hseq : o'.sequence = o.sequence) : s.still n o = some o' := by
  unfold State.still
  rw [ho]
  exact Option.filter_eq_some_iff.2 ⟨rfl, by simpa using hseq⟩

/-- The event of a cancellation that leaves the order in the list as `o'`. -/
theorem State.cancelEvent_of_order {o' : Order} (hu : s.cancelOrder n o = u) (ho' : u.order n = some o') (hseq : o'.sequence = o.sequence) :
    s.cancelEvent n o = (u.close s false, some o') := by
  unfold State.cancelEvent
  dsimp only
  rw [hu, State.still_of_order ho' hseq]
  rfl

theorem State.cancelEvent_abandon (hflight : o.inFlight = true) (hv : o.vehicle = some v) :
    s.cancelEvent n o = (((s.setOrder n { o with state := .cancelling, cancelPending := o.loaded }).enqueue
      (.abandon v n o.progress)).close s false, some { o with state := .cancelling, cancelPending := o.loaded }) := by
  refine State.cancelEvent_of_order ?_ ?_ rfl
  · simp only [State.cancelOrder, hflight, if_true, State.abandonLeg, hv, State.whenSome]
  · rw [State.enqueue_eq]
    exact Table.find_insert_same _ _ _

theorem State.cancelEvent_remove (ho : s.order n = some o) (hflight : o.inFlight = false) (hloaded : o.loaded = false)
    (hseq : o.sequence < s.orders.nextSequence) :
    s.cancelEvent n o = ((s.removeOrder n).close s ((s.removeOrder n).freedVehicle o), none) := by
  have hcancel : s.cancelOrder n o = s.removeOrder n := by
    simp only [State.cancelOrder, hflight, hloaded, Bool.false_eq_true, if_false]
  unfold State.cancelEvent
  dsimp only
  rw [hcancel, State.removeOrder_still ho hseq]
  rfl

/-- What a conversion leaves of the order in the list. -/
theorem State.convert_order (ho : s.order n = some o) (hb : s.conversionBay o = some b) : ∃ o', (s.convert n).order n = some o' ∧
    o'.converted = true ∧ o'.destination = .bay b 0 ∧ o'.sequence = o.sequence ∧ (o.state ≠ .cancelling → o'.state ≠ .cancelling) := by
  obtain ⟨hleg, -, -, -, horder⟩ := State.convert_legged ho hb
  have hw : ((s.rebooked n o b).recallLeg n o).order n = some (o.convertedTo b) := by
    rw [horder]
    exact Table.find_insert_same _ _ _
  obtain ⟨o', ho', hsame, -⟩ := hleg.order _ hw
  obtain ⟨-, hconverted, -, -, -, hdest, -, -, -, -, hseq⟩ := hsame
  refine ⟨o', ho', hconverted, hdest, hseq, fun hstate => ?_⟩
  rw [State.convert_some ho hb] at ho'
  exact State.requestLeg_not_cancelling hw hstate ho'

theorem State.convert_noSpace_order (ho : s.order n = some o) (hb : s.conversionBay o = none) :
    (s.convert n).order n = some o.withoutSpace := by
  rw [State.convert_none ho hb, State.noSpace_eq, State.raise_eq, State.recallLeg_eq]
  exact Table.find_insert_same _ _ _

theorem State.cancelOrder_loaded (hflight : o.inFlight = false) (hloaded : o.loaded = true) : s.cancelOrder n o = s.convert n := by
  simp only [State.cancelOrder, hflight, hloaded, Bool.false_eq_true, if_false, if_true]

/-! ### CANCEL (O26) -/

theorem State.reqCancel_eq (h1 : 1 ≤ n) (hmax : n ≤ 65535) (ho : s.order n = some o) (hallowed : o.cancelRefused = false) :
    s.reqCancel n = (s.cancelEvent n o).1.grant (be1 (cancelOutcome (s.cancelEvent n o).2) ++
      (s.cancelEvent n o).1.stateAfter n (s.cancelEvent n o).2 ++ conversionBytes (s.cancelEvent n o).2) := by
  have htag : tagOk n = true := by simp [tagOk, h1, hmax]
  simp only [State.reqCancel, htag, Bool.true_eq_false, if_false, ho, hallowed, Bool.false_eq_true]

/-- The outcome of a conversion by a cancellation, and the event it makes (R52, R54). -/
theorem State.cancelEvent_convert (ho : s.order n = some o) (hallowed : o.cancelRefused = false) (hflight : o.inFlight = false)
    (hloaded : o.loaded = true) (hb : s.conversionBay o = some b) : ∃ o', s.cancelEvent n o = ((s.convert n).close s false, some o') ∧
      cancelOutcome (some o') = 3 ∧ conversionBytes (some o') = be1 b := by
  obtain ⟨o', ho', hconverted, hdest, hseq, hstate⟩ := State.convert_order ho hb
  refine ⟨o', State.cancelEvent_of_order (State.cancelOrder_loaded hflight hloaded) ho' hseq, ?_, ?_⟩
  · simp [cancelOutcome, hstate (Order.cancelRefused_eq_false.1 hallowed).1, hconverted]
  · simp [conversionBytes, hconverted, hdest]

theorem State.cancelEvent_noSpace (ho : s.order n = some o) (hallowed : o.cancelRefused = false) (hflight : o.inFlight = false)
    (hloaded : o.loaded = true) (hb : s.conversionBay o = none) : s.cancelEvent n o = ((s.convert n).close s false, some o.withoutSpace) ∧
      cancelOutcome (some o.withoutSpace) = 4 ∧ conversionBytes (some o.withoutSpace) = [] ∧
      ((s.convert n).close s false).order n = some o.withoutSpace := by
  have ho' := State.convert_noSpace_order ho hb
  have hconverted : o.withoutSpace.converted = false := (Order.cancelRefused_eq_false.1 hallowed).2.1
  refine ⟨State.cancelEvent_of_order (State.cancelOrder_loaded hflight hloaded) ho' rfl, ?_, ?_,
    State.close_order s false ho' (by simp [Order.withoutSpace]) (by simp [Order.withoutSpace])⟩
  · simp [cancelOutcome, hconverted]
    simp [Order.withoutSpace]
  · simp [conversionBytes, hconverted]

theorem tagOk_eq_false {m : Nat} (h : m = 0 ∨ 65535 < m) : tagOk m = false := by
  unfold tagOk
  rcases h with rfl | h
  · rfl
  · simp
    omega

/-- Settles O26: each of the four cases is what `cancelOrder` does, the order read again after the close of the event. -/
theorem cancelRequest : Obligations.CancelRequest := by
  unfold Obligations.CancelRequest
  refine ⟨fun s tag n htakes => ⟨fun hrange => ?_, fun h1 hmax hnone => ?_⟩, fun s tag n o htakes h1 hmax ho => ⟨fun hrefused => ?_,
    fun v hallowed hflight hv => ?_, fun hallowed hflight hloaded hseq => ?_, fun b hallowed hflight hloaded hb => ?_,
    fun hallowed hflight hloaded hb => ⟨?_, ?_⟩, Order.inFlight_iff⟩⟩
  · refine refused_in_run (r := .cancel n) rfl htakes rfl rfl (e := .range) ?_ rfl
    exact if_pos (tagOk_eq_false hrange)
  · refine refused_in_run (r := .cancel n) rfl htakes rfl rfl (e := .unknown) ?_ rfl
    have htag : tagOk n = true := by simp [tagOk, h1, hmax]
    change s.reqCancel n = _
    simp only [State.reqCancel, htag, Bool.true_eq_false, if_false, hnone]
  · refine refused_in_run (r := .cancel n) rfl htakes rfl rfl (e := .state) ?_ rfl
    have htag : tagOk n = true := by simp [tagOk, h1, hmax]
    change s.reqCancel n = _
    simp only [State.reqCancel, htag, Bool.true_eq_false, if_false, ho, hrefused, if_true]
  · refine answered_in_run (r := .cancel n) rfl htakes rfl rfl ?_
    refine (State.reqCancel_eq h1 hmax ho hallowed).trans ?_
    have hconverted := (Order.cancelRefused_eq_false.1 hallowed).2.1
    have hafter := State.close_order s false (s := (s.setOrder n { o with state := .cancelling, cancelPending := o.loaded }).enqueue
      (.abandon v n o.progress)) (n := n) (o := { o with state := .cancelling, cancelPending := o.loaded })
      (by rw [State.enqueue_eq]; exact Table.find_insert_same _ _ _) (by simp) (by simp)
    rw [State.cancelEvent_abandon hflight hv]
    dsimp only [State.stateAfter]
    rw [hafter]
    simp [cancelOutcome, conversionBytes, hconverted, orderStateByte]
  · refine answered_in_run (r := .cancel n) rfl htakes rfl rfl ?_
    refine (State.reqCancel_eq h1 hmax ho hallowed).trans ?_
    rw [State.cancelEvent_remove ho hflight hloaded hseq]
    rfl
  · refine answered_in_run (r := .cancel n) rfl htakes rfl rfl ?_
    refine (State.reqCancel_eq h1 hmax ho hallowed).trans ?_
    obtain ⟨o', hevent, houtcome, hbytes⟩ := State.cancelEvent_convert ho hallowed hflight hloaded hb
    rw [hevent, houtcome, hbytes]
    rfl
  · refine answered_in_run (r := .cancel n) rfl htakes rfl rfl ?_
    refine (State.reqCancel_eq h1 hmax ho hallowed).trans ?_
    obtain ⟨hevent, houtcome, hbytes, hafter⟩ := State.cancelEvent_noSpace ho hallowed hflight hloaded hb
    rw [hevent, houtcome, hbytes, List.append_nil]
    dsimp only [State.stateAfter]
    rw [hafter]
    rfl
  · exact ⟨_, State.convert_noSpace_order ho hb, rfl, rfl⟩

/-! ### RESOLVE (O27) -/

/-- RESOLVE of a SUSPENDED order, by its action (R61). -/
def State.resolveBy (s : State) (n : Nat) (o : Order) : ResolveAction → State × Answer
  | .retry => s.resolveRetry n o
  | .accept => s.resolveAccept n o
  | .cancel => s.resolveCancel n o

theorem State.reqResolve_eq {c : Nat} {a : ResolveAction} (h1 : 1 ≤ n) (hmax : n ≤ 65535) (ha : resolveActionOf c = some a)
    (ho : s.order n = some o) (hstate : o.state = .suspended) : s.reqResolve n c = s.resolveBy n o a := by
  have htag : tagOk n = true := by simp [tagOk, h1, hmax]
  simp only [State.reqResolve, htag, ha, ho, hstate, ne_eq, not_true_eq_false, if_false]
  cases a <;> rfl

theorem resolveActionOf_isSome {c : Nat} (h1 : 1 ≤ c) (h3 : c ≤ 3) : ∃ a, resolveActionOf c = some a := by
  interval_cases c
  · exact ⟨_, rfl⟩
  · exact ⟨_, rfl⟩
  · exact ⟨_, rfl⟩

theorem State.reqResolve_range {c : Nat} (h : n = 0 ∨ 65535 < n ∨ c = 0 ∨ 3 < c) : s.reqResolve n c = s.refuse .range := by
  unfold State.reqResolve
  split
  case h_2 => rfl
  case h_1 a htag ha =>
    have hn : 1 ≤ n ∧ n ≤ 65535 := by simpa [tagOk] using htag
    have hc : 1 ≤ c ∧ c ≤ 3 := by
      unfold resolveActionOf at ha
      split at ha
      · decide
      · decide
      · decide
      · cases ha
    omega

theorem Order.inFlight_of_suspended (h : o.state = .suspended) : o.inFlight = false := by simp [Order.inFlight, h]

theorem State.resolveCancel_eq (hallowed : o.cancelRefused = false) : s.resolveCancel n o =
    (s.cancelEvent n o).1.grant ((s.cancelEvent n o).1.stateAfter n (s.cancelEvent n o).2 ++ be1 (cancelOutcome (s.cancelEvent n o).2)) := by
  simp only [State.resolveCancel, hallowed, Bool.false_eq_true, if_false]

/-- Settles O27: RESOLVE is the leg asked for again, the fetch completed, or the cancellation of R52, each read again after its event. -/
theorem resolveRequest : Obligations.ResolveRequest := by
  unfold Obligations.ResolveRequest
  refine ⟨fun s tag n c htakes => ⟨fun hrange => ?_, fun h1 hmax hc1 hc3 hnone => ?_⟩, fun s tag n o htakes h1 hmax ho =>
    ⟨fun c hc1 hc3 hstate => ?_, fun v hstate hreason hv => ⟨fun hidle u hu => ?_, fun hidle => ?_⟩,
      fun hstate hreason => ⟨fun b hb => ?_, fun hb => ?_⟩, fun v hstate hreason hv => ?_, fun hstate hreason => ?_, fun hstate hrefused => ?_,
      fun hstate hallowed hloaded hseq => ?_, fun b hstate hallowed hloaded hb => ?_, fun hstate hallowed hloaded hb => ?_⟩⟩
  · exact refused_in_run (r := .resolve n c) rfl htakes rfl rfl (e := .range) (State.reqResolve_range hrange) rfl
  · refine refused_in_run (r := .resolve n c) rfl htakes rfl rfl (e := .unknown) ?_ rfl
    obtain ⟨a, ha⟩ := resolveActionOf_isSome hc1 hc3
    have htag : tagOk n = true := by simp [tagOk, h1, hmax]
    change s.reqResolve n c = _
    simp only [State.reqResolve, htag, ha, hnone]
  · refine refused_in_run (r := .resolve n c) rfl htakes rfl rfl (e := .state) ?_ rfl
    obtain ⟨a, ha⟩ := resolveActionOf_isSome hc1 hc3
    have htag : tagOk n = true := by simp [tagOk, h1, hmax]
    change s.reqResolve n c = _
    simp only [State.reqResolve, htag, ha, ho, if_pos hstate]
  · refine answered_in_run (r := .resolve n 1) rfl htakes rfl rfl ?_
    refine (State.reqResolve_eq h1 hmax (c := 1) rfl ho hstate).trans ?_
    have hu' : u = s.retryLeg n o v := hu
    rw [hu']
    simp only [State.resolveBy, State.resolveRetry, hreason, if_false, hv, hidle, if_true]
    rfl
  · refine refused_in_run (r := .resolve n 1) rfl htakes rfl rfl (e := .state) ?_ rfl
    refine (State.reqResolve_eq h1 hmax (c := 1) rfl ho hstate).trans ?_
    simp only [State.resolveBy, State.resolveRetry, hreason, if_false, hv, hidle]
  · refine answered_in_run (r := .resolve n 1) rfl htakes rfl rfl ?_
    refine (State.reqResolve_eq h1 hmax (c := 1) rfl ho hstate).trans ?_
    have hconvert : s.convert n = s.convertTo n o b := by simp only [State.convert, ho, hb]
    simp only [State.resolveBy, State.resolveRetry, hreason, if_true, hb, ← hconvert]
    rfl
  · refine refused_in_run (r := .resolve n 1) rfl htakes rfl rfl (e := .full) ?_ rfl
    refine (State.reqResolve_eq h1 hmax (c := 1) rfl ho hstate).trans ?_
    simp only [State.resolveBy, State.resolveRetry, hreason, if_true, hb]
  · refine answered_in_run (r := .resolve n 2) rfl htakes rfl rfl ?_
    refine (State.reqResolve_eq h1 hmax (c := 2) rfl ho hstate).trans ?_
    simp only [State.resolveBy, State.resolveAccept, hreason, hv]
    rfl
  · refine refused_in_run (r := .resolve n 2) rfl htakes rfl rfl (e := .state) ?_ rfl
    refine (State.reqResolve_eq h1 hmax (c := 2) rfl ho hstate).trans ?_
    change s.resolveAccept n o = _
    unfold State.resolveAccept
    split
    case h_1 h _ => exact absurd h hreason
    case h_2 => rfl
  · refine refused_in_run (r := .resolve n 3) rfl htakes rfl rfl (e := .state) ?_ rfl
    refine (State.reqResolve_eq h1 hmax (c := 3) rfl ho hstate).trans ?_
    exact if_pos hrefused
  · refine answered_in_run (r := .resolve n 3) rfl htakes rfl rfl ?_
    refine (State.reqResolve_eq h1 hmax (c := 3) rfl ho hstate).trans ((State.resolveCancel_eq hallowed).trans ?_)
    rw [State.cancelEvent_remove ho (Order.inFlight_of_suspended hstate) hloaded hseq]
    rfl
  · refine answered_in_run (r := .resolve n 3) rfl htakes rfl rfl ?_
    refine (State.reqResolve_eq h1 hmax (c := 3) rfl ho hstate).trans ((State.resolveCancel_eq hallowed).trans ?_)
    obtain ⟨o', hevent, houtcome, -⟩ := State.cancelEvent_convert ho hallowed (Order.inFlight_of_suspended hstate) hloaded hb
    rw [hevent, houtcome]
    rfl
  · refine answered_in_run (r := .resolve n 3) rfl htakes rfl rfl ?_
    refine (State.reqResolve_eq h1 hmax (c := 3) rfl ho hstate).trans ((State.resolveCancel_eq hallowed).trans ?_)
    obtain ⟨hevent, houtcome, -, hafter⟩ := State.cancelEvent_noSpace ho hallowed (Order.inFlight_of_suspended hstate) hloaded hb
    rw [hevent, houtcome]
    dsimp only [State.stateAfter]
    rw [hafter]
    rfl

end Sys2Proof.Machine
end

section
/-!
PROOF. A completed fetch (O28) and a completed order (O29).
-/

namespace Sys2Proof.Machine

open Sys2Proof

variable {s t u : State} {n v p r b k : Nat} {o : Order} {x : Reel} {a : Arm}

/-! ### The pick (R4) -/

/-- A part that differs from one where a reel has left its bay in that reel alone. -/
theorem ReelLeft.of_reel {y : Bay} (h : ReelLeft s u b r y) (hbay : t.bay b = u.bay b) (hreel : ∀ q, q ≠ r → t.reel q = u.reel q) :
    ReelLeft s t b r y where
  stack := hbay.trans h.stack
  above lower upper i q z hstack hnodup hq hz := by
    have hne : q ≠ r := by
      rintro rfl
      rw [hstack] at hnodup
      exact (List.nodup_cons.1 (List.nodup_append.1 hnodup).2.1).1 (List.mem_of_getElem? hq)
    exact (hreel q hne).trans (h.above lower upper i q z hstack hnodup hq hz)
  others q hq hout := (hreel q hq).trans (h.others q hq hout)

/-- The record of the reel that leaves stays as it is. -/
theorem State.leaveBay_reel_self (s : State) (b r : Nat) : (s.leaveBay b r).reel r = s.reel r := by
  unfold State.leaveBay
  split
  · refine (relevel_reel_other fun h => ?_).trans rfl
    unfold reelsAbove at h
    simp at h
  · rfl

theorem State.takeReel_eq (s : State) (o : Order) (r v : Nat) : s.takeReel o r v = { s with
    bays := (s.takeReel o r v).bays, reels := (s.takeReel o r v).reels, positions := (s.takeReel o r v).positions } := by
  unfold State.takeReel
  split
  · rw [State.onReel_eq, State.leaveBay_eq]
  · rw [State.onReel_eq]
    rfl
  · rw [State.onReel_eq]

/-- What the pick leaves, by the place it was made at (R4). -/
theorem State.takeReel_from_bay {l : Nat} (hsource : o.source = .bay b l) (s : State) (r v : Nat) :
    (s.takeReel o r v).bays = (s.leaveBay b r).bays ∧
    (∀ q, (s.takeReel o r v).reel q = if q = r then (s.reel r).map fun x => { x with state := .inTransit, location := .onVehicle v, lastBay := some b }
      else (s.leaveBay b r).reel q) := by
  have htake : s.takeReel o r v = (s.leaveBay b r).onReel r fun x =>
      { x with state := .inTransit, location := .onVehicle v, lastBay := some b } := by simp only [State.takeReel, hsource]
  rw [htake]
  refine ⟨State.onReel_bays _ _ _, fun q => ?_⟩
  rw [State.reel_onReel, State.leaveBay_reel_self]

theorem State.takeReel_from_arm (hsource : o.source = .arm p (some a)) (s : State) (r v : Nat) :
    s.takeReel o r v = (s.onPos p fun y => (y.setArm a none).setDisposal a none).onReel r fun x =>
      { x with state := .inTransit, location := if o.kind = .clear then .wasteBound v else .onVehicle v } := by
  simp only [State.takeReel, hsource]

theorem State.takeReel_arm_pos (hsource : o.source = .arm p (some a)) (s : State) (r v : Nat) :
    (s.takeReel o r v).pos p = ((s.pos p).setArm a none).setDisposal a none := by
  rw [State.takeReel_from_arm hsource]
  exact (congrArg (fun y : Table Position => (y.find p).getD Position.reset) (State.onReel_positions _ _ _)).trans (State.onPos_pos_same s p _)

theorem State.takeReel_from_node {m : Nat} (hsource : o.source = .node m) (s : State) (r v : Nat) :
    s.takeReel o r v = s.onReel r fun x => { x with state := .inTransit, location := .onVehicle v } := by
  simp only [State.takeReel, hsource]

theorem State.takeReel_other (s : State) (v : Nat) (hsource : ∀ b l, o.source ≠ .bay b l) {q : Nat} (hq : q ≠ r) :
    (s.takeReel o r v).reel q = s.reel q := by
  unfold State.takeReel
  split
  case h_1 b l h => exact absurd h (hsource b l)
  case h_2 => exact (State.reel_onReel _ r q _).trans (if_neg hq)
  case h_3 => exact (State.reel_onReel _ r q _).trans (if_neg hq)

theorem State.takeReel_bay_other (s : State) (r v : Nat) {c : Nat} (h : ∀ l, o.source ≠ .bay c l) : (s.takeReel o r v).bay c = s.bay c := by
  unfold State.takeReel
  split
  case h_1 b l hsource =>
    have hne : c ≠ b := by
      rintro rfl
      exact h l hsource
    rw [State.onReel_eq]
    exact State.leaveBay_bay_other s b r hne
  case h_2 => rw [State.onReel_eq]; rfl
  case h_3 => rw [State.onReel_eq]; rfl

/-! ### A completed fetch (O28) -/

/-- The part with the reel on its vehicle, before the carry leg is asked for (R46). -/
def State.fetched (s : State) (n : Nat) (o : Order) (r v : Nat) : State :=
  (((s.takeReel o r v).rewatch).onVeh v fun x => { x with load := some r, verified := true }).setOrder n { o with progress := 2, reason := none }

theorem State.wakeHeldArm_legged (s : State) (p : Nat) : ∃ m, s.Legged (s.wakeHeldArm p) m := by
  unfold State.wakeHeldArm
  split
  · split
    · exact ⟨_, State.requestLeg_legged s _⟩
    · exact ⟨0, .refl s 0⟩
  · exact ⟨0, .refl s 0⟩

/-- Two leg requests, one after the other, leave what one leaves: the reels, bays, positions and vehicles, and every order with its task. -/
theorem State.completeFetch_kept (ho : s.order n = some o) (hr : o.reel = some r) :
    (s.completeFetch n v).reels = (s.fetched n o r v).reels ∧ (s.completeFetch n v).bays = (s.fetched n o r v).bays ∧
    (s.completeFetch n v).positions = (s.fetched n o r v).positions ∧ (s.completeFetch n v).vehicles = (s.fetched n o r v).vehicles ∧
    (s.completeFetch n v).rest = (s.fetched n o r v).rest ∧ (s.completeFetch n v).clock = (s.fetched n o r v).clock ∧
    ∃ o', (s.completeFetch n v).order n = some o' ∧ ({ o with progress := 2, reason := none } : Order).sameTask o' := by
  have hfetched : (s.fetched n o r v).order n = some { o with progress := 2, reason := none } := Table.find_insert_same _ _ _
  have hleg := State.requestLeg_legged (s.fetched n o r v) n
  obtain ⟨y, hy, hsame, -⟩ := hleg.order _ hfetched
  have hwake : s.completeFetch n v = (s.fetched n o r v).requestLeg n ∨ ∃ q, s.completeFetch n v = ((s.fetched n o r v).requestLeg n).wakeHeldArm q := by
    simp only [State.completeFetch, ho]
    split
    case h_1 hnone => rw [hr] at hnone; cases hnone
    case h_2 q hq =>
      obtain rfl : r = q := Option.some.inj (hr.symm.trans hq)
      split
      · exact .inr ⟨_, rfl⟩
      · exact .inl rfl
  rcases hwake with hwake | ⟨q, hwake⟩
  · rw [hwake]
    refine ⟨?_, ?_, ?_, ?_, ?_, ?_, y, hy, hsame⟩ <;> rw [hleg.rest]
  · obtain ⟨m, hheld⟩ := State.wakeHeldArm_legged ((s.fetched n o r v).requestLeg n) q
    have hkept : ∃ o', (((s.fetched n o r v).requestLeg n).wakeHeldArm q).order n = some o' ∧ y.sameTask o' := by
      by_cases hm : n = m
      · subst hm
        obtain ⟨z, hz, hsame', -⟩ := hheld.order y hy
        exact ⟨z, hz, hsame'⟩
      · exact ⟨y, (hheld.others n hm).trans hy, y.sameTask_refl⟩
    obtain ⟨z, hz, hsame'⟩ := hkept
    rw [hwake]
    refine ⟨?_, ?_, ?_, ?_, ?_, ?_, z, hz, Order.sameTask_trans hsame hsame'⟩ <;> rw [hheld.rest, hleg.rest]

theorem State.watchValue_congr (hreels : t.reels = s.reels) (hclock : t.clock = s.clock) : t.watchValue = s.watchValue := by
  unfold State.watchValue
  rw [hreels, hclock]

/-- The split of a list at the one place of `r` that ends it. -/
theorem upper_eq_nil_of_last {lower lower' upper : List Nat} (h : lower ++ [r] = lower' ++ r :: upper) (hr : r ∉ lower) : upper = [] := by
  rcases List.eq_nil_or_concat upper with hnil | ⟨init, z, rfl⟩
  · exact hnil
  · rw [List.concat_eq_append, ← List.cons_append, ← List.append_assoc] at h
    obtain ⟨hlower, -⟩ := List.append_inj' h rfl
    exact absurd (hlower ▸ List.mem_append_right lower' List.mem_cons_self) hr

/-- Settles O28: the leg request that follows the pick leaves reels, bays, positions and vehicles as the pick left them. -/
theorem fetchCompleted : Obligations.FetchCompleted := by
  unfold Obligations.FetchCompleted
  intro s n v r o x ho hr hx
  obtain ⟨hreels, hbays, hpositions, hvehicles, hrest, hclock, o', ho', hsame⟩ := State.completeFetch_kept (v := v) ho hr
  have htake := s.takeReel_eq o r v
  have hveh : (s.completeFetch n v).veh v = { (s.takeReel o r v).veh v with load := some r, verified := true } :=
    (congrArg (fun y : Table Vehicle => (y.find v).getD Vehicle.absentSlot) hvehicles).trans
      (State.onVeh_veh_same (s.takeReel o r v).rewatch v fun x => { x with load := some r, verified := true })
  have hreel (q : Nat) : (s.completeFetch n v).reel q = (s.takeReel o r v).reel q := congrArg (fun y : Table Reel => y.find q) hreels
  have hbay (c : Nat) : (s.completeFetch n v).bay c = (s.takeReel o r v).bay c := congrArg (fun y : Table Bay => y.find c) hbays
  have hpos (c : Nat) : (s.completeFetch n v).pos c = (s.takeReel o r v).pos c :=
    congrArg (fun y : Table Position => (y.find c).getD Position.reset) hpositions
  refine ⟨by rw [hveh], by rw [hveh], ⟨o', ho', ?_⟩, ?_, fun b l y hsource hy => ⟨?_, fun lower hstack hlower => ⟨?_, fun q hq => ?_⟩, ?_⟩,
    fun p a hsource => ⟨?_, ?_, ?_⟩, fun m hsource => ?_, fun hsource q hq => ?_, fun c hc => ?_, (Moves.completeFetch .refl n v).apart⟩
  · obtain ⟨hkind, -, -, hreel', -, -, hprogress, -⟩ := hsame
    exact ⟨hprogress, hkind, hreel'.trans hr⟩
  · rw [hrest, State.watchValue_congr hreels hclock]
    rfl
  · obtain ⟨hbays', hreel'⟩ := State.takeReel_from_bay hsource s r v
    refine (State.leaveBay_left r hy).of_reel ?_ fun q hq => ?_
    · rw [hbay]
      exact congrArg (fun y : Table Bay => y.find b) hbays'
    · rw [hreel, hreel', if_neg hq]
  · obtain ⟨hbays', -⟩ := State.takeReel_from_bay hsource s r v
    rw [hbay]
    refine (congrArg (fun y : Table Bay => y.find b) hbays').trans ((State.leaveBay_left r hy).stack.trans ?_)
    have hfilter : (lower ++ [r]).filter (fun q => decide (q ≠ r)) = lower := by
      rw [List.filter_append, List.filter_eq_self.2 fun q hq => by simpa using fun h : q = r => hlower (h ▸ hq)]
      simp
    rw [hstack, hfilter]
  · obtain ⟨-, hreel'⟩ := State.takeReel_from_bay hsource s r v
    rw [hreel, hreel', if_neg hq]
    refine (State.leaveBay_left r hy).others q hq fun lower' upper' h => ?_
    rw [upper_eq_nil_of_last (hstack.symm.trans h) hlower]
    exact List.not_mem_nil
  · obtain ⟨-, hreel'⟩ := State.takeReel_from_bay hsource s r v
    rw [hreel, hreel', if_pos rfl, hx]
    rfl
  · rw [hpos, State.takeReel_arm_pos hsource]
    cases a <;> rfl
  · rw [hpos, State.takeReel_arm_pos hsource]
    cases a <;> rfl
  · rw [hreel, State.takeReel_from_arm hsource, State.reel_onReel, if_pos rfl]
    exact congrArg (Option.map _) hx
  · rw [hreel, State.takeReel_from_node hsource, State.reel_onReel, if_pos rfl, hx]
    rfl
  · rw [hreel]
    exact State.takeReel_other s v hsource hq
  · rw [hbay]
    exact State.takeReel_bay_other s r v hc

/-! ### A completed order (O29) -/

theorem State.dropReel_eq (s : State) (o : Order) (r : Nat) : s.dropReel o r = { s with
    reels := (s.dropReel o r).reels, bays := (s.dropReel o r).bays
    rest := { s.rest with watch := (s.dropReel o r).rest.watch }, positions := (s.dropReel o r).positions } := by
  unfold State.dropReel
  split
  · rw [State.unpromise_eq, State.pushBay_eq]
    rfl
  · split
    · unfold State.stageReel
      dsimp only
      rw [State.onReel_eq]
      rfl
    · rfl
  · rfl

theorem State.dropReel_bay {l : Nat} {y : Bay} (hdest : o.destination = .bay b l) (hx : s.reel r = some x) (hy : s.bay b = some y) :
    (s.dropReel o r).reel r = some { x with state := .stored, location := .inBay b (y.stack.length + 1), reservation := none, tag := none } ∧
    (s.dropReel o r).bay b = some { y with stack := y.stack ++ [r], inbound := y.inbound - 1 } := by
  have hpush : s.pushBay b r = (s.setBay b { y with stack := y.stack ++ [r] }).onReel r fun z =>
      { z with state := .stored, location := .inBay b (y.stack.length + 1), reservation := none, tag := none } := by
    simp only [State.pushBay, hy]
  have hdrop : s.dropReel o r = ((s.pushBay b r).unpromise b).rewatch := by simp only [State.dropReel, hdest]
  rw [hdrop]
  refine ⟨?_, ?_⟩
  · rw [State.unpromise_eq, hpush]
    refine (State.reel_onReel (s.setBay b { y with stack := y.stack ++ [r] }) r r _).trans ?_
    rw [if_pos rfl]
    exact congrArg (Option.map _) hx
  · refine (State.unpromise_bay (s.pushBay b r) b b).trans ?_
    rw [if_pos rfl, hpush, State.onReel_eq]
    exact congrArg (Option.map _) (Table.find_insert_same s.bays b _)

/-- A position with a reel set down on an arm, its call-off ended (R5, R48, R90). -/
def Position.staged (y : Position) (a : Arm) (r : Nat) : Position :=
  let z := y.setArm a (some r)
  if z.isWeb ∧ z.sequence = .noStandby ∧ z.running ≠ some a then { z with sequence := .standby } else z

theorem State.dropReel_arm {d : Option Arm} (hdest : o.destination = .arm p d) (harm : o.targetArm = some a) (hx : s.reel r = some x) :
    (s.dropReel o r).reel r = some { x with state := .staged, location := .onArm p a, reservation := none, tag := none } ∧
    (s.dropReel o r).pos p = { (s.pos p).staged a r with callOff := { ((s.pos p).staged a r).callOff with state := .none, ordersFull := false } } := by
  have hdrop : s.dropReel o r = (s.stageReel p a r).setCallOff p .none false := by simp only [State.dropReel, hdest, harm]
  rw [hdrop]
  refine ⟨?_, ?_⟩
  · refine (State.reel_onReel s r r _).trans ?_
    rw [if_pos rfl, hx]
    rfl
  · have hstage : (s.stageReel p a r).pos p = (s.pos p).staged a r := by
      refine (State.onPos_pos_same _ p _).trans ?_
      rw [State.pos_of_positions (State.onReel_positions s r _)]
      rfl
    unfold State.setCallOff
    rw [State.onPos_pos_same, hstage]

theorem Position.staged_arm (y : Position) (a : Arm) (r : Nat) : (y.staged a r).arm a = some r := by
  have harm : (y.setArm a (some r)).arm a = some r := by cases a <;> rfl
  unfold Position.staged
  dsimp only
  split
  · exact harm
  · exact harm

theorem Position.staged_standby {y : Position} (hrunning : y.running = some (otherArm a)) (hseq : y.sequence = .noStandby) :
    (y.staged a r).sequence = .standby := by
  have hkept : (y.setArm a (some r)).running = y.running ∧ (y.setArm a (some r)).sequence = y.sequence := by cases a <;> exact ⟨rfl, rfl⟩
  have hother : otherArm a ≠ a := by cases a <;> decide
  unfold Position.staged
  dsimp only
  rw [if_pos]
  rw [Position.isWeb, hkept.1, hkept.2, hrunning]
  exact ⟨rfl, hseq, fun h => hother (Option.some.inj h)⟩

theorem State.dropReel_node {m : Nat} (hdest : o.destination = .node m) : (s.dropReel o r).reel r = none := by
  have hdrop : s.dropReel o r = s.delReel r := by simp only [State.dropReel, hdest]
  rw [hdrop]
  exact State.reel_delReel_same s r

/-- The part with the order's reel set down, its order still in the list (R48). -/
def State.reelDown (s : State) (o : Order) (v : Nat) : State :=
  s.whenSome o.reel fun s r => (s.dropReel o r).onVeh v fun x => { x with load := none, verified := false }

theorem State.reelDown_of_reel (hr : o.reel = some r) (s : State) (v : Nat) :
    s.reelDown o v = (s.dropReel o r).onVeh v fun x => { x with load := none, verified := false } := by
  unfold State.reelDown
  rw [hr]
  rfl

theorem State.reelDown_eq (s : State) (o : Order) (v : Nat) : s.reelDown o v = { s with
    reels := (s.reelDown o v).reels, bays := (s.reelDown o v).bays
    rest := { s.rest with watch := (s.reelDown o v).rest.watch }, positions := (s.reelDown o v).positions
    vehicles := (s.reelDown o v).vehicles } := by
  cases hr : o.reel with
  | none =>
    unfold State.reelDown
    rw [hr]
    rfl
  | some r =>
    rw [State.reelDown_of_reel hr, State.dropReel_eq]
    rfl

theorem State.reelDown_veh_other (s : State) (o : Order) (h : k ≠ v) : (s.reelDown o v).veh k = s.veh k := by
  cases hr : o.reel with
  | none =>
    unfold State.reelDown
    rw [hr]
    rfl
  | some r =>
    rw [State.reelDown_of_reel hr]
    refine (State.onVeh_veh_other _ h _).trans ?_
    rw [State.dropReel_eq]
    rfl

/-- The part with the order done, before the freed entry goes to the backlog (R48). -/
def State.orderOver (s : State) (n : Nat) (o : Order) (v : Nat) : State :=
  (((s.reelDown o v).delOrder n).unbind v).raise (.orderDone n o.kind (o.reel.getD 0) v)

theorem State.completeOrder_eq (s : State) (n : Nat) (o : Order) (v : Nat) : s.completeOrder n o v = (s.orderOver n o v).fillBacklog := rfl

theorem State.orderOver_eq (s : State) (n : Nat) (o : Order) (v : Nat) : s.orderOver n o v = { (((s.reelDown o v).delOrder n).unbind v) with
    notices := (s.raise (.orderDone n o.kind (o.reel.getD 0) v)).notices } := by
  have hdown := s.reelDown_eq o v
  refine State.raise_eq_of ?_ ?_ _
  · change (s.reelDown o v).notices = _
    rw [hdown]
  · change (s.reelDown o v).clock = _
    rw [hdown]

/-- Settles O29: the drop, by the kind of destination, then the order's end. -/
theorem orderCompleted : Obligations.OrderCompleted := by
  unfold Obligations.OrderCompleted
  intro s n v o
  have hdown := s.reelDown_eq o v
  have hover := s.orderOver_eq n o v
  have hveh (k : Nat) : (s.orderOver n o v).veh k = ((s.reelDown o v).unbind v).veh k := by rw [hover]; rfl
  have horder (k : Nat) : (s.orderOver n o v).order k = if k = n then none else s.order k := by
    have horders : (s.reelDown o v).orders = s.orders := by rw [hdown]
    rw [hover]
    refine (Table.find_erase _ _ _).trans ?_
    rw [horders]
    rfl
  have hreel (k : Nat) : (s.orderOver n o v).reel k = (s.reelDown o v).reel k := by rw [hover]; rfl
  have hbay (k : Nat) : (s.orderOver n o v).bay k = (s.reelDown o v).bay k := by rw [hover]; rfl
  have hpos (k : Nat) : (s.orderOver n o v).pos k = (s.reelDown o v).pos k := by rw [hover]; rfl
  refine ⟨s.orderOver n o v, s.completeOrder_eq n o v, ?_, ?_, ?_, fun k hk => ?_, fun k hk => ?_, ?_, fun r x hr hx => ⟨?_, fun b l y hdest hy => ?_,
    fun p d a hdest harm => ?_, fun m hdest => ?_⟩, ?_⟩
  · rw [hover]
    change (s.reelDown o v).orders.backlog = _
    rw [hdown]
  · rw [horder, if_pos rfl]
  · rw [hveh, State.unbind_veh_same]
  · rw [horder, if_neg hk]
  · rw [hveh]
    exact (State.onVeh_veh_other _ hk _).trans (s.reelDown_veh_other o hk)
  · rw [hover]
  · rw [hveh, State.unbind_veh_same, State.reelDown_of_reel hr, State.onVeh_veh_same]
  · rw [hreel, hbay, State.reelDown_of_reel hr]
    exact State.dropReel_bay hdest hx hy
  · obtain ⟨hstaged, hposition⟩ := State.dropReel_arm hdest harm hx
    rw [hreel, hpos, State.reelDown_of_reel hr]
    change _ ∧ (((s.dropReel o r).pos p).arm a = _ ∧ ((s.dropReel o r).pos p).callOff.state = _ ∧
      (_ → _ → ((s.dropReel o r).pos p).sequence = _))
    rw [hposition]
    refine ⟨hstaged, ?_, rfl, fun hrunning hseq => Position.staged_standby hrunning hseq⟩
    refine Eq.trans ?_ ((s.pos p).staged_arm a r)
    cases a <;> rfl
  · rw [hreel, State.reelDown_of_reel hr]
    exact State.dropReel_node hdest
  · have hrefl : Moves s s := .refl
    have hmove : Moves s (((s.reelDown o v).delOrder n).unbind v) :=
      (((hrefl.whenSome _ fun _ _ h => (h.dropReel _ _).onVeh v _).delOrder n).unbind v)
    exact (hmove.raise _).apart

end Sys2Proof.Machine
end

section
/-!
PROOF. What the loss of a leg and a HALT leave of a vehicle, and the two timeouts (O38).
-/

namespace Sys2Proof.Machine

open Sys2Proof

variable {s t u : State} {n v p r b k : Nat} {o : Order} {x : Reel}

/-! ### A vehicle under the changes of its order -/

/-- A vehicle may lose its order, and a STOPPED one may stand down to IDLE (R53, R54); nothing else of it changes. -/
def Vehicle.Settles (x y : Vehicle) : Prop := ∃ order, (order = x.order ∨ order = none) ∧
  (y = { x with order := order } ∨ (x.state = .stopped ∧ y = { x with order := order, state := .idle, prior := none }))

/-- From `s` to `u` the vehicle only settles. -/
def State.Stays (s u : State) (v : Nat) : Prop := (s.veh v).Settles (u.veh v)

theorem State.Stays.of_eq (h : u.veh v = s.veh v) : s.Stays u v := ⟨(s.veh v).order, .inl rfl, .inl h⟩

theorem State.Stays.refl (s : State) (v : Nat) : s.Stays s v := .of_eq rfl

theorem State.Stays.trans (h : s.Stays t v) (g : t.Stays u v) : s.Stays u v := by
  obtain ⟨a, ha, hta⟩ := h
  obtain ⟨c, hc, huc⟩ := g
  have hc' : c = (s.veh v).order ∨ c = none := by
    rcases hta with hta | ⟨-, hta⟩ <;> rw [hta] at hc <;> rcases hc with rfl | rfl
    · exact ha
    · exact .inr rfl
    · exact ha
    · exact .inr rfl
  refine ⟨c, hc', ?_⟩
  rcases hta with hta | ⟨hstopped, hta⟩ <;> rw [hta] at huc
  · exact huc
  · refine .inr ⟨hstopped, huc.elim id fun h => ?_⟩
    cases h.1

/-- A vehicle that is not STOPPED changes in its order tag alone. -/
theorem State.Stays.of_not_stopped (h : s.Stays u v) (hstate : (s.veh v).state ≠ .stopped) : ∃ order, u.veh v = { s.veh v with order := order } := by
  obtain ⟨order, -, h | ⟨hstopped, -⟩⟩ := h
  · exact ⟨order, h⟩
  · exact absurd hstopped hstate

theorem State.Stays.order (h : s.Stays u v) : (u.veh v).order = (s.veh v).order ∨ (u.veh v).order = none := by
  obtain ⟨order, horder, h | ⟨-, h⟩⟩ := h <;> rw [h] <;> exact horder

theorem State.Legged.stays (h : s.Legged u n) (v : Nat) : s.Stays u v := .of_eq (by rw [h.rest]; rfl)

theorem State.raise_stays (s : State) (c : Subjects) (v : Nat) : s.Stays (s.raise c) v := .of_eq (by rw [State.raise_eq]; rfl)

theorem State.unbind_stays (s : State) (k v : Nat) : s.Stays (s.unbind k) v := by
  by_cases h : v = k
  · subst h
    exact ⟨none, .inr rfl, .inl (s.unbind_veh_same v)⟩
  · exact .of_eq (State.onVeh_veh_other _ h _)

theorem State.standDown_stays (s : State) (k : Nat) (o : Order) (v : Nat) : s.Stays (s.standDown k o) v := by
  by_cases h : v = k
  · subst h
    unfold State.standDown
    split
    case isTrue hdown => exact ⟨(s.veh v).order, .inl rfl, .inr ⟨hdown.1, State.onVeh_veh_same _ _ _⟩⟩
    case isFalse => exact .refl s v
  · exact .of_eq (State.standDown_veh_other s o h)

theorem State.freeVehicleOf_stays (s : State) (n : Nat) (o : Order) (v : Nat) : s.Stays (s.freeVehicleOf n o) v := by
  unfold State.freeVehicleOf
  split
  · split
    · exact ((s.unbind_stays _ v).trans (.of_eq (State.dropGrant_veh _ _ v))).trans (State.standDown_stays _ _ o v)
    · exact .refl s v
  · exact .refl s v

theorem State.makeItem_vehicles (s : State) (i : BacklogItem) : (s.makeItem i).vehicles = s.vehicles := by
  cases i with
  | delivery p r q =>
    change (s.makeDeliver p r q).vehicles = _
    rw [State.makeDeliver_eq]
  | disposal p a d q =>
    change (s.makeDisposal p a d q).vehicles = _
    unfold State.makeDisposal
    split
    · rfl
    split
    · rfl
    · split
      · exact (created_createOrder s _).vehicles
      · rfl
    · split
      · exact (created_createOrder s _).vehicles
      · rfl

theorem fillUpTo_vehicles : ∀ (m : Nat) (s : State), (fillUpTo m s).vehicles = s.vehicles
  | 0, s => rfl
  | m + 1, s => by
    unfold fillUpTo
    split
    · rfl
    · split
      · rfl
      · exact (fillUpTo_vehicles m _).trans (State.makeItem_vehicles _ _)

theorem State.veh_of_vehicles (h : u.vehicles = s.vehicles) (v : Nat) : u.veh v = s.veh v :=
  congrArg (fun y : Table Vehicle => (y.find v).getD Vehicle.absentSlot) h

theorem State.fillBacklog_stays (s : State) (v : Nat) : s.Stays s.fillBacklog v := .of_eq (State.veh_of_vehicles (fillUpTo_vehicles _ s) v)

theorem State.removeOrder_stays (s : State) (n v : Nat) : s.Stays (s.removeOrder n) v := by
  unfold State.removeOrder
  split
  case h_1 o _ =>
    obtain ⟨-, -, -, -, -, hveh, -⟩ := s.dropOrder_fields n o
    have hgone : s.Stays (s.orderGone n o) v := .of_eq (by rw [hveh])
    exact (hgone.trans (State.freeVehicleOf_stays _ n o v)).trans (State.fillBacklog_stays _ v)
  case h_2 => exact .refl s v

theorem State.recallLeg_stays (s : State) (n : Nat) (o : Order) (v : Nat) : s.Stays (s.recallLeg n o) v := by
  unfold State.recallLeg
  split
  · refine State.Stays.trans (.of_eq ?_) (State.standDown_stays _ _ o v)
    exact State.dropGrant_veh (s.withdrawOrderGo n) _ v
  · exact .of_eq rfl

theorem State.rebooked_veh (s : State) (n : Nat) (o : Order) (b v : Nat) : (s.rebooked n o b).veh v = s.veh v := by
  rw [State.rebooked_eq]
  rfl

theorem State.convert_stays (s : State) (n v : Nat) : s.Stays (s.convert n) v := by
  cases ho : s.order n with
  | none => exact .of_eq (by simp only [State.convert, ho])
  | some o =>
    cases hb : s.conversionBay o with
    | some b =>
      rw [State.convert_some ho hb]
      have hbooked : s.Stays (s.rebooked n o b) v := .of_eq (s.rebooked_veh n o b v)
      exact (hbooked.trans (State.recallLeg_stays _ n o v)).trans ((State.requestLeg_legged _ n).stays v)
    | none =>
      rw [State.convert_none ho hb, State.noSpace_eq]
      have hset : s.Stays (s.setOrder n o.withoutSpace) v := .of_eq rfl
      exact (hset.trans (State.recallLeg_stays _ n o v)).trans (State.raise_stays _ _ v)

theorem State.displaced_stays (s : State) (n v : Nat) : s.Stays (s.displaced n) v := by
  unfold State.displaced
  split
  · exact .refl s v
  split
  · exact .refl s v
  · dsimp only
    have hkeep (w : Nat) (z : Option Nat) : s.Stays (s.keepZone w z) v := .of_eq rfl
    split
    · split
      · exact (hkeep _ _).trans (State.convert_stays _ n v)
      · exact (hkeep _ _).trans (State.removeOrder_stays _ n v)
    · split
      · exact (hkeep _ _).trans ((State.requestLeg_legged _ n).stays v)
      · exact State.Stays.trans (s := s) (.of_eq rfl) (State.unbind_stays _ _ v)

theorem State.putHalt_stays (s : State) (h : VehicleFrame) (q : List VehicleFrame) (v : Nat) : s.Stays (s.putHalt h q) v := by
  unfold State.putHalt
  have hset (q w : List VehicleFrame) : s.Stays (s.setFrames q w) v := .of_eq rfl
  split
  · exact hset _ _
  split
  · exact (hset _ _).trans (State.displaced_stays _ _ v)
  split
  · exact hset _ _
  · exact hset _ _

theorem State.queueHalt_stays (s : State) (k v : Nat) : s.Stays (s.queueHalt k) v := by
  unfold State.queueHalt
  split
  · exact .refl s v
  · exact s.putHalt_stays _ _ v

theorem State.loseLeg_stays (s : State) (k v : Nat) : s.Stays (s.loseLeg k) v := by
  have hset (n : Nat) (o : Order) : s.Stays (s.setOrder n o) v := .of_eq rfl
  unfold State.loseLeg
  split
  · exact .refl s v
  split
  · exact .refl s v
  split
  · split
    · exact s.removeOrder_stays _ v
    · exact ((hset _ _).trans (State.unbind_stays _ k v)).trans (State.raise_stays _ _ v)
  split
  · exact .refl s v
  · dsimp only
    split
    · exact ((hset _ _).trans (State.raise_stays _ _ v)).trans (State.convert_stays _ _ v)
    · exact (hset _ _).trans (State.raise_stays _ _ v)

theorem State.close_veh (s pre : State) (force : Bool) (v : Nat) : ∃ order, (s.close pre force).veh v = { s.veh v with order := order } :=
  ((s.close_passed pre force).vehicles v).imp fun _ h => h.1

/-- A vehicle that is not STOPPED changes in its order tag alone to the end of its event. -/
theorem State.Stays.closed (h : s.Stays u v) (hstate : (s.veh v).state ≠ .stopped) (pre : State) (force : Bool) :
    ∃ order, (u.close pre force).veh v = { s.veh v with order := order } := by
  obtain ⟨a, ha⟩ := h.of_not_stopped hstate
  obtain ⟨c, hc⟩ := u.close_veh pre force v
  exact ⟨c, by rw [hc, ha]⟩

/-! ### The conversion of an order whose vehicle cannot drive -/

theorem State.autoBay_congr (hbays : t.bays = s.bays) (hreels : t.reels = s.reels) (g w : Nat) (c : Option Nat) :
    t.autoBay g w c = s.autoBay g w c := by
  unfold State.autoBay State.hasRoom State.topFree State.topMatches State.reel
  rw [hbays, hreels]

theorem State.roomAt_congr (hbays : t.bays = s.bays) (hreels : t.reels = s.reels) (b : Nat) : t.roomAt b = s.roomAt b := by
  unfold State.roomAt State.hasRoom State.topFree State.reel State.bay
  rw [hbays, hreels]

theorem State.unpromised_bays_congr (hbays : t.bays = s.bays) (d : Place) :
    (t.whenSome d.bay? State.unpromise).bays = (s.whenSome d.bay? State.unpromise).bays := by
  cases d.bay? with
  | none => exact hbays
  | some b => exact State.onBay_bays_congr hbays b _

/-- The bay of a conversion hangs on the bays, the reels, and the order's reel and destination. -/
theorem State.conversionBay_congr {o o' : Order} (hbays : t.bays = s.bays) (hreels : t.reels = s.reels) (hreel : o'.reel = o.reel)
    (hdest : o'.destination = o.destination) : t.conversionBay o' = s.conversionBay o := by
  have hown : (t.whenSome o.destination.bay? State.unpromise).bays = (s.whenSome o.destination.bay? State.unpromise).bays :=
    State.unpromised_bays_congr hbays _
  have hownreels : (t.whenSome o.destination.bay? State.unpromise).reels = (s.whenSome o.destination.bay? State.unpromise).reels := by
    rw [State.unpromised_eq, State.unpromised_eq s, hreels]
  have hrec : (t.whenSome o.destination.bay? State.unpromise).reel = (s.whenSome o.destination.bay? State.unpromise).reel := by
    unfold State.reel
    rw [hownreels]
  unfold State.conversionBay
  dsimp only
  rw [hdest, hreel, hrec]
  split
  · rfl
  · split
    · rw [State.roomAt_congr hown hownreels, State.autoBay_congr hown hownreels]
    · exact State.autoBay_congr hown hownreels _ _ _

theorem State.requestLeg_of_stuck (ho : s.order n = some o) (hv : o.vehicle = some v) (hstuck : (s.veh v).state.canDrive = false) :
    s.requestLeg n = s := by
  simp only [State.requestLeg, ho, hv, hstuck, Bool.false_eq_true, if_false]

/-- A FAULTED or LOST vehicle stays as it is when the leg of its order is recalled. -/
theorem State.recallLeg_veh_stuck (hv : o.vehicle = some v) (h : (s.veh v).state = .faulted ∨ (s.veh v).state = .lost) (n : Nat) :
    (s.recallLeg n o).veh v = s.veh v := by
  obtain ⟨-, hsame, -⟩ := State.recallLeg_spec (s := s) (n := n) hv
  refine hsame (.inl ?_)
  rintro hstopped
  rw [hstopped] at h
  rcases h with h | h <;> cases h

theorem VehicleState.not_canDrive {q : VehicleState} (h : q = .faulted ∨ q = .lost) : q.canDrive = false := by
  rcases h with rfl | rfl <;> rfl

theorem State.convert_stuck_order (ho : s.order n = some o) (hv : o.vehicle = some v)
    (hstuck : (s.veh v).state = .faulted ∨ (s.veh v).state = .lost) (hb : s.conversionBay o = some b) :
    (s.convert n).order n = some (o.convertedTo b) := by
  obtain ⟨-, -, -, -, horder⟩ := State.convert_legged ho hb
  have hw : ((s.rebooked n o b).recallLeg n o).order n = some (o.convertedTo b) := by
    rw [horder]
    exact Table.find_insert_same _ _ _
  have hveh : ((s.rebooked n o b).recallLeg n o).veh v = s.veh v := by
    rw [State.recallLeg_veh_stuck hv (by rw [State.rebooked_veh]; exact hstuck), State.rebooked_veh]
  rw [State.convert_some ho hb, State.requestLeg_of_stuck hw hv (by rw [hveh]; exact VehicleState.not_canDrive hstuck), hw]

/-! ### The loss of a leg (R51) -/

/-- An order SUSPENDED(VEHICLE) for the loss of its leg. -/
def Order.legLost (o : Order) : Order :=
  { o with state := .suspended, reason := some .vehicle, heldSince := none, legZones := [], legPassed := 0, goSent := false }

theorem State.loseLeg_none (h : (s.veh v).order = none) : s.loseLeg v = s := by simp only [State.loseLeg, h]

theorem State.loseLeg_unloaded (hbound : (s.veh v).order = some n) (ho : s.order n = some o) (hloaded : o.loaded = false)
    (hstate : o.state ≠ .cancelling) : s.loseLeg v =
      ((s.setOrder n o.backToWaiting).setVeh v { s.veh v with order := none }).raise (.orderSuspended n .vehicle v (o.reel.getD 0)) := by
  simp only [State.loseLeg, hbound, ho, hloaded, Bool.not_false, if_true, if_neg hstate]
  rfl

theorem State.loseLeg_cancelling (hbound : (s.veh v).order = some n) (ho : s.order n = some o) (hloaded : o.loaded = false)
    (hstate : o.state = .cancelling) : s.loseLeg v = s.removeOrder n := by
  simp only [State.loseLeg, hbound, ho, hloaded, Bool.not_false, if_true, hstate]

/-- The part with a loaded order SUSPENDED(VEHICLE). -/
def State.legSuspended (s : State) (n : Nat) (o : Order) (v : Nat) : State :=
  (s.setOrder n o.legLost).raise (.orderSuspended n .vehicle v (o.reel.getD 0))

theorem State.loseLeg_loaded (hbound : (s.veh v).order = some n) (ho : s.order n = some o) (hloaded : o.loaded = true)
    (hstate : o.state ≠ .suspended) :
    s.loseLeg v = if o.cancelPending then (s.legSuspended n o v).convert n else s.legSuspended n o v := by
  simp only [State.loseLeg, hbound, ho, hloaded, Bool.not_true, Bool.false_eq_true, if_false, if_neg hstate]
  rfl

theorem State.loseLeg_suspended (hbound : (s.veh v).order = some n) (ho : s.order n = some o) (hloaded : o.loaded = true)
    (hstate : o.state = .suspended) : s.loseLeg v = s := by
  simp only [State.loseLeg, hbound, ho, hloaded, Bool.not_true, Bool.false_eq_true, if_false, hstate, if_true]

theorem State.legSuspended_order (s : State) (n : Nat) (o : Order) (v : Nat) : (s.legSuspended n o v).order n = some o.legLost := by
  unfold State.legSuspended
  rw [State.raise_eq]
  exact Table.find_insert_same _ _ _

theorem State.legSuspended_conversionBay (s : State) (n : Nat) (o : Order) (v : Nat) :
    (s.legSuspended n o v).conversionBay o.legLost = s.conversionBay o := by
  refine State.conversionBay_congr ?_ ?_ rfl rfl <;> unfold State.legSuspended <;> rw [State.raise_eq] <;> rfl

theorem State.legSuspended_veh (s : State) (n : Nat) (o : Order) (v k : Nat) : (s.legSuspended n o v).veh k = s.veh k := by
  unfold State.legSuspended
  rw [State.raise_eq]
  rfl

/-! ### The two timeouts (R68, R69) -/

/-- The part with its vehicle FAULTED for an offer not taken, before its order loses the leg (R69). -/
def State.offerFaulted (s : State) (v : Nat) : State :=
  ((s.setVeh v { s.veh v with state := .faulted, prior := none, faultCode := some .offer, offerMs := none, leg := none }).withdrawFor v).raise
    (.vehicleFault v .offer (s.veh v).node ((s.veh v).load.getD 0) ((s.veh v).order.getD 0) 0 0 0)

theorem State.offerEvent_offered (h : (s.veh v).state = .offered) : s.offerEvent v = ((s.offerFaulted v).loseLeg v).queueHalt v := by
  have hveh : ((s.setVeh v { s.veh v with state := .faulted, prior := none, faultCode := some .offer, offerMs := none, leg := none }).withdrawFor
      v).veh v = { s.veh v with state := .faulted, prior := none, faultCode := some .offer, offerMs := none, leg := none } :=
    State.veh_setVeh_same _ _ _
  simp only [State.offerEvent, h, if_true, State.faultVehicle, State.raiseFault, State.onVeh]
  rw [hveh]
  rfl

/-- The part with its vehicle LOST, before its order loses the leg (R68). -/
def State.silentLost (s : State) (v : Nat) : State :=
  ((s.setVeh v { s.veh v with state := .lost, offerMs := none, leg := none }).withdrawFor v).raise
    (.vehicleLost v .silent (s.veh v).node ((s.veh v).load.getD 0))

theorem State.silenceEvent_listening (h1 : (s.veh v).state ≠ .absent) (h2 : (s.veh v).state ≠ .lost) : s.silenceEvent v =
    (if (s.veh v).state = .faulted then s.silentLost v else (s.silentLost v).loseLeg v).queueHalt v := by
  have hlistening : (s.veh v).state.listening = true := by simp [VehicleState.listening, h1, h2]
  have hveh : ((s.setVeh v { s.veh v with state := .lost, offerMs := none, leg := none }).withdrawFor v).veh v =
      { s.veh v with state := .lost, offerMs := none, leg := none } := State.veh_setVeh_same _ _ _
  simp only [State.silenceEvent, hlistening, if_true, State.loseVehicle, State.onVeh]
  rw [hveh]
  rfl

theorem State.offerFaulted_veh (s : State) (v : Nat) : (s.offerFaulted v).veh v =
    { s.veh v with state := .faulted, prior := none, faultCode := some .offer, offerMs := none, leg := none } := by
  unfold State.offerFaulted
  rw [State.raise_eq]
  exact State.veh_setVeh_same _ _ _

theorem State.silentLost_veh (s : State) (v : Nat) : (s.silentLost v).veh v =
    { s.veh v with state := .lost, offerMs := none, leg := none } := by
  unfold State.silentLost
  rw [State.raise_eq]
  exact State.veh_setVeh_same _ _ _

theorem exec_offerTimeout (h1 : 1 ≤ v) (h12 : v ≤ 12) (s : State) :
    exec (.offerTimeout v) s = .next ((s.offerEvent v).close s false).transmit := by
  change execOfferTimeout v s = _
  simp [execOfferTimeout, vehicleOk, h1, h12]

theorem exec_silenceTimeout (h1 : 1 ≤ v) (h12 : v ≤ 12) (s : State) :
    exec (.silenceTimeout v) s = .next ((s.silenceEvent v).close s false).transmit := by
  change execSilenceTimeout v s = _
  simp [execSilenceTimeout, vehicleOk, h1, h12]

/-- Settles O38: a FAULTED or LOST vehicle changes in its order tag alone for the rest of its event. -/
theorem offerAndSilence : Obligations.OfferAndSilence := by
  unfold Obligations.OfferAndSilence
  refine ⟨fun s v h1 h12 => ⟨fun hoffered => ?_, fun hoffered u hu => ?_, fun hnot => ?_, fun habsent hlost => ?_, fun habsent hlost u hu =>
    ⟨fun hfaulted => ?_, fun hfaulted => ?_⟩, fun hdeaf => ?_⟩, fun s v => ⟨State.loseLeg_none, fun n o hbound ho =>
      ⟨fun hloaded hstate => ⟨o.backToWaiting, ?_, rfl⟩, State.loseLeg_unloaded hbound ho, State.loseLeg_cancelling hbound ho,
        fun hloaded hstate hpending => ⟨o.legLost, ?_, rfl, rfl, rfl⟩, fun hloaded hstate u hu => ⟨fun hpending => ?_, fun hpending => ?_⟩,
        fun hloaded hstate hpending hv hstuck => ⟨fun b hb => ⟨o.legLost.convertedTo b, ?_, rfl, rfl, rfl, rfl, hv⟩,
          fun hb => ⟨o.legLost.withoutSpace, ?_, rfl, rfl, rfl⟩⟩, State.loseLeg_suspended hbound ho⟩⟩⟩
  · refine ⟨_, exec_offerTimeout h1 h12 s, ?_⟩
    have hstays := ((s.offerFaulted v).loseLeg_stays v v).trans (State.queueHalt_stays _ v v)
    obtain ⟨order, hveh⟩ := hstays.closed (by rw [State.offerFaulted_veh]; simp) s false
    rw [State.offerFaulted_veh, ← State.offerEvent_offered hoffered] at hveh
    have hmoves : Moves s ((s.offerEvent v).close s false) := Moves.close (Moves.offerEvent .refl v) s false
    refine ⟨?_, ?_, ?_, ?_, hmoves.apart⟩ <;> rw [hveh]
  · rw [exec_offerTimeout h1 h12, State.offerEvent_offered hoffered, hu]
    rfl
  · rw [exec_offerTimeout h1 h12, State.offerEvent, if_neg hnot]
  · refine ⟨_, exec_silenceTimeout h1 h12 s, ?_⟩
    have hmiddle : (s.silentLost v).Stays (if (s.veh v).state = .faulted then s.silentLost v else (s.silentLost v).loseLeg v) v := by
      split
      · exact .refl _ v
      · exact State.loseLeg_stays _ v v
    obtain ⟨order, hveh⟩ := (hmiddle.trans (State.queueHalt_stays _ v v)).closed (by rw [State.silentLost_veh]; simp) s false
    rw [State.silentLost_veh, ← State.silenceEvent_listening habsent hlost] at hveh
    have hmoves : Moves s ((s.silenceEvent v).close s false) := Moves.close (Moves.silenceEvent .refl v) s false
    refine ⟨?_, ?_, ?_, ?_, hmoves.apart⟩ <;> rw [hveh]
  · rw [exec_silenceTimeout h1 h12, State.silenceEvent_listening habsent hlost, if_neg hfaulted, hu]
    rfl
  · rw [exec_silenceTimeout h1 h12, State.silenceEvent_listening habsent hlost, if_pos hfaulted, hu]
    rfl
  · have hlistening : (s.veh v).state.listening = false := by
      rcases hdeaf with h | h <;> rw [h] <;> rfl
    rw [exec_silenceTimeout h1 h12, State.silenceEvent, hlistening]
    rfl
  · rw [State.loseLeg_unloaded hbound ho hloaded hstate, State.raise_eq]
    exact Table.find_insert_same _ _ _
  · rw [State.loseLeg_loaded hbound ho hloaded hstate, hpending]
    exact s.legSuspended_order n o v
  · rw [State.loseLeg_loaded hbound ho hloaded hstate, hpending, hu]
    rfl
  · rw [State.loseLeg_loaded hbound ho hloaded hstate, hpending, hu]
    rfl
  · rw [State.loseLeg_loaded hbound ho hloaded hstate, hpending]
    refine State.convert_stuck_order (s.legSuspended_order n o v) hv (by rw [State.legSuspended_veh]; exact hstuck) ?_
    rw [State.legSuspended_conversionBay, hb]
  · rw [State.loseLeg_loaded hbound ho hloaded hstate, hpending]
    refine State.convert_noSpace_order (s.legSuspended_order n o v) ?_
    rw [State.legSuspended_conversionBay, hb]

end Sys2Proof.Machine
end

section
/-!
PROOF. The frames of a joined vehicle: how each is taken, TAKE and PASS (O33), ALIVE, FAULT and READY (O35).
-/

namespace Sys2Proof.Machine

open Sys2Proof

variable {s t u : State} {n v p r b k node : Nat} {o : Order} {c : Instr} {f : State → State}

/-! ### A frame taken by the sender's slot (R81) -/

theorem State.heardFrom_veh (s : State) (v : Nat) : (s.heardFrom v).veh v = { s.veh v with silenceMs := 0, sinceFrameMs := 0 } :=
  State.veh_setVeh_same _ _ _

theorem State.heardFrom_moves (s : State) (v : Nat) : Moves s (s.heardFrom v) := Moves.onVeh .refl v Vehicle.heard

/-- The vehicle FAULTED with a code, before its order loses the leg (R66). -/
def State.faulting (s : State) (v : Nat) (code : FaultCode) : State :=
  ((s.setVeh v { s.veh v with state := .faulted, prior := none, faultCode := some code, offerMs := none, leg := none }).withdrawFor v).raise
    (.vehicleFault v code (s.veh v).node ((s.veh v).load.getD 0) ((s.veh v).order.getD 0) 0
      (if code = .load then (s.veh v).load.getD 0 else 0) 0)

theorem State.faulting_veh (s : State) (v : Nat) (code : FaultCode) : (s.faulting v code).veh v =
    { s.veh v with state := .faulted, prior := none, faultCode := some code, offerMs := none, leg := none } := by
  unfold State.faulting
  rw [State.raise_eq]
  exact State.veh_setVeh_same _ _ _

theorem State.faultVehicle_eq (s : State) (v : Nat) (code : FaultCode) (halt : Bool) : s.faultVehicle v code halt =
    if halt then (if (s.veh v).state.sound then (s.faulting v code).loseLeg v else s.faulting v code).queueHalt v
    else if (s.veh v).state.sound then (s.faulting v code).loseLeg v else s.faulting v code := by
  have hveh : ((s.setVeh v { s.veh v with state := .faulted, prior := none, faultCode := some code, offerMs := none, leg := none }).withdrawFor
      v).veh v = { s.veh v with state := .faulted, prior := none, faultCode := some code, offerMs := none, leg := none } :=
    State.veh_setVeh_same _ _ _
  simp only [State.faultVehicle, State.raiseFault, State.onVeh]
  rw [hveh, State.veh_setVeh_same]
  rfl

/-- However its order fares, the vehicle stands FAULTED with the code. -/
theorem State.faultVehicle_veh (s : State) (v : Nat) (code : FaultCode) (halt : Bool) : ∃ order, (s.faultVehicle v code halt).veh v =
    { s.veh v with state := .faulted, prior := none, faultCode := some code, offerMs := none, leg := none, order := order } := by
  have hlose : (s.faulting v code).Stays (if (s.veh v).state.sound then (s.faulting v code).loseLeg v else s.faulting v code) v := by
    split
    · exact State.loseLeg_stays _ v v
    · exact .refl _ v
  have hstays : (s.faulting v code).Stays (s.faultVehicle v code halt) v := by
    rw [State.faultVehicle_eq]
    split
    · exact hlose.trans (State.queueHalt_stays _ v v)
    · exact hlose
  obtain ⟨order, h⟩ := hstays.of_not_stopped (by rw [State.faulting_veh]; simp)
  exact ⟨order, by rw [h, State.faulting_veh]⟩

theorem State.vehicleFrame_eq (h1 : 1 ≤ v) (h12 : v ≤ 12) (habsent : (s.veh v).state ≠ .absent) (f : State → State) :
    s.vehicleFrame v f = (s.heard v f).close s (batteryRose s (s.heard v f) v) := by
  unfold State.vehicleFrame
  rw [if_pos (vehicleOk_iff.2 ⟨h1, h12⟩), if_neg habsent]

theorem State.heard_eq (hlost : (s.veh v).state ≠ .lost) (f : State → State) : s.heard v f = f (s.heardFrom v) := by
  unfold State.heard
  dsimp only
  rw [State.onVeh_veh_same]
  exact if_neg hlost

theorem State.heard_lost (hlost : (s.veh v).state = .lost) (f : State → State) : s.heard v f = (s.heardFrom v).faultVehicle v .link true := by
  unfold State.heard
  dsimp only
  rw [State.onVeh_veh_same]
  exact if_pos hlost

theorem batteryRose_eq {level : Nat} (hbattery : (u.veh v).battery = level) (hapart : u.apart = s.apart) :
    batteryRose s u v = (decide ((s.veh v).battery < s.vconfig.lowBattery) && decide (s.vconfig.lowBattery ≤ level)) := by
  have hconfig : u.vconfig = s.vconfig := congrArg Apart.vconfig hapart
  rw [batteryRose, hbattery, hconfig]

/-- A battery that stays where it was has not risen. -/
theorem batteryRose_same (hbattery : (u.veh v).battery = (s.veh v).battery) (hapart : u.apart = s.apart) : batteryRose s u v = false := by
  rw [batteryRose_eq hbattery hapart]
  by_cases h : (s.veh v).battery < s.vconfig.lowBattery
  · simp [h, not_le.2 h]
  · simp [h]

/-- A frame of a vehicle neither ABSENT nor LOST, whose battery it leaves, is its own change and then the close of its event. -/
theorem exec_of_frame (hexec : exec c s = .next (s.vehicleFrame v f).transmit) (h1 : 1 ≤ v) (h12 : v ≤ 12) (habsent : (s.veh v).state ≠ .absent)
    (hlost : (s.veh v).state ≠ .lost) (hu : f (s.heardFrom v) = u) (hbattery : (u.veh v).battery = (s.veh v).battery)
    (hapart : u.apart = s.apart) : exec c s = .next (u.close s false).transmit := by
  rw [hexec, State.vehicleFrame_eq h1 h12 habsent, State.heard_eq hlost, hu, batteryRose_same hbattery hapart]

/-- The frames but JOIN are taken by the sender's slot. -/
theorem exec_frameCommand {i : VehicleInput} (h : ∀ n r b, i ≠ .join n r b) (s : State) (v : Nat) :
    ∃ f : State → State, exec (frameCommand v i) s = .next (s.vehicleFrame v f).transmit := by
  cases i with
  | join n r b => exact absurd rfl (h n r b)
  | take tag leg => exact ⟨_, rfl⟩
  | pass zone => exact ⟨_, rfl⟩
  | done tag leg result node reel => exact ⟨_, rfl⟩
  | alive battery node => exact ⟨_, rfl⟩
  | fault code => exact ⟨_, rfl⟩
  | ready => exact ⟨_, rfl⟩

/-! ### TAKE and PASS (O33) -/

theorem exec_take (s : State) (v n i : Nat) : exec (.take v n i) s = .next (s.vehicleFrame v fun s => s.takeFrame v n i).transmit := rfl

theorem exec_pass (s : State) (v z : Nat) : exec (.pass v z) s = .next (s.vehicleFrame v fun s => s.passFrame v z).transmit := rfl

theorem State.activate_veh (s : State) (n k : Nat) : (s.activate n).veh k = s.veh k := by
  unfold State.activate
  rw [State.onOrder_eq]
  rfl

theorem State.takeFrame_offered {i : Nat} (hleg : (s.veh v).onLeg n i = true) (hstate : (s.veh v).state = .offered) :
    s.takeFrame v n i = (s.onVeh v fun y => { y with state := .driving, offerMs := none }).activate n := by
  simp only [State.takeFrame, hleg, if_true, hstate]

theorem State.takeFrame_stopped {i : Nat} (hleg : (s.veh v).onLeg n i = true) (hstate : (s.veh v).state = .stopped)
    (hprior : (s.veh v).prior = some .offered) :
    s.takeFrame v n i = (s.onVeh v fun y => { y with prior := some .driving }).activate n := by
  simp only [State.takeFrame, hleg, if_true, hstate, hprior]

theorem Vehicle.onLeg_heard (x : Vehicle) (n i : Nat) :
    ({ x with silenceMs := 0, sinceFrameMs := 0 } : Vehicle).onLeg n i = x.onLeg n i := rfl

/-- Entries of other numbers taken out of a table leave the entry under `k`. -/
theorem Table.findIn_filter_of_keeps {α : Type} {g : Nat × α → Bool} : ∀ {es : List (Nat × α)}, (∀ e ∈ es, e.1 = k → g e = true) →
    Table.findIn k (es.filter g) = Table.findIn k es
  | [], _ => rfl
  | e :: es, h => by
    have ih := Table.findIn_filter_of_keeps (es := es) fun d hd => h d (List.mem_cons_of_mem _ hd)
    by_cases hk : e.1 = k
    · rw [List.filter_cons_of_pos (h e List.mem_cons_self hk)]
      simp [Table.findIn, hk]
    · by_cases hg : g e = true
      · rw [List.filter_cons_of_pos hg]
        simp [Table.findIn, hk, ih]
      · rw [List.filter_cons_of_neg hg, ih]
        simp [Table.findIn, hk]

/-- The vehicle gives up the zone it has left (R72). -/
def State.leaveZone (s : State) (v : Nat) : State :=
  { s with locks := ⟨s.locks.entries.filter fun e => !(decide (e.2 = v) && decide (some e.1 = (s.veh v).zone))⟩ }

theorem State.leaveZone_holder_other {y : Nat} (h : (s.veh v).zone ≠ some y) : (s.leaveZone v).holder y = s.holder y := by
  refine Table.findIn_filter_of_keeps fun e _ he => ?_
  rw [he]
  simp [Ne.symm h]

theorem State.leaveZone_holder_left {y : Nat} (hwf : s.locks.wf = true) (hheld : s.holder y = some v) (hzone : (s.veh v).zone = some y) :
    (s.leaveZone v).holder y = none := by
  refine (Table.find_filter hwf _ y).trans ?_
  change (s.holder y).filter _ = none
  rw [hheld, hzone]
  simp [Option.filter]

/-- A PASS of the next zone (R72). -/
theorem State.passFrame_eq {z : Nat} (hmoves : (s.veh v).moves = true) (hnext : s.nextZone (s.veh v) = some z) :
    s.passFrame v z = (s.leaveZone v).onVeh v fun y =>
      { y with zone := some z, node := 0, leg := y.leg.map fun l => { l with passed := l.passed + 1 } } := by
  unfold State.passFrame
  dsimp only
  rw [hmoves, hnext]
  exact if_pos (by simp)

theorem State.passFrame_wrong {z : Nat} (h : (s.veh v).moves = false ∨ s.nextZone (s.veh v) ≠ some z) :
    s.passFrame v z = s.faultVehicle v .route true := by
  unfold State.passFrame
  dsimp only
  refine if_neg ?_
  rw [Bool.and_eq_true, decide_eq_true_eq]
  rintro ⟨h1, h2⟩
  rcases h with h | h
  · rw [h] at h1
    cases h1
  · exact h h2

theorem State.heardFrom_moving (s : State) (v : Nat) : ((s.heardFrom v).veh v).moves = (s.veh v).moves ∧
    (s.heardFrom v).nextZone ((s.heardFrom v).veh v) = s.nextZone (s.veh v) := by
  rw [State.heardFrom_veh]
  exact ⟨rfl, rfl⟩

/-- A ROUTE fault keeps the battery. -/
theorem State.faultVehicle_battery (s : State) (v : Nat) (code : FaultCode) (halt : Bool) :
    ((s.faultVehicle v code halt).veh v).battery = (s.veh v).battery := by
  obtain ⟨order, h⟩ := s.faultVehicle_veh v code halt
  rw [h]

/-- Settles O33: each is the vehicle heard, the frame's own change, and the close of the event. -/
theorem takeAndPass : Obligations.TakeAndPass := by
  unfold Obligations.TakeAndPass
  intro s v h1 h12 habsent hlost
  refine ⟨fun n i hleg hstate => ?_, fun n i hleg hstate hprior => ?_, fun n i hleg => ?_, fun n o ho => ?_, fun z hmoves hnext => ?_,
    fun z hwrong => ?_⟩
  · refine exec_of_frame (exec_take s v n i) h1 h12 habsent hlost ?_ ?_ ?_
    · refine (State.takeFrame_offered (by rw [State.heardFrom_veh]; exact hleg) (by rw [State.heardFrom_veh]; exact hstate)).trans ?_
      rw [State.onVeh, State.heardFrom_veh, State.heardFrom, State.setVeh_setVeh]
    · rw [State.activate_veh, State.veh_setVeh_same]
    · exact (Moves.activate (Moves.onVeh (s := s) .refl v fun _ => _) n).apart
  · refine exec_of_frame (exec_take s v n i) h1 h12 habsent hlost ?_ ?_ ?_
    · refine (State.takeFrame_stopped (by rw [State.heardFrom_veh]; exact hleg) (by rw [State.heardFrom_veh]; exact hstate)
        (by rw [State.heardFrom_veh]; exact hprior)).trans ?_
      rw [State.onVeh, State.heardFrom_veh, State.heardFrom, State.setVeh_setVeh]
    · rw [State.activate_veh, State.veh_setVeh_same]
    · exact (Moves.activate (Moves.onVeh (s := s) .refl v fun _ => _) n).apart
  · refine exec_of_frame (exec_take s v n i) h1 h12 habsent hlost ?_ ?_ (s.heardFrom_moves v).apart
    · simp only [State.takeFrame, State.heardFrom_veh, Vehicle.onLeg_heard, hleg, Bool.false_eq_true, if_false]
    · rw [State.heardFrom_veh]
  · unfold State.activate
    rw [State.order_onOrder, if_pos rfl, ho, Option.map_some]
    split
    · rfl
    · rfl
  · obtain ⟨hmoves', hnext'⟩ := s.heardFrom_moving v
    have hpass := State.passFrame_eq (s := s.heardFrom v) (v := v) (z := z) (hmoves'.trans hmoves) (hnext'.trans hnext)
    have hveh : ((s.heardFrom v).passFrame v z).veh v = { s.veh v with
        silenceMs := 0, sinceFrameMs := 0, zone := some z, node := 0
        leg := (s.veh v).leg.map fun l => { l with passed := l.passed + 1 } } := by
      have hleft : ((s.heardFrom v).leaveZone v).veh v = { s.veh v with silenceMs := 0, sinceFrameMs := 0 } := s.heardFrom_veh v
      rw [hpass, State.onVeh_veh_same, hleft]
    have hapart := (Moves.passFrame (s.heardFrom_moves v) v z).apart
    have hzone : ((s.heardFrom v).veh v).zone = (s.veh v).zone := by rw [State.heardFrom_veh]
    refine ⟨(s.heardFrom v).passFrame v z, exec_of_frame (exec_pass s v z) h1 h12 habsent hlost rfl (by rw [hveh]) hapart, hveh,
      fun k hk => ?_, fun y hheld hz hwf => ?_, fun y hz => ?_, ?_, ?_, ?_, ?_, hapart⟩
    · rw [hpass]
      exact (State.onVeh_veh_other _ hk _).trans (State.veh_setVeh_other _ hk _)
    · rw [hpass]
      exact State.leaveZone_holder_left (s := s.heardFrom v) hwf hheld (hzone.trans hz)
    · rw [hpass]
      exact State.leaveZone_holder_other (s := s.heardFrom v) (by rw [hzone]; exact hz)
    · rw [hpass]
      rfl
    · rw [hpass]
      rfl
    · rw [hpass]
      rfl
    · rw [hpass]
      rfl
  · obtain ⟨hmoves', hnext'⟩ := s.heardFrom_moving v
    refine exec_of_frame (exec_pass s v z) h1 h12 habsent hlost (State.passFrame_wrong (by rw [hmoves', hnext']; exact hwrong)) ?_
      (Moves.faultVehicle (s.heardFrom_moves v) v _ _).apart
    rw [State.faultVehicle_battery, State.heardFrom_veh]

/-! ### ALIVE, FAULT and READY (O35) -/

theorem exec_alive (s : State) (v b m : Nat) : exec (.alive v b m) s = .next (s.vehicleFrame v fun s => s.aliveFrame v b m).transmit := rfl

theorem exec_fault (s : State) (v : Nat) (c : ReportedFault) :
    exec (.fault v c) s = .next (s.vehicleFrame v fun s => s.faultVehicle v (faultCodeOf c) false).transmit := rfl

theorem exec_ready (s : State) (v : Nat) : exec (.ready v) s = .next (s.vehicleFrame v fun s => s.readyFrame v).transmit := rfl

/-- A frame that sets the battery is followed by an assignment pass where it has risen. -/
theorem exec_of_frame_battery {level : Nat} (hexec : exec c s = .next (s.vehicleFrame v f).transmit) (h1 : 1 ≤ v) (h12 : v ≤ 12)
    (habsent : (s.veh v).state ≠ .absent) (hlost : (s.veh v).state ≠ .lost) (hu : f (s.heardFrom v) = u)
    (hbattery : (u.veh v).battery = level) (hapart : u.apart = s.apart) : exec c s = .next (u.close s
      (decide ((s.veh v).battery < s.vconfig.lowBattery) && decide (s.vconfig.lowBattery ≤ level))).transmit := by
  rw [hexec, State.vehicleFrame_eq h1 h12 habsent, State.heard_eq hlost, hu, batteryRose_eq hbattery hapart]

theorem State.aliveFrame_eq (s : State) (v b m : Nat) : (s.heardFrom v).aliveFrame v b m =
    (s.setVeh v { s.veh v with silenceMs := 0, sinceFrameMs := 0, battery := min b 100 }).aliveNode v m := by
  unfold State.aliveFrame
  rw [State.onVeh, State.heardFrom_veh, State.heardFrom, State.setVeh_setVeh]

theorem State.aliveNode_under_way (h : (s.veh v).state ∈ [VehicleState.driving, .stopped, .faulted]) :
    s.aliveNode v 0 = s.onVeh v fun y => { y with node := 0 } := by
  simp only [State.aliveNode, if_true]
  rcases List.mem_cons.1 h with h | h
  · rw [h]
  rcases List.mem_cons.1 h with h | h
  · rw [h]
  · rw [List.mem_singleton.1 h]

theorem State.aliveNode_at_rest (h : (s.veh v).state ∈ [VehicleState.idle, .offered]) : s.aliveNode v 0 = s := by
  simp only [State.aliveNode, if_true]
  rcases List.mem_cons.1 h with h | h
  · rw [h]
  · rw [List.mem_singleton.1 h]

theorem State.aliveNode_of_zone {z : Nat} (hnode : node ≠ 0) (hz : s.nodeZone node = some z) (hzone : (s.veh v).zone = some z) :
    s.aliveNode v node = s.onVeh v fun y => { y with node := node } := by
  simp only [State.aliveNode, if_neg hnode]
  exact if_pos ⟨by rw [hz]; rfl, hz.trans hzone.symm⟩

theorem State.aliveNode_elsewhere (hnode : node ≠ 0) (h : s.nodeZone node = none ∨ s.nodeZone node ≠ (s.veh v).zone) :
    s.aliveNode v node = s.faultVehicle v .route true := by
  simp only [State.aliveNode, if_neg hnode]
  refine if_neg ?_
  rintro ⟨h1, h2⟩
  rcases h with h | h
  · rw [h] at h1
    cases h1
  · exact h h2

theorem State.setVeh_moves (s : State) (v : Nat) (x : Vehicle) : Moves s (s.setVeh v x) := Moves.onVeh (s := s) .refl v fun _ => x

/-- A vehicle made ready: IDLE in its own zone alone (R70). -/
def State.readied (s : State) (v z : Nat) : State :=
  (s.keepZone v (some z)).setVeh v { s.veh v with
    silenceMs := 0, sinceFrameMs := 0, state := .idle, faultCode := none, zone := some z }

/-- The order that READY asks the leg of: the vehicle's, where it is SUSPENDED(VEHICLE) (R70). -/
def State.readyLeg (s : State) : Option Nat → State
  | none => s
  | some n =>
    match s.order n with
    | some o => if o.state = .suspended ∧ o.reason = some .vehicle then s.requestLeg n else s
    | none => s

/-- READY of a FAULTED vehicle at a node (R70). -/
theorem State.readyFrame_eq {z : Nat} (hstate : (s.veh v).state = .faulted) (hnode : (s.veh v).node ≠ 0)
    (hz : s.nodeZone (s.veh v).node = some z) : (s.heardFrom v).readyFrame v = (s.readied v z).readyLeg (s.veh v).order := by
  have hstanding : (s.heardFrom v).standingZone v = some z := by
    unfold State.standingZone
    rw [State.heardFrom_veh]
    change (match s.nodeZone (s.veh v).node with | some z => some z | none => _) = _
    rw [hz]
  have hready : (((s.heardFrom v).keepZone v (some z)).onVeh v fun y => { y with state := .idle, faultCode := none, zone := some z }) =
      s.readied v z := by
    have hveh : ((s.heardFrom v).keepZone v (some z)).veh v = { s.veh v with silenceMs := 0, sinceFrameMs := 0 } := s.heardFrom_veh v
    rw [State.onVeh, hveh]
    simp [State.readied, State.heardFrom, State.setVeh, State.keepZone]
  simp only [State.readyFrame, State.heardFrom_veh, hstate, hnode, ne_eq, not_false_eq_true, and_self, if_true, hstanding, hready]
  cases (s.veh v).order <;> rfl

theorem State.readyFrame_of_sound (hstate : (s.veh v).state ≠ .faulted) : (s.heardFrom v).readyFrame v = s.heardFrom v := by
  simp only [State.readyFrame, State.heardFrom_veh]
  exact if_neg fun h => hstate h.1

theorem State.readied_battery (s : State) (v z : Nat) : ((s.readied v z).veh v).battery = (s.veh v).battery := by
  unfold State.readied
  rw [State.veh_setVeh_same]

theorem State.heardFrom_faulting (s : State) (v : Nat) (code : FaultCode) : (s.heardFrom v).faulting v code =
    ((s.setVeh v { s.veh v with
      silenceMs := 0, sinceFrameMs := 0, state := .faulted, prior := none, faultCode := some code, offerMs := none
      leg := none }).withdrawFor v).raise (.vehicleFault v code (s.veh v).node ((s.veh v).load.getD 0) ((s.veh v).order.getD 0) 0
        (if code = .load then (s.veh v).load.getD 0 else 0) 0) := by
  unfold State.faulting
  rw [State.heardFrom_veh, State.heardFrom, State.setVeh_setVeh]

theorem faultCodeOf_load (code : ReportedFault) : faultCodeOf code = .load ↔ code = .load := by cases code <;> decide

/-- A FAULT frame's change, with no HALT (R66). -/
theorem State.faultFrame_eq (hlost : (s.veh v).state ≠ .lost) (code : FaultCode) : (s.heardFrom v).faultVehicle v code false =
    if (s.veh v).state = .faulted then (s.heardFrom v).faulting v code else ((s.heardFrom v).faulting v code).loseLeg v := by
  rw [State.faultVehicle_eq, State.heardFrom_veh]
  by_cases hf : (s.veh v).state = .faulted
  · simp [VehicleState.sound, hf]
  · simp [VehicleState.sound, hf, hlost]

/-- Settles O35: each is the vehicle heard, the frame's own change, and the close of the event, with an assignment pass for a battery that
has risen. -/
theorem aliveFaultReady : Obligations.AliveFaultReady := by
  unfold Obligations.AliveFaultReady
  intro s v h1 h12
  refine ⟨fun habsent i hi => ?_, fun hlost i hi => ?_, fun habsent hlost => ⟨fun b node x hx force hforce => ?_, fun code => ?_, fun code u hu => ?_,
    fun z hstate hnode hz horder => ?_, fun z n o hstate hnode hz horder ho hsuspended hreason => ?_, fun hstate => ?_⟩⟩
  · obtain ⟨f, hf⟩ := exec_frameCommand hi s v
    rw [hf, State.vehicleFrame, if_pos (vehicleOk_iff.2 ⟨h1, h12⟩), if_pos habsent]
  · obtain ⟨f, hf⟩ := exec_frameCommand hi s v
    have habsent : (s.veh v).state ≠ .absent := by simp [hlost]
    rw [hf, State.vehicleFrame_eq h1 h12 habsent, State.heard_lost hlost, batteryRose_same]
    · rw [State.faultVehicle_battery, State.heardFrom_veh]
    · exact (Moves.faultVehicle (s.heardFrom_moves v) v _ _).apart
  · have hset : (s.setVeh v x).veh v = x := State.veh_setVeh_same _ _ _
    have halive := s.aliveFrame_eq v b node
    rw [← hx] at halive
    have hbattery : x.battery = min b 100 := by rw [hx]
    refine ⟨fun hnode hstate => ?_, fun hnode hstate => ?_, fun z hnode hz hzone => ?_, fun hnode hz => ?_⟩
    · subst hnode
      rw [State.aliveNode_under_way (by rw [hset, hx]; exact hstate), State.onVeh, hset, State.setVeh_setVeh] at halive
      rw [hforce]
      refine exec_of_frame_battery (exec_alive s v b 0) h1 h12 habsent hlost halive ?_ (s.setVeh_moves v _).apart
      rw [State.veh_setVeh_same]
      exact hbattery
    · subst hnode
      rw [State.aliveNode_at_rest (by rw [hset, hx]; exact hstate)] at halive
      rw [hforce]
      exact exec_of_frame_battery (exec_alive s v b 0) h1 h12 habsent hlost halive (by rw [hset, hbattery]) (s.setVeh_moves v _).apart
    · rw [State.aliveNode_of_zone (s := s.setVeh v x) (v := v) hnode hz (by rw [hset, hx]; exact hzone), State.onVeh, hset, State.setVeh_setVeh] at halive
      rw [hforce]
      refine exec_of_frame_battery (exec_alive s v b node) h1 h12 habsent hlost halive ?_ (s.setVeh_moves v _).apart
      rw [State.veh_setVeh_same]
      exact hbattery
    · rw [State.aliveNode_elsewhere (s := s.setVeh v x) hnode (by rw [hset, hx]; exact hz)] at halive
      rw [hforce]
      refine exec_of_frame_battery (exec_alive s v b node) h1 h12 habsent hlost halive ?_ (Moves.faultVehicle (s.setVeh_moves v x) v _ _).apart
      rw [State.faultVehicle_battery, hset, hbattery]
  · have hmoves : Moves s ((s.heardFrom v).faultVehicle v (faultCodeOf code) false) := Moves.faultVehicle (s.heardFrom_moves v) v _ _
    have hbattery : (((s.heardFrom v).faultVehicle v (faultCodeOf code) false).veh v).battery = (s.veh v).battery := by
      rw [State.faultVehicle_battery, State.heardFrom_veh]
    obtain ⟨a, ha⟩ := (s.heardFrom v).faultVehicle_veh v (faultCodeOf code) false
    obtain ⟨d, hd⟩ := State.close_veh ((s.heardFrom v).faultVehicle v (faultCodeOf code) false) s false v
    rw [ha] at hd
    refine ⟨_, exec_of_frame (exec_fault s v code) h1 h12 habsent hlost rfl hbattery hmoves.apart, by rw [hd], by rw [hd], by rw [hd], by rw [hd],
      by rw [hd], (hmoves.close s false).apart, fun hnone => ?_⟩
    have hfree : (((s.heardFrom v).faulting v (faultCodeOf code)).veh v).order = none := by rw [State.faulting_veh, State.heardFrom_veh]; exact hnone
    rw [(State.close_passed _ s false).notices, State.faultFrame_eq hlost, State.loseLeg_none hfree, ite_self, State.heardFrom_faulting, hnone]
    simp only [faultCodeOf_load]
    refine State.raise_notices_congr (t := s) ?_ ?_ _ <;> rfl
  · have hu' : u = (s.heardFrom v).faulting v (faultCodeOf code) := by
      rw [hu, State.heardFrom_faulting]
      simp only [faultCodeOf_load]
    have hbattery : (((s.heardFrom v).faultVehicle v (faultCodeOf code) false).veh v).battery = (s.veh v).battery := by
      rw [State.faultVehicle_battery, State.heardFrom_veh]
    have hexec := exec_of_frame (exec_fault s v code) h1 h12 habsent hlost rfl hbattery (Moves.faultVehicle (s.heardFrom_moves v) v _ _).apart
    rw [State.faultFrame_eq hlost, ← hu'] at hexec
    exact ⟨fun hf => by rw [hexec, if_neg hf], fun hf => by rw [hexec, if_pos hf]⟩
  · have hready := State.readyFrame_eq hstate hnode hz
    rw [horder] at hready
    refine exec_of_frame (exec_ready s v) h1 h12 habsent hlost hready (s.readied_battery v z) ?_
    have hapart := (Moves.readyFrame (s.heardFrom_moves v) v).apart
    rw [hready] at hapart
    exact hapart
  · have hready := State.readyFrame_eq hstate hnode hz
    have hleg : (s.readied v z).readyLeg (some n) = (s.readied v z).requestLeg n := by
      have ho' : (s.readied v z).order n = some o := ho
      simp only [State.readyLeg, ho', hsuspended, hreason, and_self, if_true]
    rw [horder, hleg] at hready
    refine exec_of_frame (exec_ready s v) h1 h12 habsent hlost hready ?_ ?_
    · have hveh : ((s.readied v z).requestLeg n).veh v = (s.readied v z).veh v := by
        rw [(State.requestLeg_legged (s.readied v z) n).rest]
        rfl
      exact (congrArg Vehicle.battery hveh).trans (s.readied_battery v z)
    · have hapart := (Moves.readyFrame (s.heardFrom_moves v) v).apart
      rw [hready] at hapart
      exact hapart
  · exact exec_of_frame (exec_ready s v) h1 h12 habsent hlost (State.readyFrame_of_sound hstate) (by rw [State.heardFrom_veh])
      (s.heardFrom_moves v).apart

end Sys2Proof.Machine
end

section
/-!
PROOF. DONE (O34): the vehicle at its node, and the result at its order.
-/

namespace Sys2Proof.Machine

open Sys2Proof

variable {s t u : State} {n v p r b k node read i : Nat} {o : Order} {d : DoneResult}

/-! ### What a result leaves of its vehicle -/

/-- From `s` to `u` the vehicle changes in its order tag and its load alone, unless it is STOPPED. -/
def State.Carries (s u : State) (v : Nat) : Prop := (s.veh v).state ≠ .stopped → ∃ order load verified,
  u.veh v = { s.veh v with order := order, load := load, verified := verified }

theorem State.Stays.carries (h : s.Stays u v) : s.Carries u v := fun hstate =>
  (h.of_not_stopped hstate).imp fun _ h => ⟨_, _, h⟩

theorem State.Carries.trans (h : s.Carries t v) (g : t.Carries u v) : s.Carries u v := by
  intro hstate
  obtain ⟨a, l, w, ha⟩ := h hstate
  obtain ⟨a', l', w', hb⟩ := g (by rw [ha]; exact hstate)
  exact ⟨a', l', w', by rw [hb, ha]⟩

theorem State.Carries.refl (s : State) (v : Nat) : s.Carries s v := (State.Stays.refl s v).carries

theorem State.carries_of_vehicles (h : u.veh = s.veh) : s.Carries u v := (State.Stays.of_eq (by rw [h])).carries

theorem State.onLoad_carries (s : State) (k v : Nat) (load : Option Nat) (w : Bool) :
    s.Carries (s.onVeh k fun x => { x with load := load, verified := w }) v := by
  intro _
  by_cases h : v = k
  · subst h
    exact ⟨_, _, _, State.onVeh_veh_same s v _⟩
  · exact ⟨_, _, _, State.onVeh_veh_other s h _⟩

theorem State.setLoad_carries (s : State) (k r v : Nat) (w : Bool) : s.Carries (s.setLoad k r w) v := s.onLoad_carries k v _ _

theorem State.takeReel_veh (s : State) (o : Order) (r k : Nat) : (s.takeReel o r k).veh = s.veh := by
  rw [State.takeReel_eq]
  rfl

theorem State.suspend_carries (s : State) (n : Nat) (o : Order) (c : Reason) (k v : Nat) : s.Carries (s.suspend n o c k) v := by
  have hset (x : Order) : s.Carries (s.setOrder n x) v := State.carries_of_vehicles rfl
  unfold State.suspend State.raiseSuspended
  exact (hset _).trans (State.raise_stays _ _ v).carries

theorem State.wakeHeldArm_carries (s : State) (p v : Nat) : s.Carries (s.wakeHeldArm p) v := by
  obtain ⟨m, h⟩ := s.wakeHeldArm_legged p
  exact (h.stays v).carries

theorem State.fetched_carries (s : State) (n : Nat) (o : Order) (r k v : Nat) : s.Carries (s.fetched n o r k) v :=
  (State.carries_of_vehicles (s.takeReel_veh o r k)).trans ((s.takeReel o r k).rewatch.onLoad_carries k v (some r) true)

theorem State.completeFetch_carries (s : State) (n k v : Nat) : s.Carries (s.completeFetch n k) v := by
  cases ho : s.order n with
  | none => exact State.carries_of_vehicles (by simp only [State.completeFetch, ho])
  | some o =>
    cases hr : o.reel with
    | none => exact State.carries_of_vehicles (by simp only [State.completeFetch, ho, hr])
    | some r =>
      obtain ⟨-, -, -, hvehicles, -⟩ := State.completeFetch_kept (v := k) ho hr
      exact (s.fetched_carries n o r k v).trans (State.Stays.of_eq (State.veh_of_vehicles hvehicles v)).carries

theorem State.reelDown_carries (s : State) (o : Order) (k v : Nat) : s.Carries (s.reelDown o k) v := by
  cases hr : o.reel with
  | none =>
    refine State.carries_of_vehicles ?_
    unfold State.reelDown
    rw [hr]
    rfl
  | some r =>
    rw [State.reelDown_of_reel hr]
    refine (State.carries_of_vehicles ?_).trans (State.onLoad_carries _ k v none false)
    rw [State.dropReel_eq]
    rfl

theorem State.completeOrder_carries (s : State) (n : Nat) (o : Order) (k v : Nat) : s.Carries (s.completeOrder n o k) v := by
  have hgone : (s.reelDown o k).Stays ((s.reelDown o k).delOrder n) v := .of_eq rfl
  have hfree := hgone.trans (State.unbind_stays _ k v)
  have hover : (s.reelDown o k).Stays (s.orderOver n o k) v := hfree.trans (State.raise_stays _ _ v)
  exact (s.reelDown_carries o k v).trans (hover.trans (State.fillBacklog_stays _ v)).carries

theorem State.legFailed_carries (s : State) (n : Nat) (o : Order) (k : Nat) (d : DoneResult) (read v : Nat) :
    s.Carries (s.legFailed n o k d read) v := by
  unfold State.legFailed
  split
  · exact s.suspend_carries n o _ k v
  split
  · split
    · exact (s.setLoad_carries k read v false).trans (State.suspend_carries _ n o _ k v)
    · exact (s.setLoad_carries k 0 v false).trans (State.suspend_carries _ n o _ k v)
  · exact s.suspend_carries n o _ k v

theorem State.doneActive_carries (s : State) (n : Nat) (o : Order) (k : Nat) (d : DoneResult) (read v : Nat) :
    s.Carries (s.doneActive n o k d read) v := by
  unfold State.doneActive State.legAbandoned
  split
  · split
    · exact ((s.requestLeg_legged n).stays v).carries
    · exact (State.Stays.trans (.of_eq rfl) (State.unbind_stays _ k v)).carries
  · split
    · exact s.completeOrder_carries n o k v
    split
    · split
      · exact s.completeFetch_carries n k v
      · exact s.legFailed_carries n o k _ read v
    split
    · exact s.legFailed_carries n o k _ read v
    · exact s.completeOrder_carries n o k v
  · exact s.legFailed_carries n o k _ read v

theorem State.loadAfter_carries (s : State) (o : Order) (k : Nat) (d : DoneResult) (read v : Nat) : s.Carries (s.loadAfter o k d read) v := by
  unfold State.loadAfter
  split
  · exact .refl s v
  split
  · exact s.setLoad_carries k read v false
  · exact s.setLoad_carries k 0 v false
  · exact s.setLoad_carries k 0 v false
  · exact .refl s v

theorem State.doneCancelling_carries (s : State) (n : Nat) (o : Order) (k : Nat) (d : DoneResult) (read v : Nat) :
    s.Carries (s.doneCancelling n o k d read) v := by
  unfold State.doneCancelling
  split
  · split
    · exact s.completeOrder_carries n o k v
    · exact (s.removeOrder_stays n v).carries
  split
  · split
    · split
      case h_1 r _ =>
        have hload : s.Carries (((s.takeReel o r k).rewatch.onVeh k fun x => { x with load := some r, verified := true }).setOrder n
            { o with progress := 2 }) v := s.fetched_carries n o r k v
        have hconvert := hload.trans (State.convert_stays _ n v).carries
        dsimp only
        split
        · exact hconvert.trans (State.wakeHeldArm_carries _ _ v)
        · exact hconvert
      case h_2 => exact .refl s v
    · exact (s.loadAfter_carries o k d read v).trans (State.removeOrder_stays _ n v).carries
  split
  · exact s.completeOrder_carries n o k v
  · exact (s.convert_stays n v).carries

theorem State.orderDone_carries (s : State) (n k : Nat) (d : DoneResult) (read v : Nat) : s.Carries (s.orderDone n k d read) v := by
  unfold State.orderDone
  split
  · exact .refl s v
  split
  · exact s.doneCancelling_carries n _ k d read v
  · exact s.doneActive_carries n _ k d read v

/-! ### The frame (R73) -/

theorem exec_done (s : State) (v n i : Nat) (d : DoneResult) (m read : Nat) :
    exec (.done v n i d m read) s = .next (s.vehicleFrame v fun s => s.doneFrame v n i d m read).transmit := rfl

/-- The vehicle at rest at the node of its DONE (R73). -/
def State.arrived (s : State) (v node z : Nat) : State :=
  (s.setVeh v { s.veh v with
    silenceMs := 0, sinceFrameMs := 0, state := .idle, prior := none, offerMs := none, leg := none, node := node
    zone := some z }).keepZone v (some z)

theorem State.standAt_heardFrom {z : Nat} (hz : s.nodeZone node = some z) : (s.heardFrom v).standAt v node = s.arrived v node z := by
  have hz' : (s.heardFrom v).nodeZone node = some z := hz
  unfold State.standAt
  dsimp only
  rw [hz', State.onVeh, State.heardFrom_veh, State.heardFrom, State.setVeh_setVeh]
  rfl

theorem State.doneAt_iff {target z : Nat} (hz : s.nodeZone node = some z) :
    s.doneAt v target d node = true ↔ s.holder z = some v ∧ (d = .ok → node = target) := by
  simp only [State.doneAt, hz, Bool.and_eq_true, Bool.or_eq_true, decide_eq_true_eq]
  exact and_congr_right fun _ => by tauto

theorem State.doneFrame_idle (h : (s.veh v).state.onDuty = false ∨ (s.veh v).onLeg n i = false) :
    s.doneFrame v n i d node read = s := by
  unfold State.doneFrame
  dsimp only
  refine if_neg ?_
  rw [Bool.and_eq_true]
  rintro ⟨h1, h2⟩
  rcases h with h | h
  · rw [h] at h1
    cases h1
  · rw [h] at h2
    cases h2

theorem Vehicle.onLeg_iff {x : Vehicle} : x.onLeg n i = true ↔ ∃ l, x.leg = some l ∧ l.tag = n ∧ l.index = i := by
  unfold Vehicle.onLeg
  cases x.leg with
  | none => simp
  | some l => simp

theorem State.doneFrame_at {l : Leg} (hduty : (s.veh v).state.onDuty = true) (hleg : (s.veh v).leg = some l) (hn : l.tag = n)
    (hi : l.index = i) (hat : s.doneAt v l.target d node = true) :
    s.doneFrame v n i d node read = (s.standAt v node).orderDone n v d read := by
  have honleg : (s.veh v).onLeg n i = true := Vehicle.onLeg_iff.2 ⟨l, hleg, hn, hi⟩
  simp only [State.doneFrame, hduty, honleg, Bool.and_self, if_true, hleg, hat]

theorem State.doneFrame_astray {l : Leg} (hduty : (s.veh v).state.onDuty = true) (hleg : (s.veh v).leg = some l) (hn : l.tag = n)
    (hi : l.index = i) (hat : s.doneAt v l.target d node = false) :
    s.doneFrame v n i d node read = s.faultVehicle v .route true := by
  have honleg : (s.veh v).onLeg n i = true := Vehicle.onLeg_iff.2 ⟨l, hleg, hn, hi⟩
  simp only [State.doneFrame, hduty, honleg, Bool.and_self, if_true, hleg, hat, Bool.false_eq_true, if_false]

theorem VehicleState.onDuty_ne {q : VehicleState} (h : q.onDuty = true) : q ≠ .absent ∧ q ≠ .lost := by cases q <;> simp_all [VehicleState.onDuty]

theorem State.arrived_veh (s : State) (v node z : Nat) : (s.arrived v node z).veh v = { s.veh v with
    silenceMs := 0, sinceFrameMs := 0, state := .idle, prior := none, offerMs := none, leg := none, node := node, zone := some z } :=
  State.veh_setVeh_same _ _ _

/-- A DONE for the current leg at a node whose zone the vehicle holds: the vehicle there, and the result at its order. -/
theorem exec_done_at {l : Leg} {z : Nat} (h1 : 1 ≤ v) (h12 : v ≤ 12) (hduty : (s.veh v).state.onDuty = true) (hleg : (s.veh v).leg = some l)
    (hn : l.tag = n) (hi : l.index = i) (hz : s.nodeZone node = some z) (hheld : s.holder z = some v) (htarget : d = .ok → node = l.target) :
    exec (.done v n i d node read) s = .next (((s.arrived v node z).orderDone n v d read).close s false).transmit := by
  obtain ⟨habsent, hlost⟩ := VehicleState.onDuty_ne hduty
  have hat : (s.heardFrom v).doneAt v l.target d node = true :=
    (State.doneAt_iff (s := s.heardFrom v) hz).2 ⟨hheld, htarget⟩
  have hframe := State.doneFrame_at (s := s.heardFrom v) (read := read) (by rw [State.heardFrom_veh]; exact hduty)
    (by rw [State.heardFrom_veh]; exact hleg) hn hi hat
  rw [State.standAt_heardFrom hz] at hframe
  have hapart := (Moves.doneFrame (s.heardFrom_moves v) v n i d node read).apart
  rw [hframe] at hapart
  refine exec_of_frame (exec_done s v n i d node read) h1 h12 habsent hlost hframe ?_ hapart
  obtain ⟨a, load, w, hveh⟩ := (s.arrived v node z).orderDone_carries n v d read v (by rw [State.arrived_veh]; simp)
  rw [hveh, State.arrived_veh]

/-- A DONE elsewhere is a ROUTE fault. -/
theorem exec_done_astray {l : Leg} (h1 : 1 ≤ v) (h12 : v ≤ 12) (hduty : (s.veh v).state.onDuty = true) (hleg : (s.veh v).leg = some l)
    (hn : l.tag = n) (hi : l.index = i) (hat : s.doneAt v l.target d node = false) :
    exec (.done v n i d node read) s = .next (((s.heardFrom v).faultVehicle v .route true).close s false).transmit := by
  obtain ⟨habsent, hlost⟩ := VehicleState.onDuty_ne hduty
  refine exec_of_frame (exec_done s v n i d node read) h1 h12 habsent hlost (State.doneFrame_astray (by rw [State.heardFrom_veh]; exact hduty)
    (by rw [State.heardFrom_veh]; exact hleg) hn hi hat) ?_ (Moves.faultVehicle (s.heardFrom_moves v) v _ _).apart
  rw [State.faultVehicle_battery, State.heardFrom_veh]

/-! ### The result at its order -/

theorem State.orderDone_active (ho : s.order n = some o) (hstate : o.state ≠ .cancelling) :
    s.orderDone n v d read = s.doneActive n o v d read := by
  simp only [State.orderDone, ho, if_neg hstate]

theorem State.orderDone_cancelling (ho : s.order n = some o) (hstate : o.state = .cancelling) :
    s.orderDone n v d read = s.doneCancelling n o v d read := by
  simp only [State.orderDone, ho, if_pos hstate]

/-- The fetch of a CANCELLING order done all the same: the order is converted (R54). -/
theorem State.doneCancelling_fetched (hkind : o.kind ≠ .park) (hprogress : o.progress = 1) (hr : o.reel = some read)
    (hu : u = (((s.takeReel o read v).rewatch.onVeh v fun x => { x with load := some read, verified := true }).setOrder n
      { o with progress := 2 }).convert n) :
    (∀ p a, o.source = .arm p a → s.doneCancelling n o v .ok read = u.wakeHeldArm p) ∧
    ((∀ p a, o.source ≠ .arm p a) → s.doneCancelling n o v .ok read = u) := by
  refine ⟨fun p a hsource => ?_, fun hsource => ?_⟩
  · unfold State.doneCancelling
    rw [if_neg hkind, if_pos hprogress, if_pos ⟨rfl, hr⟩]
    split
    case h_1 r hr' =>
      obtain rfl : read = r := Option.some.inj (hr.symm.trans hr')
      dsimp only
      split
      case h_1 p' a' h =>
        obtain ⟨rfl, -⟩ : p = p' ∧ a = a' := by simpa using hsource.symm.trans h
        rw [hu]
      case h_2 h => exact absurd hsource (h p a)
    case h_2 hnone => exact absurd hr (by simp [hnone])
  · unfold State.doneCancelling
    rw [if_neg hkind, if_pos hprogress, if_pos ⟨rfl, hr⟩]
    split
    case h_1 r hr' =>
      obtain rfl : read = r := Option.some.inj (hr.symm.trans hr')
      dsimp only
      split
      case h_1 p' a' h => exact absurd h (hsource p' a')
      case h_2 => rw [hu]
    case h_2 hnone => exact absurd hr (by simp [hnone])

/-- Settles O34: the result is handed to its order in the part with the vehicle at its node, and each result has one arm there. -/
theorem doneFrame : Obligations.DoneFrame := by
  unfold Obligations.DoneFrame
  refine ⟨fun s v n i node read d h1 h12 habsent hlost => ⟨fun hidle => ?_, fun hduty hleg hz => ?_⟩,
    fun s v n i node read z d l s₁ h1 h12 hduty hleg hn hi hz hs₁ => ⟨fun hstray => ?_, fun hheld htarget => ⟨fun hnone => ?_,
      fun o ho hstate => ?_, fun o ho hstate => ?_⟩⟩⟩
  · refine exec_of_frame (exec_done s v n i d node read) h1 h12 habsent hlost (State.doneFrame_idle ?_) (by rw [State.heardFrom_veh])
      (s.heardFrom_moves v).apart
    rw [State.heardFrom_veh]
    exact hidle
  · obtain ⟨l, hl, hn, hi⟩ := Vehicle.onLeg_iff.1 hleg
    exact exec_done_astray h1 h12 hduty hl hn hi (by simp [State.doneAt, hz])
  · refine exec_done_astray h1 h12 hduty hleg hn hi (Bool.eq_false_iff.2 fun hat => ?_)
    obtain ⟨h, h'⟩ := (State.doneAt_iff hz).1 hat
    exact hstray.elim (· h) fun ⟨hd, hne⟩ => hne (h' hd)
  · have hexec := exec_done_at (read := read) h1 h12 hduty hleg hn hi hz hheld htarget
    have hs : s.arrived v node z = s₁ := hs₁.symm
    have hnone' : s₁.order n = none := by rw [hs₁]; exact hnone
    rw [hexec, hs]
    simp only [State.orderDone, hnone']
  · have hs : s.arrived v node z = s₁ := hs₁.symm
    have ho' : s₁.order n = some o := by rw [hs₁]; exact ho
    have harm : s₁.armOccupied o = s.armOccupied o := by rw [hs₁]; rfl
    have hexec := exec_done_at (read := read) h1 h12 hduty hleg hn hi hz hheld htarget
    rw [hs, State.orderDone_active ho' hstate] at hexec
    rw [hexec]
    refine ⟨fun hd hkind hprogress hr => ?_, fun hd hkind hprogress hr => ?_, fun hd hlast => ?_, fun hd hkind hprogress hfull => ?_,
      fun hd hkind hprogress => ?_, fun hd hlast => ?_, fun hd hloaded => ?_, fun hd hloaded => ?_⟩
    · subst hd
      simp only [State.doneActive, hkind, hprogress, hr, if_false, if_true]
    · subst hd
      simp only [State.doneActive, State.legFailed, hkind, hprogress, hr, if_false, if_true]
    · subst hd
      rcases hlast with hkind | ⟨hprogress, hfree⟩
      · simp only [State.doneActive, hkind, if_true]
      · by_cases hkind : o.kind = .park
        · simp only [State.doneActive, hkind, if_true]
        · simp only [State.doneActive, hkind, hprogress, harm, hfree, if_false, Bool.false_eq_true]
    · subst hd
      simp only [State.doneActive, State.legFailed, hkind, hprogress, harm, hfull, if_false, if_true]
    · rcases hd with rfl | rfl
      · simp only [State.doneActive, State.legFailed, hkind, hprogress, if_false, if_true]
      · simp only [State.doneActive, State.legFailed, hkind, hprogress, if_false, if_true]
    · have hfailed : s₁.legFailed n o v d read = s₁.suspend n o .blockedDrop v := by
        rcases hlast with hkind | hprogress
        · simp only [State.legFailed, hkind, if_true]
        · by_cases hkind : o.kind = .park
          · simp only [State.legFailed, hkind, if_true]
          · simp only [State.legFailed, hkind, hprogress, if_false]
      rw [← hfailed]
      rcases hd with rfl | rfl
      · rfl
      · rfl
    · subst hd
      simp only [State.doneActive, State.legAbandoned, hloaded, Bool.false_eq_true, if_false]
    · subst hd
      simp only [State.doneActive, State.legAbandoned, hloaded, if_true]
  · have hs : s.arrived v node z = s₁ := hs₁.symm
    have ho' : s₁.order n = some o := by rw [hs₁]; exact ho
    have harm : s₁.armOccupied o = s.armOccupied o := by rw [hs₁]; rfl
    have hexec := exec_done_at (read := read) h1 h12 hduty hleg hn hi hz hheld htarget
    rw [hs, State.orderDone_cancelling ho' hstate] at hexec
    rw [hexec]
    refine ⟨fun hkind => ⟨fun hd => ?_, fun hd => ?_⟩, fun hkind hprogress => ⟨fun hd hr u hu => ?_,
      fun hd hr => ?_, fun hd => ?_, fun hd => ?_⟩, fun hkind hprogress => ⟨fun hd hfree => ?_, fun hfailed => ?_⟩⟩
    · subst hd
      simp only [State.doneCancelling, hkind, if_true]
    · simp only [State.doneCancelling, hkind, if_true]
    · subst hd
      obtain ⟨harm', hplain⟩ := State.doneCancelling_fetched hkind hprogress hr hu
      exact ⟨fun p a hsource => by rw [harm' p a hsource], fun hsource => by rw [hplain hsource]⟩
    · simp only [State.doneCancelling, State.loadAfter, hkind, hprogress, hd, hr, if_false, if_true, and_false]
    · rcases hd with rfl | rfl
      · simp only [State.doneCancelling, State.loadAfter, hkind, hprogress, if_false, if_true, reduceCtorEq, false_and]
      · simp only [State.doneCancelling, State.loadAfter, hkind, hprogress, if_false, if_true, reduceCtorEq, false_and]
    · subst hd
      simp only [State.doneCancelling, State.loadAfter, hkind, hprogress, if_false, if_true, reduceCtorEq, false_and]
    · simp only [State.doneCancelling, hkind, hprogress, hd, harm, hfree, if_false, and_self, if_true]
    · have hnot : ¬(d = .ok ∧ s₁.armOccupied o = false) := by
        rintro ⟨h1, h2⟩
        rw [harm] at h2
        rcases hfailed with h | h
        · exact h h1
        · rw [h] at h2
          cases h2
      simp only [State.doneCancelling, hkind, hprogress, if_false, if_neg hnot]

end Sys2Proof.Machine
end

section
/-!
PROOF. The vehicle link's transmitter and its outbound queue (O37).
-/

namespace Sys2Proof.Machine

open Sys2Proof

variable {s t u : State} {n v : Nat} {o : Order} {f g : VehicleFrame} {q w fs : List VehicleFrame}

/-! ### Lists of frames -/

/-- The frames moved up from the waiting line: the queue takes them while it has room (R80). -/
theorem refillFrom_spec : ∀ q w : List VehicleFrame, ∃ moved, (refillFrom q w).1 = q ++ moved ∧ w = moved ++ (refillFrom q w).2 ∧
    (moved = [] ∨ (q ++ moved).length ≤ 16) ∧ ((refillFrom q w).2 = [] ∨ 16 ≤ (q ++ moved).length)
  | q, [] => ⟨[], (List.append_nil q).symm, rfl, .inl rfl, .inl rfl⟩
  | q, f :: fs => by
    unfold refillFrom
    split
    case isTrue hroom =>
      obtain ⟨moved, h1, h2, h3, h4⟩ := refillFrom_spec (q ++ [f]) fs
      have hassoc : q ++ [f] ++ moved = q ++ f :: moved := by simp
      rw [hassoc] at h1 h3 h4
      refine ⟨f :: moved, h1, by rw [List.cons_append, ← h2], .inr ?_, h4⟩
      rcases h3 with rfl | h3
      · simp
        omega
      · exact h3
    case isFalse hfull => exact ⟨[], (List.append_nil q).symm, rfl, .inl rfl, .inr (by simpa using hfull)⟩

theorem refillFrom_full (h : 16 ≤ q.length) (w : List VehicleFrame) : refillFrom q w = (q, w) := by
  cases w with
  | nil => rfl
  | cons f fs => exact if_neg (by omega)

theorem State.setFrames_full (h : 16 ≤ q.length) (s : State) (w : List VehicleFrame) :
    s.setFrames q w = { s with vlink := { s.vlink with queue := q, waiting := w } } := by
  unfold State.setFrames
  rw [refillFrom_full h]

theorem insertHalt_eq {hs rest : List VehicleFrame} (hhs : ∀ f ∈ hs, f.isHalt = true) (hrest : ∀ f ∈ rest, f.isHalt = false)
    (h : VehicleFrame) : insertHalt h (hs ++ rest) = hs ++ h :: rest := by
  induction hs with
  | nil =>
    cases rest with
    | nil => rfl
    | cons f fs => exact if_neg (by simp [hrest f List.mem_cons_self])
  | cons f fs ih =>
    refine (if_pos (hhs f List.mem_cons_self)).trans ?_
    exact congrArg (f :: ·) (ih fun g hg => hhs g (List.mem_cons_of_mem _ hg))

theorem not_halt_of_kept {kept : List VehicleFrame} (hkept : kept = q.filter fun f => !f.isHalt) (hf : f ∈ kept) : f.isHalt = false := by
  rw [hkept] at hf
  have h : (!f.isHalt) = true := (List.mem_filter.1 hf).2
  rw [Bool.not_eq_true'] at h
  exact h

theorem takeLast_eq_none {p : VehicleFrame → Bool} : ∀ {l : List VehicleFrame}, (∀ f ∈ l, p f = false) → takeLast p l = none
  | [], _ => rfl
  | f :: fs, h => by
    unfold takeLast
    rw [takeLast_eq_none fun g hg => h g (List.mem_cons_of_mem _ hg)]
    simp [h f List.mem_cons_self]

theorem takeLast_eq_some {p : VehicleFrame → Bool} (hg : p g = true) {post : List VehicleFrame} (hpost : ∀ f ∈ post, p f = false) :
    ∀ pre : List VehicleFrame, takeLast p (pre ++ g :: post) = some (g, pre ++ post)
  | [] => by
    change takeLast p (g :: post) = _
    unfold takeLast
    rw [takeLast_eq_none hpost]
    simp [hg]
  | f :: fs => by
    change takeLast p (f :: (fs ++ g :: post)) = _
    unfold takeLast
    rw [takeLast_eq_some hg hpost fs]
    rfl

theorem takeSendable_head {estop : Bool} (h : estop = false ∨ f.isGo = false) : takeSendable estop (f :: fs) = some (f, fs) := by
  unfold takeSendable
  refine if_neg ?_
  rw [Bool.and_eq_true]
  rintro ⟨h1, h2⟩
  rcases h with h | h
  · rw [h] at h1
    cases h1
  · rw [h] at h2
    cases h2

/-- Under the emergency stop no GO is taken (R79). -/
theorem takeSendable_estop {l rest : List VehicleFrame} (h : takeSendable true l = some (f, rest)) : f.isGo = false := by
  induction l generalizing rest with
  | nil => cases h
  | cons g fs ih =>
    unfold takeSendable at h
    cases hg : g.isGo with
    | false =>
      rw [hg] at h
      cases h
      exact hg
    | true =>
      rw [hg] at h
      cases htail : takeSendable true fs with
      | none =>
        rw [htail] at h
        cases h
      | some d =>
        rw [htail] at h
        cases h
        exact ih htail

/-! ### The transmitter (R79, R80) -/

theorem State.startVehicleFrame_of_sendable (h : takeSendable s.estop.level s.vlink.queue = some (f, fs)) :
    s.startVehicleFrame = ({ s with vlink := { s.vlink with tx := some ⟨f, f.bytes⟩ } } : State).setFrames fs s.vlink.waiting := by
  simp only [State.startVehicleFrame, h]

theorem State.startVehicleFrame_isGo {x : VehicleTx} (hstop : s.estop.level = true) (h : s.startVehicleFrame.vlink.tx = some x) :
    x.frame.isGo = false := by
  unfold State.startVehicleFrame at h
  rw [hstop] at h
  split at h
  case h_1 f rest htake =>
    cases h
    exact takeSendable_estop htake
  case h_2 => cases h

theorem exec_vehicleFrameSent (s : State) : exec .vehicleFrameSent s = .next s.endVehicleFrame.startVehicleFrame := rfl

/-- The transmitter free. -/
def State.txFree (s : State) : State := { s with vlink := { s.vlink with tx := none } }

theorem State.endVehicleFrame_some {x : VehicleTx} (h : s.vlink.tx = some x) : s.endVehicleFrame = s.txFree.frameSent x.frame := by
  simp only [State.endVehicleFrame, h]
  rfl

theorem Order.awaitsGo_iff : o.awaitsGo = true ↔ (o.state = .offered ∨ o.state = .cancelling) ∧ o.goSent = false := by
  simp [Order.awaitsGo]

theorem State.goSent_eq {i m : Nat} {zs : List Nat} (ho : s.order n = some o) (hidle : (s.veh v).state = .idle) (hbound : (s.veh v).order = some n)
    (hawaits : o.awaitsGo = true) (hqueued : s.goQueued v = false) : s.goSent v n i m zs =
      (s.setOrder n { o with goSent := true }).setVeh v { s.veh v with
        state := .offered, leg := some ⟨n, i, m, zs, o.legPassed⟩, offerMs := some 0 } := by
  simp only [State.goSent, ho]
  exact if_pos ⟨hidle, hbound, hawaits, hqueued⟩

theorem State.goSent_of_not {i m : Nat} {zs : List Nat} (h : ∀ o, s.order n = some o → (s.veh v).state = .idle → (s.veh v).order = some n →
    o.awaitsGo = true → s.goQueued v = true) : s.goSent v n i m zs = s := by
  unfold State.goSent
  dsimp only
  split
  · rfl
  case h_2 o ho =>
    refine if_neg ?_
    rintro ⟨h1, h2, h3, h4⟩
    rw [h o ho h1 h2 h3] at h4
    cases h4

/-! ### HALT into the queue (R80) -/

theorem State.putHalt_room (h : q.length < 16) (s : State) (f : VehicleFrame) :
    s.putHalt f q = s.setFrames (insertHalt f q) s.vlink.waiting := if_pos h

section
variable {hs rest : List VehicleFrame} (hhs : ∀ f ∈ hs, f.isHalt = true) (hrest : ∀ f ∈ rest, f.isHalt = false)
  (hfull : (hs ++ rest).length = 16)
include hhs hrest hfull

/-- A HALT into a full queue displaces the youngest GO. -/
theorem State.putHalt_displaces {pre post : List VehicleFrame} (hsplit : rest = pre ++ g :: post) (hgo : g.isGo = true)
    (hpost : ∀ f ∈ post, f.isGo = false) (s : State) (h : VehicleFrame) : s.putHalt h (hs ++ rest) =
      ({ s with vlink := { s.vlink with queue := hs ++ h :: (pre ++ post) } } : State).displaced g.goTag := by
  have htake : takeLast VehicleFrame.isGo (hs ++ rest) = some (g, hs ++ (pre ++ post)) := by
    rw [hsplit, ← List.append_assoc, takeLast_eq_some hgo hpost, List.append_assoc]
  have hkept : ∀ f ∈ pre ++ post, f.isHalt = false := by
    intro f hf
    refine hrest f ?_
    rw [hsplit]
    simp only [List.mem_append, List.mem_cons] at hf ⊢
    tauto
  have hlength : 16 ≤ (hs ++ h :: (pre ++ post)).length := by
    rw [hsplit] at hfull
    simp only [List.length_append, List.length_cons] at hfull ⊢
    omega
  unfold State.putHalt
  rw [if_neg (by omega), htake]
  dsimp only
  rw [insertHalt_eq hhs hkept, State.setFrames_full hlength]

/-- Without a GO the youngest frame that is no HALT goes back to the waiting line. -/
theorem State.putHalt_returns {pre : List VehicleFrame} (hsplit : rest = pre ++ [g]) (hnoGo : ∀ f ∈ rest, f.isGo = false) (s : State)
    (h : VehicleFrame) : s.putHalt h (hs ++ rest) =
      { s with vlink := { s.vlink with queue := hs ++ h :: pre, waiting := g :: s.vlink.waiting } } := by
  have hhalts : ∀ f ∈ hs, f.isGo = false := by
    intro f hf
    have := hhs f hf
    cases f <;> simp_all [VehicleFrame.isHalt, VehicleFrame.isGo]
  have hgo : takeLast VehicleFrame.isGo (hs ++ rest) = none := by
    refine takeLast_eq_none fun f hf => ?_
    exact (List.mem_append.1 hf).elim (hhalts f) (hnoGo f)
  have hg : (!g.isHalt) = true := by
    rw [hrest g (by rw [hsplit]; simp)]
    rfl
  have htake : takeLast (fun f => !f.isHalt) (hs ++ rest) = some (g, hs ++ pre) := by
    have := takeLast_eq_some (p := fun f => !f.isHalt) hg (post := []) (fun _ h => by cases h) (hs ++ pre)
    rw [hsplit, ← List.append_assoc, this, List.append_nil]
  have hkept : ∀ f ∈ pre, f.isHalt = false := fun f hf => hrest f (by rw [hsplit]; exact List.mem_append_left _ hf)
  have hlength : 16 ≤ (hs ++ h :: pre).length := by
    rw [hsplit] at hfull
    simp only [List.length_append, List.length_cons, List.length_nil] at hfull ⊢
    omega
  unfold State.putHalt
  rw [if_neg (by omega), hgo]
  dsimp only
  rw [htake]
  dsimp only
  rw [insertHalt_eq hhs hkept, State.setFrames_full hlength]

end

theorem State.queueHalt_of_queued (h : .halt v ∈ s.vlink.queue ∨ .halt 0 ∈ s.vlink.queue) : s.queueHalt v = s := by
  refine if_pos (List.any_eq_true.2 ?_)
  rcases h with h | h
  · exact ⟨_, h, by simp⟩
  · exact ⟨_, h, by simp⟩

theorem State.queueHalt_of_not (h1 : .halt v ∉ s.vlink.queue) (h2 : .halt 0 ∉ s.vlink.queue) :
    s.queueHalt v = s.putHalt (.halt v) s.vlink.queue := by
  refine if_neg fun h => ?_
  obtain ⟨f, hf, heq⟩ := List.any_eq_true.1 h
  simp only [Bool.or_eq_true, decide_eq_true_eq] at heq
  rcases heq with rfl | rfl
  · exact h1 hf
  · exact h2 hf

theorem State.enqueue_of_none (h : ∀ g ∈ s.vlink.queue ++ s.vlink.waiting, g.slot ≠ f.slot) :
    s.enqueue f = s.setFrames s.vlink.queue (s.vlink.waiting ++ [f]) :=
  if_neg fun hany => by
    obtain ⟨g, hg, heq⟩ := List.any_eq_true.1 hany
    exact h g hg (of_decide_eq_true heq)

theorem State.enqueue_of_some (h : ∃ g ∈ s.vlink.queue ++ s.vlink.waiting, g.slot = f.slot) : s.enqueue f = s :=
  if_pos (List.any_eq_true.2 (h.imp fun _ ⟨hg, heq⟩ => ⟨hg, decide_eq_true heq⟩))

/-! ### The GO displaced (R43) -/

theorem State.displaced_eq (ho : s.order n = some o) (hv : o.vehicle = some v) : s.displaced n =
    if o.state = .cancelling then
      if o.loaded then (s.keepZone v (s.standingZone v)).convert n else (s.keepZone v (s.standingZone v)).removeOrder n
    else if o.loaded then (s.keepZone v (s.standingZone v)).requestLeg n
    else ((s.keepZone v (s.standingZone v)).setOrder n o.backToWaiting).unbind v := by
  simp only [State.displaced, ho, hv]

/-- Settles O37: the lists of frames, the frame that ends, and the HALTs, each by its own rule above. -/
theorem vehicleTransmitter : Obligations.VehicleTransmitter := by
  unfold Obligations.VehicleTransmitter
  refine ⟨fun s v n i m a zs bs o htx hidle hbound ho hstate hsent hqueued => ?_, fun s x htx hdone => ?_, fun s f fs htx hqueue hwaiting hfree => ?_,
    fun s f w fs ws htx hqueue hwaiting hlength hfree => ?_, fun s htx hqueue => ?_, fun s u x hstop hexec htx => ?_, fun s q w => ?_,
    fun s f => ⟨fun hnone => ⟨fun hwaiting hroom => ?_, fun hfull => ?_⟩, State.enqueue_of_some⟩, fun s v => State.queueHalt_of_queued,
    fun s v hs rest hnot hnot0 hqueue hhs hrest => ⟨fun hroom => ?_, fun hfull => ⟨fun w n i m a zs pre post hsplit hpost => ?_, fun pre g hsplit hnoGo => ?_⟩⟩,
    fun s kept hkept => ⟨fun hroom => ?_, fun hfull => ⟨fun w n i m a zs pre post hsplit hpost => ?_, fun pre g hsplit hnoGo => ?_⟩⟩,
    fun s u n v o ho hv hu => ?_⟩
  · have hsent' : s.txFree.frameSent (.go v n i m a zs) = (s.txFree.setOrder n { o with goSent := true }).setVeh v { s.veh v with
        state := .offered, leg := some ⟨n, i, m, zs, o.legPassed⟩, offerMs := some 0 } :=
      State.goSent_eq (s := s.txFree) ho hidle hbound (Order.awaitsGo_iff.2 ⟨hstate, hsent⟩) hqueued
    refine ⟨_, exec_vehicleFrameSent s, ?_⟩
    rw [State.endVehicleFrame_some htx, hsent', State.startVehicleFrame_eq]
    exact ⟨Table.find_insert_same _ _ _, State.veh_setVeh_same _ _ _, fun k hk => State.veh_setVeh_other _ hk _,
      fun k hk => Table.find_insert_other _ hk _, rfl, rfl, rfl⟩
  · have hend : s.endVehicleFrame = s.txFree := by
      rw [State.endVehicleFrame_some htx]
      cases hframe : x.frame with
      | go v n i m a zs =>
        exact State.goSent_of_not (s := s.txFree) fun o ho hidle hbound hawaits =>
          hdone v n i m a zs o hframe ho hidle hbound (Order.awaitsGo_iff.1 hawaits).1 (Order.awaitsGo_iff.1 hawaits).2
      | resume | abandon | halt => rfl
    rw [exec_vehicleFrameSent, hend]
    exact (exec_vehicleFrameSent_of_free (s := s.txFree) rfl).symm
  · rw [exec_vehicleFrameSent_of_free htx, State.startVehicleFrame_of_sendable (hqueue ▸ takeSendable_head hfree), hwaiting]
    simp [State.setFrames, refillFrom, hwaiting]
  · rw [exec_vehicleFrameSent_of_free htx, State.startVehicleFrame_of_sendable (hqueue ▸ takeSendable_head hfree), hwaiting]
    have hrefill : refillFrom fs (w :: ws) = (fs ++ [w], ws) := by
      refine (if_pos (by omega)).trans (refillFrom_full ?_ ws)
      simp [hlength]
    simp [State.setFrames, hrefill]
  · rw [exec_vehicleFrameSent_of_free htx]
    have htake : takeSendable s.estop.level s.vlink.queue = none := by
      rw [hqueue]
      rfl
    have hstart : s.startVehicleFrame = { s with vlink := { s.vlink with tx := none } } := by
      simp only [State.startVehicleFrame, htake]
    rw [hstart, ← htx]
  · rw [exec_vehicleFrameSent] at hexec
    cases hexec
    refine State.startVehicleFrame_isGo ?_ htx
    have hestop : s.endVehicleFrame.estop = s.estop := by
      unfold State.endVehicleFrame State.frameSent State.goSent
      dsimp only
      split
      · split
        · split
          · rfl
          · split
            · rfl
            · rfl
        · rfl
      · rfl
    rw [hestop]
    exact hstop
  · exact refillFrom_spec q w
  · rw [State.enqueue_of_none hnone, hwaiting]
    have hrefill : refillFrom s.vlink.queue ([] ++ [f]) = (s.vlink.queue ++ [f], []) := if_pos hroom
    simp only [State.setFrames, hrefill]
    rw [← hwaiting]
  · rw [State.enqueue_of_none hnone, State.setFrames_full hfull]
  · rw [State.queueHalt_of_not hnot hnot0, State.putHalt_room hroom, hqueue, insertHalt_eq hhs hrest]
  · rw [State.queueHalt_of_not hnot hnot0, hqueue]
    exact State.putHalt_displaces hhs hrest (hqueue ▸ hfull) hsplit rfl hpost s _
  · rw [State.queueHalt_of_not hnot hnot0, hqueue]
    exact State.putHalt_returns hhs hrest (hqueue ▸ hfull) hsplit hnoGo s _
  · have hrest : ∀ f ∈ kept, f.isHalt = false := fun f hf => not_halt_of_kept hkept hf
    rw [State.queueHaltAll, ← hkept, State.putHalt_room hroom]
    exact congrArg (fun l => s.setFrames l s.vlink.waiting) (insertHalt_eq (hs := []) (fun _ h => by cases h) hrest _)
  · have hrest : ∀ f ∈ kept, f.isHalt = false := fun f hf => not_halt_of_kept hkept hf
    rw [State.queueHaltAll, ← hkept]
    exact State.putHalt_displaces (hs := []) (fun _ h => by cases h) hrest hfull hsplit rfl hpost s _
  · have hrest : ∀ f ∈ kept, f.isHalt = false := fun f hf => not_halt_of_kept hkept hf
    rw [State.queueHaltAll, ← hkept]
    exact State.putHalt_returns (hs := []) (fun _ h => by cases h) hrest hfull hsplit hnoGo s _
  · have hdisplaced := State.displaced_eq ho hv
    rw [← hu] at hdisplaced
    refine ⟨fun hstate hloaded => ?_, fun hstate hloaded => ?_, fun hstate hloaded => ?_, fun hstate hloaded => ?_⟩
    · rw [hdisplaced, if_neg hstate, hloaded]
      rfl
    · rw [hdisplaced, if_neg hstate, hloaded]
      rfl
    · rw [hdisplaced, if_pos hstate, hloaded]
      rfl
    · rw [hdisplaced, if_pos hstate, hloaded]
      rfl

end Sys2Proof.Machine
end

section
/-!
PROOF. What the rest of an event leaves of a slot given up: no order, no zone and no reel comes back (R51, R84).
-/

namespace Sys2Proof.Machine

open Sys2Proof

variable {s t u : State} {n v r b k : Nat} {o : Order} {e : DemandEntry}

/-! ### A slot out of play -/

/-- The slot holds a vehicle, an order names it, or it holds a zone. -/
def State.InPlay (s : State) (v : Nat) : Prop :=
  s.veh v ≠ Vehicle.absentSlot ∨ (∃ n o, s.order n = some o ∧ o.vehicle = some v) ∨ ∃ z, (z, v) ∈ s.locks.entries

/-- From `s` to `u` no slot comes into play and no reel is recorded. -/
def State.Adds (s u : State) : Prop := (∀ v, u.InPlay v → s.InPlay v) ∧ ∀ r, s.reel r = none → u.reel r = none

theorem State.Adds.refl (s : State) : s.Adds s := ⟨fun _ h => h, fun _ h => h⟩

theorem State.Adds.trans (h : s.Adds t) (g : t.Adds u) : s.Adds u := ⟨fun v hv => h.1 v (g.1 v hv), fun r hr => g.2 r (h.2 r hr)⟩

theorem State.Adds.foldl {α : Type} {f : State → α → State} (hf : ∀ (s : State) (a : α), s.Adds (f s a)) : ∀ (as : List α) (s : State),
    s.Adds (as.foldl f s)
  | [], s => .refl s
  | a :: as, s => (hf s a).trans (State.Adds.foldl hf as (f s a))

/-- And where nothing waits to become an order, no order is made. -/
structure State.Spent (s u : State) : Prop where
  adds : s.Adds u
  noOrder : s.orders.backlog = [] → s.demands = [] → u.orders.backlog = [] ∧ u.demands = [] ∧ ∀ n, s.order n = none → u.order n = none

theorem State.Spent.refl (s : State) : s.Spent s := ⟨.refl s, fun hb hd => ⟨hb, hd, fun _ h => h⟩⟩

theorem State.Spent.trans (h : s.Spent t) (g : t.Spent u) : s.Spent u :=
  ⟨h.adds.trans g.adds, fun hb hd => by
    obtain ⟨hb', hd', hn⟩ := h.noOrder hb hd
    obtain ⟨hb'', hd'', hn'⟩ := g.noOrder hb' hd'
    exact ⟨hb'', hd'', fun n h => hn' n (hn n h)⟩⟩

theorem State.Spent.foldl {α : Type} {f : State → α → State} (hf : ∀ (s : State) (a : α), s.Spent (f s a)) : ∀ (as : List α) (s : State),
    s.Spent (as.foldl f s)
  | [], s => .refl s
  | a :: as, s => (hf s a).trans (State.Spent.foldl hf as (f s a))

/-- A change that makes no order, names no vehicle and gives no zone but to one in play. -/
theorem State.Spent.of_kept (hveh : ∀ v, s.veh v = Vehicle.absentSlot → u.veh v = Vehicle.absentSlot)
    (horder : ∀ n o', u.order n = some o' → ∃ o, s.order n = some o ∧ ∀ v, o'.vehicle = some v → s.InPlay v)
    (hlocks : ∀ z v, (z, v) ∈ u.locks.entries → s.InPlay v) (hreel : ∀ r, s.reel r = none → u.reel r = none)
    (hbacklog : u.orders.backlog = s.orders.backlog) (hdemands : u.demands = s.demands) : s.Spent u where
  adds := by
    refine ⟨fun v hv => ?_, hreel⟩
    rcases hv with hv | ⟨n, o', ho', hv⟩ | ⟨z, hz⟩
    · exact .inl fun h => hv (hveh v h)
    · obtain ⟨o, -, hplay⟩ := horder n o' ho'
      exact hplay v hv
    · exact hlocks z v hz
  noOrder hb hd := by
    refine ⟨hbacklog.trans hb, hdemands.trans hd, fun n hn => ?_⟩
    cases ho' : u.order n with
    | none => rfl
    | some o' =>
      obtain ⟨o, ho, -⟩ := horder n o' ho'
      rw [hn] at ho
      cases ho

theorem State.inPlay_of_order (ho : s.order n = some o) (hv : o.vehicle = some v) : s.InPlay v := .inr (.inl ⟨n, o, ho, hv⟩)

theorem State.inPlay_of_zone {z : Nat} (h : (z, v) ∈ s.locks.entries) : s.InPlay v := .inr (.inr ⟨z, h⟩)

/-- A change of anything but the vehicles, the Order List, the locks, the reels and the Demand Queue. -/
theorem State.Spent.of_eq (hvehicles : u.vehicles = s.vehicles) (horders : u.orders = s.orders) (hlocks : u.locks = s.locks)
    (hreel : ∀ r, s.reel r = none → u.reel r = none) (hdemands : u.demands = s.demands) : s.Spent u := by
  refine .of_kept (fun v hv => (State.veh_of_vehicles hvehicles v).trans hv) (fun n o ho => ?_) (fun z v hz => ?_) hreel (by rw [horders]) hdemands
  · unfold State.order at ho
    rw [horders] at ho
    exact ⟨o, ho, fun v hv => State.inPlay_of_order ho hv⟩
  · rw [hlocks] at hz
    exact State.inPlay_of_zone hz

theorem State.raise_spent (s : State) (c : Subjects) : s.Spent (s.raise c) := by
  rw [State.raise_eq]
  exact .of_eq rfl rfl rfl (fun _ h => h) rfl

theorem State.setFrames_spent (s : State) (q w : List VehicleFrame) : s.Spent (s.setFrames q w) := .of_eq rfl rfl rfl (fun _ h => h) rfl

theorem State.enqueue_spent (s : State) (f : VehicleFrame) : s.Spent (s.enqueue f) := by
  unfold State.enqueue
  split
  · exact .refl s
  · exact s.setFrames_spent _ _

theorem State.withdraw_spent (s : State) (f : VehicleFrame → Bool) : s.Spent (s.withdraw f) := s.setFrames_spent _ _

theorem State.setOrder_spent (ho : s.order n = some o) {x : Order} (hv : x.vehicle = o.vehicle ∨ x.vehicle = none) : s.Spent (s.setOrder n x) := by
  refine .of_kept (fun _ h => h) (fun k y hy => ?_) (fun z v hz => State.inPlay_of_zone hz) (fun _ h => h) rfl rfl
  by_cases hk : k = n
  · subst hk
    obtain rfl : x = y := Option.some.inj ((Table.find_insert_same _ _ _).symm.trans hy)
    refine ⟨o, ho, fun v hxv => State.inPlay_of_order ho ?_⟩
    rcases hv with hv | hv <;> rw [hv] at hxv
    · exact hxv
    · cases hxv
  · have hy' : s.order k = some y := (Table.find_insert_other _ hk _).symm.trans hy
    exact ⟨y, hy', fun v hv => State.inPlay_of_order hy' hv⟩

theorem State.delOrder_spent (s : State) (n : Nat) : s.Spent (s.delOrder n) := by
  refine .of_kept (fun _ h => h) (fun k y hy => ?_) (fun z v hz => State.inPlay_of_zone hz) (fun _ h => h) rfl rfl
  have hy' := (Table.find_erase _ _ _).symm.trans hy
  split at hy'
  · cases hy'
  · exact ⟨y, hy', fun v hv => State.inPlay_of_order hy' hv⟩

theorem State.keepZone_spent (s : State) (v : Nat) (z : Option Nat) : s.Spent (s.keepZone v z) := by
  refine .of_kept (fun _ h => h) (fun k y hy => ⟨y, hy, fun v hv => State.inPlay_of_order hy hv⟩) (fun z v hz => ?_) (fun _ h => h) rfl rfl
  exact State.inPlay_of_zone (List.mem_filter.1 hz).1

theorem State.dropGrant_spent (s : State) (v : Nat) : s.Spent (s.dropGrant v) := by
  unfold State.dropGrant
  split
  · exact .refl s
  · exact s.keepZone_spent v _

theorem State.Stays.absentSlot (h : s.Stays u v) (hv : s.veh v = Vehicle.absentSlot) : u.veh v = Vehicle.absentSlot := by
  obtain ⟨order, horder, hu⟩ := h
  rw [hv] at horder hu
  rcases hu with hu | ⟨hstopped, -⟩
  · rw [hu]
    rcases horder with rfl | rfl <;> rfl
  · cases hstopped

/-- A change of the vehicles by which each only settles. -/
theorem State.Spent.of_stays (hstays : ∀ v, s.Stays u v) (hu : u = { s with vehicles := u.vehicles }) : s.Spent u := by
  refine .of_kept (fun v hv => (hstays v).absentSlot hv) (fun n y hy => ?_) (fun z v hz => ?_) (fun r hr => ?_) (by rw [hu]) (by rw [hu])
  · rw [hu] at hy
    exact ⟨y, hy, fun v hv => State.inPlay_of_order hy hv⟩
  · rw [hu] at hz
    exact State.inPlay_of_zone hz
  · rw [hu]
    exact hr

theorem State.standDown_spent (s : State) (v : Nat) (o : Order) : s.Spent (s.standDown v o) :=
  .of_stays (s.standDown_stays v o) (s.standDown_eq v o)

theorem State.unbind_spent (s : State) (v : Nat) : s.Spent (s.unbind v) := .of_stays (s.unbind_stays v) rfl

/-! ### Leg requests -/

theorem Table.mem_of_insertIn {α : Type} {j : Nat} {x : α} {d : Nat × α} : ∀ {es : List (Nat × α)}, d ∈ Table.insertIn j x es →
    d = (j, x) ∨ d ∈ es
  | [], h => .inl (List.mem_singleton.1 h)
  | e :: es, h => by
    unfold Table.insertIn at h
    split at h
    · exact List.mem_cons.1 h
    split at h
    · exact (List.mem_cons.1 h).imp id (List.mem_cons_of_mem _)
    · rcases List.mem_cons.1 h with h | h
      · exact .inr (h ▸ List.mem_cons_self)
      · exact (Table.mem_of_insertIn h).imp id (List.mem_cons_of_mem _)

theorem State.mem_giveZones {z : Nat} {zs : List Nat} (h : (z, v) ∈ (s.giveZones k zs).locks.entries) : v = k ∨ (z, v) ∈ s.locks.entries := by
  have key : ∀ (zs : List Nat) (l : Table Nat), (z, v) ∈ (zs.foldl (fun l y => l.insert y k) l).entries → v = k ∨ (z, v) ∈ l.entries := by
    intro zs
    induction zs with
    | nil => exact fun l h => .inr h
    | cons y ys ih =>
      intro l h
      refine (ih _ h).elim .inl fun h => ?_
      refine (Table.mem_of_insertIn h).imp (fun h => ?_) id
      cases h
      rfl
  exact key zs s.locks h

theorem State.offerLeg_spent (ho : s.order n = some o) (hv : o.vehicle = some v) {x : Order} (hx : x.vehicle = o.vehicle) (target : Nat)
    (zs : List Nat) : s.Spent (s.offerLeg n x v target zs) := by
  unfold State.offerLeg
  have hgive : s.Spent (s.giveZones v (s.askedZones zs target)) := by
    refine .of_kept (fun _ h => h) (fun k y hy => ⟨y, hy, fun v hv => State.inPlay_of_order hy hv⟩) (fun z w hz => ?_) (fun _ h => h) rfl rfl
    rcases State.mem_giveZones hz with rfl | hz
    · exact State.inPlay_of_order ho hv
    · exact State.inPlay_of_zone hz
  have horder : (s.giveZones v (s.askedZones zs target)).order n = some o := ho
  refine State.Spent.trans (hgive.trans (State.setOrder_spent horder (.inl ?_))) (State.enqueue_spent _ _)
  exact hx

theorem State.routeLeg_spent (ho : s.order n = some o) (hv : o.vehicle = some v) {x : Order} (hx : x.vehicle = o.vehicle) :
    s.Spent (s.routeLeg n x v) := by
  have hask (target : Nat) (zs : List Nat) : s.Spent (s.askZones n x v target zs) := by
    unfold State.askZones
    split
    · exact State.offerLeg_spent ho hv hx target zs
    · exact State.setOrder_spent ho (.inl hx)
  unfold State.routeLeg
  split
  · exact .refl s
  split
  · exact hask _ _
  split
  · exact hask _ _
  · refine State.Spent.trans (State.setOrder_spent ho (.inl ?_)) (State.raise_spent _ _)
    exact hx

theorem State.requestLeg_spent (s : State) (n : Nat) : s.Spent (s.requestLeg n) := by
  unfold State.requestLeg
  split
  · exact .refl s
  case h_2 o ho =>
  split
  · exact .refl s
  case h_2 v hv =>
  split
  · split
    · dsimp only
      split
      · exact State.routeLeg_spent ho hv rfl
      · exact State.setOrder_spent ho (.inl rfl)
    · exact State.routeLeg_spent ho hv rfl
  · exact .refl s

/-! ### Orders made from the backlog and the Demand Queue -/

/-- Orders made without a vehicle; those there are keep theirs (R40, R49). -/
structure State.Makes (s u : State) : Prop where
  vehicles : u.vehicles = s.vehicles
  locks : u.locks = s.locks
  order : ∀ k y, u.order k = some y → y.vehicle = none ∨ ∃ o, s.order k = some o ∧ o.vehicle = y.vehicle
  noReel : ∀ r, s.reel r = none → u.reel r = none

theorem State.Makes.of_eq (hvehicles : u.vehicles = s.vehicles) (hlocks : u.locks = s.locks) (htable : u.orders.table = s.orders.table)
    (hreels : u.reels = s.reels) : s.Makes u := by
  refine ⟨hvehicles, hlocks, fun k y hy => .inr ⟨y, ?_, rfl⟩, fun r hr => ?_⟩
  · unfold State.order at hy ⊢
    rw [← htable]
    exact hy
  · unfold State.reel
    rw [hreels]
    exact hr

theorem State.Makes.refl (s : State) : s.Makes s := .of_eq rfl rfl rfl rfl

theorem State.Makes.trans (h : s.Makes t) (g : t.Makes u) : s.Makes u where
  vehicles := g.vehicles.trans h.vehicles
  locks := g.locks.trans h.locks
  order k y hy := by
    rcases g.order k y hy with hn | ⟨o, ho, hsame⟩
    · exact .inl hn
    · rcases h.order k o ho with hn | ⟨x, hx, hsame'⟩
      · exact .inl (hsame ▸ hn)
      · exact .inr ⟨x, hx, hsame'.trans hsame⟩
  noReel r hr := g.noReel r (h.noReel r hr)

theorem State.Makes.adds (h : s.Makes u) : s.Adds u := by
  refine ⟨fun v hv => ?_, h.noReel⟩
  rcases hv with hv | ⟨k, y, hy, hv⟩ | ⟨z, hz⟩
  · rw [State.veh_of_vehicles h.vehicles] at hv
    exact .inl hv
  · rcases h.order k y hy with hn | ⟨o, ho, hsame⟩
    · rw [hn] at hv
      cases hv
    · exact State.inPlay_of_order ho (hsame.trans hv)
  · rw [h.locks] at hz
    exact State.inPlay_of_zone hz

theorem State.createOrder_makes (s : State) {d : NewOrder} (hd : d.vehicle = none) : s.Makes (s.createOrder d) := by
  have hmade := created_createOrder s d
  refine ⟨hmade.vehicles, hmade.locks, fun k y hy => ?_, fun r hr => ?_⟩
  · by_cases hk : k = s.nextTag
    · subst hk
      rw [hmade.order] at hy
      cases hy
      exact .inl hd
    · rw [hmade.others k hk] at hy
      exact .inr ⟨y, hy, rfl⟩
  · rw [State.createOrder_eq]
    refine (taggedReels_find s d r).trans ?_
    rw [hr]
    split <;> rfl

theorem State.raiseDisposals_makes (s : State) (p : Nat) : s.Makes (s.raiseDisposals p) := by
  refine ⟨rfl, rfl, fun k y hy => .inr ?_, fun _ h => h⟩
  have hy' : (s.order k).map _ = some y := (Table.find_mapEntries s.orders.table _ k).symm.trans hy
  obtain ⟨o, ho, rfl⟩ := Option.map_eq_some_iff.1 hy'
  refine ⟨o, ho, ?_⟩
  split <;> rfl

theorem State.makeDeliver_makes (s : State) (p r : Nat) (q : Priority) : s.Makes (s.makeDeliver p r q) := by
  have hmade : s.Makes (s.createOrder (s.deliverOrder p r q)) := s.createOrder_makes rfl
  have hordered := hmade.trans (.of_eq (u := ((s.createOrder (s.deliverOrder p r q)).leaveQueue p).setCallOff p .ordered false) rfl rfl rfl rfl)
  unfold State.makeDeliver
  dsimp only
  split
  · exact hordered.trans (State.raiseDisposals_makes _ p)
  · exact hordered

theorem State.makeItem_makes (s : State) (i : BacklogItem) : s.Makes (s.makeItem i) := by
  cases i with
  | delivery p r q => exact s.makeDeliver_makes p r q
  | disposal p a d q =>
    change s.Makes (s.makeDisposal p a d q)
    have hpos (u : State) (f : Position → Position) : u.Makes (u.onPos p f) := .of_eq rfl rfl rfl rfl
    unfold State.makeDisposal
    split
    · exact .refl s
    split
    · exact .refl s
    · split
      · exact (s.createOrder_makes rfl).trans (.of_eq rfl rfl rfl rfl)
      · exact hpos _ _
    · split
      · exact (s.createOrder_makes rfl).trans (.of_eq rfl rfl rfl rfl)
      · exact hpos _ _

theorem fillUpTo_makes : ∀ (m : Nat) (s : State), s.Makes (fillUpTo m s)
  | 0, s => .refl s
  | m + 1, s => by
    unfold fillUpTo
    split
    · exact .refl s
    case h_2 i is _ =>
      split
      · exact .refl s
      · have hset : s.Makes (s.setBacklog is) := .of_eq rfl rfl rfl rfl
        exact (hset.trans (State.makeItem_makes _ i)).trans (fillUpTo_makes m _)

theorem State.fillBacklog_spent (s : State) : s.Spent s.fillBacklog := by
  have hnone (h : s.orders.backlog = []) : s.fillBacklog = s := State.fillBacklog_of_none (.inl h)
  exact ⟨(fillUpTo_makes _ s).adds, fun hb hd => by rw [hnone hb]; exact ⟨hb, hd, fun _ h => h⟩⟩

/-! ### Removal, conversion and HALT -/

theorem State.freeVehicleOf_spent (s : State) (n : Nat) (o : Order) : s.Spent (s.freeVehicleOf n o) := by
  unfold State.freeVehicleOf
  split
  · split
    · exact ((s.unbind_spent _).trans (State.dropGrant_spent _ _)).trans (State.standDown_spent _ _ o)
    · exact .refl s
  · exact .refl s

theorem State.orderGone_spent (s : State) (n : Nat) (o : Order) : s.Spent (s.orderGone n o) := by
  have hreel (r : Nat) (hr : s.reel r = none) : (s.orderGone n o).reel r = none := by
    rw [State.orderGone_reel, hr]
    split <;> rfl
  refine (s.delOrder_spent n).trans (.of_eq ?_ ?_ ?_ hreel ?_) <;> rw [State.orderGone_eq] <;> rfl

theorem State.removeOrder_spent (s : State) (n : Nat) : s.Spent (s.removeOrder n) := by
  unfold State.removeOrder
  split
  · rw [State.dropOrder_eq]
    exact ((s.orderGone_spent n _).trans (State.freeVehicleOf_spent _ n _)).trans (State.fillBacklog_spent _)
  · exact .refl s

theorem State.recallLeg_spent (s : State) (n : Nat) (o : Order) : s.Spent (s.recallLeg n o) := by
  unfold State.recallLeg
  dsimp only
  split
  · exact ((s.withdraw_spent _).trans (State.dropGrant_spent _ _)).trans (State.standDown_spent _ _ o)
  · exact s.withdraw_spent _

theorem State.rebooked_noReel (n : Nat) (o : Order) (b : Nat) (hr : s.reel r = none) : (s.rebooked n o b).reel r = none := by
  unfold State.rebooked
  rw [State.callOffEnds_eq]
  have hsame : (((s.whenSome o.destination.bay? State.unpromise).promise b).setOrder n (o.convertedTo b)).reel r = none := by
    rw [State.promise_eq, State.unpromised_eq]
    exact hr
  cases hreel : o.reel with
  | none => exact hsame
  | some k =>
    refine (State.reel_onReel _ k r _).trans ?_
    split
    case isTrue h =>
      rw [h] at hsame
      rw [hsame]
      rfl
    case isFalse => exact hsame

theorem State.rebooked_spent (ho : s.order n = some o) (b : Nat) : s.Spent (s.rebooked n o b) := by
  refine (State.setOrder_spent ho (x := o.convertedTo b) (.inl rfl)).trans
    (.of_eq ?_ ?_ ?_ (fun r hr => State.rebooked_noReel n o b hr) ?_) <;> rw [State.rebooked_eq] <;> rfl

theorem State.convert_spent (s : State) (n : Nat) : s.Spent (s.convert n) := by
  cases ho : s.order n with
  | none =>
    have hsame : s.convert n = s := by simp only [State.convert, ho]
    rw [hsame]
    exact .refl s
  | some o =>
    cases hb : s.conversionBay o with
    | some b =>
      rw [State.convert_some ho hb]
      exact ((State.rebooked_spent ho b).trans (State.recallLeg_spent _ n o)).trans (State.requestLeg_spent _ n)
    | none =>
      rw [State.convert_none ho hb, State.noSpace_eq]
      exact ((State.setOrder_spent ho (x := o.withoutSpace) (.inl rfl)).trans (State.recallLeg_spent _ n o)).trans (State.raise_spent _ _)

theorem Order.backToWaiting_vehicle (o : Order) : o.backToWaiting.vehicle = o.vehicle ∨ o.backToWaiting.vehicle = none := by
  unfold Order.backToWaiting
  dsimp only
  split
  · exact .inl rfl
  · exact .inr rfl

theorem State.displaced_spent (s : State) (n : Nat) : s.Spent (s.displaced n) := by
  unfold State.displaced
  split
  · exact .refl s
  case h_2 o ho =>
  split
  · exact .refl s
  · dsimp only
    split
    · split
      · exact (s.keepZone_spent _ _).trans (State.convert_spent _ n)
      · exact (s.keepZone_spent _ _).trans (State.removeOrder_spent _ n)
    · split
      · exact (s.keepZone_spent _ _).trans (State.requestLeg_spent _ n)
      · refine ((s.keepZone_spent _ _).trans (State.setOrder_spent ?_ o.backToWaiting_vehicle)).trans (State.unbind_spent _ _)
        exact ho

theorem State.putHalt_spent (s : State) (h : VehicleFrame) (q : List VehicleFrame) : s.Spent (s.putHalt h q) := by
  unfold State.putHalt
  split
  · exact s.setFrames_spent _ _
  split
  · exact (s.setFrames_spent _ _).trans (State.displaced_spent _ _)
  split
  · exact s.setFrames_spent _ _
  · exact s.setFrames_spent _ _

theorem State.queueHalt_spent (s : State) (v : Nat) : s.Spent (s.queueHalt v) := by
  unfold State.queueHalt
  split
  · exact .refl s
  · exact s.putHalt_spent _ _

/-! ### The close of an event -/

theorem State.grantOne_spent (s : State) (n : Nat) : s.Spent (s.grantOne n) := by
  unfold State.grantOne
  split
  case h_2 => exact .refl s
  case h_1 o ho =>
    split
    case h_2 => exact .refl s
    case h_1 v target _ hv _ =>
      split
      · exact State.offerLeg_spent ho hv rfl target _
      · exact .refl s

theorem State.bind_spent (ho : s.order n = some o) (hidle : (s.veh v).state = .idle) : s.Spent (s.bind n o v) := by
  have hplay : s.InPlay v := .inl fun h => by rw [h] at hidle; cases hidle
  refine State.Spent.trans (t := (s.setOrder n { o with vehicle := some v }).onVeh v fun x => { x with order := some n })
    (.of_kept (fun k hk => ?_) (fun k y hy => ?_) (fun z v hz => State.inPlay_of_zone hz) (fun _ h => h) rfl rfl) (State.requestLeg_spent _ n)
  · have hne : k ≠ v := by
      rintro rfl
      rw [hk] at hidle
      cases hidle
    rw [State.onVeh_veh_other _ hne]
    exact hk
  · by_cases hk : k = n
    · subst hk
      obtain rfl := Option.some.inj ((Table.find_insert_same _ _ _).symm.trans hy)
      refine ⟨o, ho, fun w hw => ?_⟩
      obtain rfl := Option.some.inj hw
      exact hplay
    · have hy' : s.order k = some y := (Table.find_insert_other _ hk _).symm.trans hy
      exact ⟨y, hy', fun w hw => State.inPlay_of_order hy' hw⟩

theorem State.assignOne_spent (s : State) (n : Nat) : s.Spent (s.assignOne n) := by
  unfold State.assignOne
  split
  · exact .refl s
  case h_2 o ho =>
  split
  · exact .refl s
  split
  · exact .refl s
  split
  · split
    case isTrue h => exact State.bind_spent ho h.1
    case isFalse => exact .refl s
  · exact .refl s
  · split
    case h_1 v d hnear =>
      obtain ⟨⟨-, hfree, -⟩, -⟩ := State.nearest_some_iff.1 hnear
      exact State.bind_spent ho (State.idle_of_freeVehicle hfree)
    case h_2 => exact .refl s

theorem State.serveDemand_makes (s : State) (e : DemandEntry) : s.Makes (s.serveDemand e) := by
  unfold State.serveDemand
  split
  · exact .refl s
  case h_2 r _ =>
    have hserved : s.Makes ((s.reserve r e.position).leaveQueue e.position) := by
      have heq := s.servedFrom_eq r e.position
      unfold State.servedFrom at heq
      refine ⟨?_, ?_, fun k y hy => .inr ⟨y, ?_, rfl⟩, fun q hq => ?_⟩
      · rw [heq]
      · rw [heq]
      · rw [heq] at hy
        exact hy
      · refine (State.reserve_reel s r e.position q).trans ?_
        split
        case isTrue h => rw [← h, hq]; rfl
        case isFalse => exact hq
    dsimp only
    split
    · unfold State.deliverOrBacklog
      split
      · refine hserved.trans (.of_eq ?_ ?_ ?_ ?_) <;> rw [State.joinBacklog_eq] <;> rfl
      · exact hserved.trans (State.makeDeliver_makes _ _ r _)
    · exact hserved.trans (.of_eq rfl rfl rfl rfl)

theorem State.arbiterPass_spent (s : State) : s.Spent s.arbiterPass := by
  refine ⟨State.Adds.foldl (fun s e => (s.serveDemand_makes e).adds) _ s, fun hb hd => ?_⟩
  rw [State.arbiterPass, hd]
  exact ⟨hb, hd, fun _ h => h⟩

theorem State.close_spent (s pre : State) (force : Bool) : s.Spent (s.close pre force) := by
  have h := (State.Spent.foldl State.grantOne_spent (s.passOrder fun o => o.state = .heldZones) s).trans (State.arbiterPass_spent _)
  unfold State.close
  dsimp only
  split
  · exact h.trans (State.Spent.foldl State.assignOne_spent _ _)
  · exact h

end Sys2Proof.Machine
end

section
/-!
PROOF. The hall clock (O14): the holds judged against the zone wait limit, and the rest watch through the close of an event.
-/

namespace Sys2Proof.Machine

open Sys2Proof

variable {s t u : State} {n v p r b k tag : Nat} {o : Order} {x : Reel}

/-! ### The rest watch (R13) -/

/-- The rest-untils the watch is taken over, as the reels stand in the table. -/
def State.watched (s : State) : List Nat :=
  (s.reels.entries.filter fun e => decide (e.2.state = .stored ∧ s.clock.seconds < e.2.restUntil)).map fun e => e.2.restUntil

theorem foldl_earlier (l : List Nat) : l.foldl earlier none = l.min? := by
  have hsome : ∀ (l : List Nat) (a : Nat), l.foldl earlier (some a) = some (l.foldl min a) := by
    intro l
    induction l with
    | nil => exact fun a => rfl
    | cons c cs ih => exact fun a => ih (min a c)
  cases l with
  | nil => rfl
  | cons a as => exact hsome as a

theorem State.watchValue_eq (s : State) : s.watchValue = s.watched.min? := by
  rw [← foldl_earlier, State.watched, List.foldl_map, List.foldl_filter]
  simp only [State.watchValue, decide_eq_true_eq]

theorem List.min?_congr {l m : List Nat} (h : ∀ a, a ∈ l ↔ a ∈ m) : l.min? = m.min? := by
  cases hm : m.min? with
  | none =>
    rw [List.min?_eq_none_iff] at hm ⊢
    subst hm
    exact List.eq_nil_iff_forall_not_mem.2 fun a ha => List.not_mem_nil ((h a).1 ha)
  | some a =>
    rw [List.min?_eq_some_iff] at hm ⊢
    exact ⟨(h a).2 hm.1, fun c hc => hm.2 c ((h c).1 hc)⟩

theorem Table.mem_insertIn_of_mem {α : Type} {j : Nat} {y z : α} {d : Nat × α} : ∀ {es : List (Nat × α)}, Table.findIn j es = some z → d ∈ es →
    d ∈ Table.insertIn j y es ∨ d = (j, z)
  | e :: es, hfind, hd => by
    unfold Table.findIn at hfind
    unfold Table.insertIn
    split
    · exact .inl (List.mem_cons_of_mem _ hd)
    split
    case isTrue hj =>
      rw [if_pos hj.symm] at hfind
      rcases List.mem_cons.1 hd with rfl | hd
      · exact .inr (Prod.ext hj.symm (Option.some.inj hfind))
      · exact .inl (List.mem_cons_of_mem _ hd)
    case isFalse hj =>
      rw [if_neg (Ne.symm hj)] at hfind
      rcases List.mem_cons.1 hd with rfl | hd
      · exact .inl List.mem_cons_self
      · exact (Table.mem_insertIn_of_mem hfind hd).imp (List.mem_cons_of_mem _) id

/-- A record changed in neither its state nor its rest-until leaves the watch where it stands. -/
theorem State.watchValue_insert (hx : s.reel r = some x) {y : Reel} (hstate : y.state = x.state) (hrest : y.restUntil = x.restUntil) :
    ({ s with reels := s.reels.insert r y } : State).watchValue = s.watchValue := by
  rw [State.watchValue_eq, State.watchValue_eq]
  refine List.min?_congr fun m => ?_
  simp only [State.watched, List.mem_map, List.mem_filter, decide_eq_true_eq]
  constructor
  · rintro ⟨e, ⟨he, hstored, hlater⟩, rfl⟩
    rcases Table.mem_of_insertIn he with rfl | he
    · exact ⟨(r, x), ⟨Table.mem_of_find hx, hstate ▸ hstored, hrest ▸ hlater⟩, hrest.symm⟩
    · exact ⟨e, ⟨he, hstored, hlater⟩, rfl⟩
  · rintro ⟨e, ⟨he, hstored, hlater⟩, rfl⟩
    rcases Table.mem_insertIn_of_mem (y := y) hx he with he | rfl
    · exact ⟨e, ⟨he, hstored, hlater⟩, rfl⟩
    · exact ⟨(r, y), ⟨Table.mem_of_find (Table.find_insert_same _ _ _), hstate ▸ hstored, hrest ▸ hlater⟩, hrest⟩

/-- A rest watch that stands where R13 has it still does so. -/
def State.Watches (s u : State) : Prop := s.rest.watch = s.watchValue → u.rest.watch = u.watchValue

theorem State.Watches.foldl {α : Type} {f : State → α → State} (hf : ∀ (s : State) (a : α), s.Watches (f s a)) : ∀ (as : List α) (s : State),
    s.Watches (as.foldl f s)
  | [], _ => id
  | a :: as, s => fun h => State.Watches.foldl hf as (f s a) (hf s a h)

theorem State.Watches.of_eq (hreels : u.reels = s.reels) (hrest : u.rest = s.rest) (hclock : u.clock = s.clock) : s.Watches u := fun h => by
  rw [hrest, State.watchValue_congr hreels hclock, h]

theorem State.Legged.watches (h : s.Legged u n) : s.Watches u := by
  refine .of_eq ?_ ?_ ?_ <;> rw [h.rest]

theorem State.grantOne_watches (s : State) (n : Nat) : s.Watches (s.grantOne n) := by
  unfold State.grantOne
  split
  case h_2 => exact id
  case h_1 o ho =>
    split
    case h_2 => exact id
    case h_1 v target _ _ _ =>
      split
      case isFalse => exact id
      case isTrue hopen => exact (State.Legged.offerLeg ho o.sameTask_refl rfl (fun _ => rfl) hopen).watches

theorem State.bind_watches (s : State) (n : Nat) (o : Order) (v : Nat) : s.Watches (s.bind n o v) := fun h =>
  (State.requestLeg_legged ((s.setOrder n { o with vehicle := some v }).onVeh v fun x => { x with order := some n }) n).watches h

theorem State.assignOne_watches (s : State) (n : Nat) : s.Watches (s.assignOne n) := by
  unfold State.assignOne
  split
  · exact id
  split
  · exact id
  split
  · exact id
  split
  · split
    · exact s.bind_watches _ _ _
    · exact id
  · exact id
  · split
    · exact s.bind_watches _ _ _
    · exact id

theorem State.reserve_watch (s : State) (r p : Nat) : (s.reserve r p).rest.watch = (s.reserve r p).watchValue := rfl

theorem watches_of_watched (h : s.rest.watch = s.watchValue) (hwatch : u.rest.watch = s.rest.watch) (hreels : u.reels = s.reels)
    (hclock : u.clock = s.clock) : u.rest.watch = u.watchValue := by
  rw [hwatch, h, State.watchValue_congr hreels hclock]

theorem State.serveDemand_watches (s : State) (e : DemandEntry) : s.Watches (s.serveDemand e) := by
  intro h
  cases hselect : s.select e.grade e.width with
  | none => rwa [State.serveDemand_of_none hselect]
  | some r =>
    have hclock : (s.reserve r e.position).clock = s.clock := by
      unfold State.reserve State.rewatch
      rw [State.onReel_eq]
    cases hreacts : s.reacts 7 with
    | false =>
      rw [State.serveDemand_raised hselect hreacts]
      exact watches_of_watched (s.reserve_watch r e.position) rfl rfl hclock.symm
    | true =>
    cases hfull : s.ordersFull with
    | true =>
      rw [State.serveDemand_backlog hselect hreacts hfull]
      exact watches_of_watched (s.reserve_watch r e.position) rfl rfl hclock.symm
    | false =>
      rw [State.serveDemand_ordered hselect hreacts hfull]
      obtain ⟨x, hx, -⟩ := State.select_stored hselect
      have htaken : (s.servedFrom r e.position).reel r = some { x with state := .reserved, reservation := some e.position } := by
        refine (State.reserve_reel s r e.position r).trans ?_
        rw [if_pos rfl, hx]
        rfl
      have htagged : taggedReels (s.servedFrom r e.position) (s.deliverOrder e.position r .normal) =
          (s.servedFrom r e.position).reels.insert r { x with
            state := .reserved, reservation := some e.position, tag := some (s.servedFrom r e.position).nextTag } := by
        refine congrArg State.reels (?_ : State.onReel (s.servedFrom r e.position) r _ = State.setReel (s.servedFrom r e.position) r _)
        simp only [State.onReel, htaken]
      have hvalue := State.watchValue_insert htaken (y := { x with
        state := .reserved, reservation := some e.position, tag := some (s.servedFrom r e.position).nextTag }) rfl rfl
      refine (s.reserve_watch r e.position).trans (hvalue.symm.trans ?_)
      rw [htagged]
      refine State.watchValue_congr rfl ?_
      rw [State.servedFrom_eq]

theorem State.close_watches (s pre : State) (force : Bool) : s.Watches (s.close pre force) := by
  intro h
  have hgrant := State.Watches.foldl State.grantOne_watches (s.passOrder fun o => o.state = .heldZones) s h
  have harbiter := State.Watches.foldl State.serveDemand_watches s.grantPass.demands _ hgrant
  unfold State.close
  dsimp only
  split
  · exact State.Watches.foldl State.assignOne_watches _ _ harbiter
  · exact harbiter

/-! ### The holds judged (R78, R179) -/

/-- An order as the zone wait limit leaves it: its hold reported once it is past (R78). -/
def State.judged (s : State) (o : Order) : Order :=
  if o.state = .heldZones ∧ s.vconfig.zoneWait < s.secondsHeld o then { o with holdReported := true } else o

theorem State.judged_judged (s : State) (o : Order) : s.judged (s.judged o) = s.judged o := by
  by_cases h : o.state = .heldZones ∧ s.vconfig.zoneWait < s.secondsHeld o
  · have hj : s.judged o = { o with holdReported := true } := if_pos h
    rw [hj]
    exact if_pos h
  · have hj : s.judged o = o := if_neg h
    rw [hj, hj]

theorem State.judged_congr (hclock : t.clock = s.clock) (hconfig : t.vconfig = s.vconfig) (o : Order) : t.judged o = s.judged o := by
  have hheld : t.secondsHeld o = s.secondsHeld o := by unfold State.secondsHeld; rw [hclock]
  unfold State.judged
  rw [hconfig, hheld]

/-- An order whose hold is past the limit and not yet reported (R78). -/
def State.HoldDue (s : State) (o : Order) : Prop := o.state = .heldZones ∧ o.holdReported = false ∧ s.vconfig.zoneWait < s.secondsHeld o

theorem State.judgeHold_due (ho : s.order n = some o) (h : s.HoldDue o) : s.judgeHold n =
    (s.setOrder n { o with holdReported := true }).raise
      (.orderHeld n (o.vehicle.getD 0) (s.secondsHeld o) (s.zoneInWay o).1 (s.zoneInWay o).2) := by
  simp only [State.judgeHold, ho]
  exact if_pos h

theorem State.judgeHold_still (h : ∀ o, s.order n = some o → ¬ s.HoldDue o) : s.judgeHold n = s := by
  unfold State.judgeHold
  split
  · rfl
  case h_2 o ho => exact if_neg (h o ho)

theorem State.judgeHold_eq (s : State) (n : Nat) :
    s.judgeHold n = { s with orders := (s.judgeHold n).orders, notices := (s.judgeHold n).notices } := by
  by_cases h : ∃ o, s.order n = some o ∧ s.HoldDue o
  · obtain ⟨o, ho, hdue⟩ := h
    rw [State.judgeHold_due ho hdue, State.raise_eq]
    rfl
  · rw [State.judgeHold_still fun o ho hdue => h ⟨o, ho, hdue⟩]

theorem State.judgeHold_order (s : State) (n k : Nat) : (s.judgeHold n).order k = if k = n then (s.order k).map s.judged else s.order k := by
  by_cases h : ∃ o, s.order n = some o ∧ s.HoldDue o
  · obtain ⟨o, ho, hdue⟩ := h
    rw [State.judgeHold_due ho hdue, State.raise_eq]
    refine (Table.find_insert _ n k _).trans ?_
    split
    case isTrue hk =>
      rw [hk, ho]
      exact congrArg some (if_pos ⟨hdue.1, hdue.2.2⟩).symm
    case isFalse => rfl
  · have hsame := State.judgeHold_still (s := s) (n := n) fun o ho hdue => h ⟨o, ho, hdue⟩
    rw [hsame]
    split
    case isTrue hk =>
      subst hk
      cases ho : s.order k with
      | none => rfl
      | some o =>
        refine congrArg some ?_
        unfold State.judged
        split
        case isFalse => rfl
        case isTrue hpast =>
          cases hreported : o.holdReported with
          | false => exact absurd ⟨o, ho, hpast.1, hreported, hpast.2⟩ h
          | true => rw [← hreported]
    case isFalse => rfl

theorem ordersNotices_trans (ht : t = { s with orders := t.orders, notices := t.notices })
    (hu : u = { t with orders := u.orders, notices := u.notices }) : u = { s with orders := u.orders, notices := u.notices } := by
  refine hu.trans ?_
  rw [ht]

theorem judgeEach_spec : ∀ (ns : List Nat) (s : State),
    forEach ns (fun n s => s.judgeHold n) s = { s with
      orders := (forEach ns (fun n s => s.judgeHold n) s).orders, notices := (forEach ns (fun n s => s.judgeHold n) s).notices } ∧
    ∀ k, (forEach ns (fun n s => s.judgeHold n) s).order k = if k ∈ ns then (s.order k).map s.judged else s.order k
  | [], s => ⟨rfl, fun _ => rfl⟩
  | n :: ns, s => by
    obtain ⟨heq, horder⟩ := judgeEach_spec ns (s.judgeHold n)
    have hone := s.judgeHold_eq n
    have hjudged : (s.judgeHold n).judged = s.judged := by
      funext o
      refine State.judged_congr ?_ ?_ o <;> rw [hone]
    refine ⟨?_, fun k => ?_⟩
    · exact ordersNotices_trans hone heq
    · refine (horder k).trans ?_
      rw [s.judgeHold_order n k, hjudged]
      by_cases hn : k = n
      · subst hn
        rw [if_pos rfl, if_pos List.mem_cons_self, Option.map_map]
        have hcomp : s.judged ∘ s.judged = s.judged := funext s.judged_judged
        rw [hcomp, ite_self]
      · rw [if_neg hn]
        exact if_congr (by simp [hn]) rfl rfl

theorem State.judgeHolds_eq (s : State) : s.judgeHolds = { s with orders := s.judgeHolds.orders, notices := s.judgeHolds.notices } :=
  (judgeEach_spec s.orders.table.keys s).1

theorem State.judgeHolds_order (s : State) (k : Nat) : s.judgeHolds.order k = (s.order k).map s.judged := by
  refine ((judgeEach_spec s.orders.table.keys s).2 k).trans ?_
  split
  case isTrue => rfl
  case isFalse hk =>
    cases ho : s.order k with
    | none => rfl
    | some o => exact absurd (List.mem_map.2 ⟨(k, o), Table.mem_of_find ho, rfl⟩) hk

theorem State.judgeHolds_still (h : ∀ k o, s.order k = some o → ¬ s.HoldDue o) : s.judgeHolds = s := by
  have key : ∀ ns : List Nat, forEach ns (fun n s => s.judgeHold n) s = s := by
    intro ns
    induction ns with
    | nil => rfl
    | cons n ns ih => exact (congrArg (forEach ns fun n s => s.judgeHold n) (State.judgeHold_still (h n))).trans ih
  exact key _

theorem State.judgeHolds_watches (s : State) : s.Watches s.judgeHolds := by
  refine .of_eq ?_ ?_ ?_ <;> rw [State.judgeHolds_eq]

/-! ### A hold once reported -/

/-- An order reported as held stays so while it waits for its zones or drives its leg. -/
def State.Reports (s u : State) : Prop := ∀ n o, s.order n = some o → o.holdReported = true → o.state ≠ .waiting →
  ∃ o', u.order n = some o' ∧ o'.holdReported = true ∧ o'.state ≠ .waiting

theorem State.Reports.of_order (h : ∀ n o, s.order n = some o → o.state ≠ .waiting → u.order n = some o) : s.Reports u :=
  fun n o ho hreported hstate => ⟨o, h n o ho hstate, hreported, hstate⟩

theorem State.Reports.foldl {α : Type} {f : State → α → State} (hf : ∀ (s : State) (a : α), s.Reports (f s a)) : ∀ (as : List α) (s : State),
    s.Reports (as.foldl f s)
  | [], _ => .of_order fun _ _ h _ => h
  | a :: as, s => fun n o ho hreported hstate => by
    obtain ⟨y, hy, hreported', hstate'⟩ := hf s a n o ho hreported hstate
    exact State.Reports.foldl hf as (f s a) n y hy hreported' hstate'

theorem State.grantOne_reports (s : State) (k : Nat) : s.Reports (s.grantOne k) := by
  unfold State.grantOne
  split
  case h_2 => exact .of_order fun _ _ h _ => h
  case h_1 y hy =>
    split
    case h_2 => exact .of_order fun _ _ h _ => h
    case h_1 v target _ _ _ =>
      split
      case isFalse => exact .of_order fun _ _ h _ => h
      case isTrue hopen =>
        intro n o ho hreported hstate
        rw [State.offerLeg_eq, State.enqueue_eq]
        by_cases hn : n = k
        · subst hn
          obtain rfl := Option.some.inj (hy.symm.trans ho)
          exact ⟨_, Table.find_insert_same _ _ _, hreported, by simp [State.offered]⟩
        · exact ⟨o, (Table.find_insert_other _ hn _).trans ho, hreported, hstate⟩

theorem State.serveDemand_order_kept (e : DemandEntry) (ho : s.order n = some o) : (s.serveDemand e).order n = some o := by
  cases hselect : s.select e.grade e.width with
  | none => rwa [State.serveDemand_of_none hselect]
  | some r =>
    cases hreacts : s.reacts 7 with
    | false =>
      rw [State.serveDemand_raised hselect hreacts]
      exact ho
    | true =>
    cases hfull : s.ordersFull with
    | true =>
      rw [State.serveDemand_backlog hselect hreacts hfull]
      change (s.joinBacklog _).orders.table.find n = _
      rw [State.joinBacklog_eq]
      exact ho
    | false =>
      rw [State.serveDemand_ordered hselect hreacts hfull]
      have hn : n ≠ s.nextTag := by
        rintro rfl
        rw [State.order_nextTag hfull] at ho
        cases ho
      exact ((created_createOrder s _).others n hn).trans ho

theorem State.bind_order_other (v : Nat) (hn : k ≠ n) : (s.bind n o v).order k = s.order k :=
  ((State.requestLeg_legged ((s.setOrder n { o with vehicle := some v }).onVeh v fun x => { x with order := some n }) n).others k hn).trans
    (Table.find_insert_other _ hn _)

theorem State.assignOne_reports (s : State) (k : Nat) : s.Reports (s.assignOne k) := by
  refine .of_order fun n o ho hstate => ?_
  unfold State.assignOne
  split
  · exact ho
  case h_2 y hy =>
  split
  · exact ho
  case isFalse hwaiting =>
  have hn : n ≠ k := by
    rintro rfl
    obtain rfl := Option.some.inj (hy.symm.trans ho)
    exact hwaiting hstate
  have hbound (v : Nat) : (s.bind k y v).order n = some o := (State.bind_order_other v hn).trans ho
  split
  · exact ho
  split
  · split
    · exact hbound _
    · exact ho
  · exact ho
  · split
    · exact hbound _
    · exact ho

theorem State.close_reports (s pre : State) (force : Bool) : s.Reports (s.close pre force) := by
  intro n o ho hreported hstate
  obtain ⟨y, hy, hreported', hstate'⟩ := State.Reports.foldl State.grantOne_reports (s.passOrder fun o => o.state = .heldZones) s n o ho hreported hstate
  have harbiter := State.Reports.foldl (fun s e => State.Reports.of_order fun _ _ h _ => State.serveDemand_order_kept (s := s) e h)
    s.grantPass.demands _ n y hy hreported' hstate'
  unfold State.close
  dsimp only
  split
  · obtain ⟨z, hz, hreported'', hstate''⟩ := harbiter
    exact State.Reports.foldl State.assignOne_reports _ _ n z hz hreported'' hstate''
  · exact harbiter

theorem State.judged_past {h : Nat} (hstate : o.state = .heldZones) (hsince : o.heldSince = some h)
    (hpast : s.vconfig.zoneWait < s.clock.seconds - h) : s.judged o = { o with holdReported := true } := by
  refine if_pos ⟨hstate, ?_⟩
  rw [State.secondsHeld, hsince]
  exact hpast

/-- A hold past the limit is reported at the end of the event that judges it. -/
theorem State.judgeHolds_close_reported {h : Nat} (ho : s.order n = some o) (hstate : o.state = .heldZones) (hsince : o.heldSince = some h)
    (hpast : s.vconfig.zoneWait < s.clock.seconds - h) (pre : State) (force : Bool) :
    ∃ o', (s.judgeHolds.close pre force).order n = some o' ∧ o'.holdReported = true := by
  have hjudged : s.judgeHolds.order n = some { o with holdReported := true } := by
    rw [State.judgeHolds_order, ho, Option.map_some, State.judged_past hstate hsince hpast]
  obtain ⟨o', ho', hreported, -⟩ := State.close_reports _ pre force n _ hjudged rfl (by simp [hstate])
  exact ⟨o', ho', hreported⟩

/-! ### The tick and the two limits -/

theorem exec_hallClockTick (s : State) : exec .hallClockTick s = .next s.tick.transmit := rfl

theorem exec_restWatchReached (s : State) : exec .restWatchReached s = .next s.reachWatch.transmit := rfl

theorem exec_zoneWaitLimit (s : State) (n : Nat) : exec (.zoneWaitLimit n) s = .next (s.exceedHold n).transmit := rfl

/-- The part with its clock one second on. -/
def State.secondOn (s : State) : State := { s with clock := ⟨s.clock.seconds + 1, 0⟩ }

theorem State.tick_eq (h : s.clock.seconds < counterMax) : s.tick = s.secondOn.watchTick.judgeHolds.close s false := if_pos h

theorem State.watchTick_eq (s : State) : s.watchTick = { s with rest := s.watchTick.rest } := by
  unfold State.watchTick
  split <;> rfl

theorem State.holdExceeds_iff : s.holdExceeds o = true ↔ s.HoldDue o := by
  simp [State.holdExceeds, State.HoldDue, and_assoc]

/-- Settles O14: the hold of every order is judged against the new time, and the watch recomputed stands to the end of the event. -/
theorem hallClock : Obligations.HallClock := by
  unfold Obligations.HallClock
  refine ⟨fun s tag v hroom => ?_, fun s => ⟨s.judgeHolds_eq, fun hnone => ?_, fun n hn => ?_, fun n o ho => ⟨fun hstate hpast => ?_, fun hnot => ?_,
    fun h hsince => ?_⟩⟩, fun s hclock => ?_, fun s hclock => ?_, fun s w hwatch => ⟨fun hreached => ?_, fun hnext => ?_⟩, fun s hwatch => ?_,
    fun s n v h o ho hstate hreported hv hsince hpast => ?_⟩
  · have hmoves : Moves ({ s with clock := ⟨v, 0⟩ } : State) (({ s with clock := ⟨v, 0⟩ } : State).rewatch.judgeHolds.close s false) :=
      (Moves.rewatch .refl).judgeHolds.close s false
    have hclock : (({ s with clock := ⟨v, 0⟩ } : State).rewatch.judgeHolds.close s false).clock = ⟨v, 0⟩ := congrArg Apart.clock hmoves.apart
    refine ⟨_, answered_of_grant rfl rfl hroom (by cases s.link.phase <;> rfl) ?_, hclock, rfl, hmoves.apart, ?_, ?_⟩
    · change State.reqSetclock s v = _
      unfold State.reqSetclock
      dsimp only
      rw [hclock]
    · exact State.close_watches _ s false (State.judgeHolds_watches _ rfl)
    · rw [(State.close_passed _ s false).bays, State.judgeHolds_eq]
      rfl
  · exact State.judgeHolds_still fun k o ho hdue => absurd hdue.2.2 (not_lt.2 (hnone k o ho hdue.1 hdue.2.1))
  · rw [State.judgeHolds_order, hn]
    rfl
  · rw [State.judgeHolds_order, ho, Option.map_some]
    exact congrArg some (if_pos ⟨hstate, hpast⟩)
  · rw [State.judgeHolds_order, ho, Option.map_some]
    refine congrArg some (if_neg ?_)
    rintro ⟨hstate, hpast⟩
    exact hnot.elim (absurd hstate) (not_le.2 hpast)
  · rw [State.secondsHeld, hsince]
  · have hmoves : Moves s.secondOn (s.secondOn.watchTick.judgeHolds.close s false) := by
      refine Moves.close (Moves.judgeHolds ?_) s false
      unfold State.watchTick
      split
      · exact Moves.rewatch .refl
      · exact .refl
    have hwatched : s.secondOn.watchTick = { s.secondOn with rest := s.secondOn.watchTick.rest } := s.secondOn.watchTick_eq
    refine ⟨_, exec_hallClockTick s, ?_⟩
    rw [State.tick_eq hclock]
    refine ⟨congrArg Apart.clock hmoves.apart, hmoves.apart, ?_, fun hdue => ?_, fun n o h ho hstate hsince hpast => ?_⟩
    · rw [(State.close_passed _ s false).bays, State.judgeHolds_eq, hwatched]
      rfl
    · refine State.close_watches _ s false (State.judgeHolds_watches _ ?_)
      have hmoved : s.secondOn.watchTick = s.secondOn.rewatch := if_pos hdue
      rw [hmoved]
      rfl
    · refine State.judgeHolds_close_reported ?_ hstate hsince ?_ s false <;> rw [hwatched]
      · exact ho
      · exact hpast
  · rw [exec_hallClockTick, State.tick, if_neg (by omega)]
  · rw [exec_restWatchReached]
    simp only [State.reachWatch, hwatch, if_pos hreached]
  · rw [exec_restWatchReached, exec_hallClockTick]
    simp only [State.reachWatch, hwatch]
    rw [if_neg (by omega), if_pos hnext]
  · rw [exec_restWatchReached]
    simp only [State.reachWatch, hwatch]
  · have hheld : s.secondsHeld o = s.clock.seconds - h := by rw [State.secondsHeld, hsince]
    have hdue : s.HoldDue o := ⟨hstate, hreported, by rw [hheld]; exact hpast⟩
    have hexceeds : s.exceedHold n = s.judgeHold n := by
      simp only [State.exceedHold, ho]
      exact if_pos (State.holdExceeds_iff.2 hdue)
    rw [exec_zoneWaitLimit, hexceeds, State.judgeHold_due ho hdue, hheld, hv]
    rfl

end Sys2Proof.Machine
end

section
/-!
PROOF. RETIRE and VEHCFG (O31).
-/

namespace Sys2Proof.Machine

open Sys2Proof

variable {s t u w : State} {n v p r b k m tag : Nat} {o : Order} {c : VehicleConfig}

/-! ### The order of a retired vehicle (R51, R84) -/

/-- A loaded order of a retired vehicle gone from the list, with its reel's record and its promise. -/
def State.retireDropped (s : State) (n : Nat) (o : Order) : State :=
  (((s.withdrawOrderGo n).delOrder n).whenSome o.reel State.delReel).whenSome o.destination.bay? State.unpromise

/-- A loaded order of a retired vehicle ended, before the freed entry goes to the backlog. -/
def State.retireGone (s : State) (n : Nat) (o : Order) : State := ((s.retireDropped n o).callOffEnds o).whenSome o.vehicle State.unbind

theorem State.retireOrder_none (ho : s.order n = none) : s.retireOrder n = s := by simp only [State.retireOrder, ho]

theorem State.retireOrder_loaded (ho : s.order n = some o) (hloaded : o.loaded = true) : s.retireOrder n = (s.retireGone n o).fillBacklog := by
  simp only [State.retireOrder, ho, hloaded, if_true]
  rfl

theorem State.retireOrder_unloaded (ho : s.order n = some o) (hloaded : o.loaded = false) : s.retireOrder n = s.removeOrder n := by
  simp [State.retireOrder, ho, hloaded]

theorem State.unbound_eq (s : State) (c : Option Nat) : s.whenSome c State.unbind = { s with vehicles := (s.whenSome c State.unbind).vehicles } := by
  cases c <;> rfl

theorem State.reelGone_eq (s : State) (c : Option Nat) : s.whenSome c State.delReel = { s with reels := (s.whenSome c State.delReel).reels } := by
  cases c <;> rfl

theorem State.reelGone_reel (s : State) (c : Option Nat) (k : Nat) :
    (s.whenSome c State.delReel).reel k = if c = some k then none else s.reel k := by
  cases c with
  | none => rfl
  | some r =>
    refine (Table.find_erase _ r k).trans ?_
    by_cases h : k = r
    · subst h
      simp
    · rw [if_neg h, if_neg fun h' => h (Option.some.inj h').symm]
      rfl

theorem State.retireDropped_eq (s : State) (n : Nat) (o : Order) : s.retireDropped n o = { s with
    orders := { s.orders with table := s.orders.table.erase n }
    vlink := (s.withdrawOrderGo n).vlink
    reels := (s.retireDropped n o).reels
    bays := (s.retireDropped n o).bays } := by
  unfold State.retireDropped
  rw [State.unpromised_eq, State.reelGone_eq]
  rfl

theorem State.retireGone_eq (s : State) (n : Nat) (o : Order) : s.retireGone n o = { s.retireDropped n o with
    positions := ((s.retireDropped n o).callOffEnds o).positions
    vehicles := (s.retireGone n o).vehicles } := by
  unfold State.retireGone
  generalize s.retireDropped n o = u
  refine (State.unbound_eq _ o.vehicle).trans ?_
  rw [State.callOffEnds_eq]

theorem State.retireGone_order (s : State) (n : Nat) (o : Order) (k : Nat) :
    (s.retireGone n o).order k = if k = n then none else s.order k := by
  rw [State.retireGone_eq, State.retireDropped_eq]
  exact Table.find_erase _ n k

theorem State.retireGone_reel (s : State) (n : Nat) (o : Order) (k : Nat) :
    (s.retireGone n o).reel k = if o.reel = some k then none else s.reel k := by
  rw [State.retireGone_eq]
  change (s.retireDropped n o).reel k = _
  unfold State.retireDropped
  rw [State.unpromised_eq]
  exact State.reelGone_reel _ o.reel k

theorem State.retireGone_bay (s : State) (n : Nat) (o : Order) (k : Nat) : (s.retireGone n o).bay k =
    if o.destination.bay? = some k then (s.bay k).map fun y => { y with inbound := y.inbound - 1 } else s.bay k := by
  rw [State.retireGone_eq]
  change (s.retireDropped n o).bay k = _
  refine (State.unpromised_bay _ o.destination k).trans ?_
  rw [State.reelGone_eq]
  rfl

/-- However it ends, the order has left the list and its entry goes to the backlog. -/
theorem State.retireOrder_some (ho : s.order n = some o) : ∃ x : State, s.retireOrder n = x.fillBacklog ∧
    (∀ k, x.order k = if k = n then none else s.order k) ∧ x.orders.backlog = s.orders.backlog ∧ x.demands = s.demands := by
  cases hloaded : o.loaded with
  | true =>
    refine ⟨_, State.retireOrder_loaded ho hloaded, s.retireGone_order n o, ?_, ?_⟩ <;> rw [State.retireGone_eq, State.retireDropped_eq]
  | false =>
    obtain ⟨horders, -⟩ := s.dropOrder_fields n o
    refine ⟨s.dropOrder n o, ?_, s.order_dropOrder n o, by rw [horders], ?_⟩
    · rw [State.retireOrder_unloaded ho hloaded]
      simp only [State.removeOrder, ho]
    · rw [State.dropOrder_eq, State.freeVehicleOf_eq, State.orderGone_eq]

/-- The part with the order of a retired vehicle ended. -/
def State.retiredFrom (s : State) (v : Nat) : State := (s.withdrawFor v).whenSome (s.retiredOrder v) State.retireOrder

theorem State.retiredFrom_some (hn : s.retiredOrder v = some n) : s.retiredFrom v = (s.withdrawFor v).retireOrder n := by
  rw [State.retiredFrom, hn]
  rfl

theorem State.retiredFrom_still (h : s.retiredOrder v = none ∨ ∃ n, s.retiredOrder v = some n ∧ s.order n = none) :
    s.retiredFrom v = s.withdrawFor v := by
  rcases h with h | ⟨n, hn, ho⟩
  · rw [State.retiredFrom, h]
    rfl
  · rw [State.retiredFrom_some hn]
    exact State.retireOrder_none ho

/-- No order names the vehicle any more. -/
theorem State.retiredFrom_names (honly : ∀ n o, s.order n = some o → o.vehicle = some v → s.retiredOrder v = some n) {y : Order}
    (hy : (s.retiredFrom v).order k = some y) : y.vehicle ≠ some v := by
  intro hv
  by_cases h : s.retiredOrder v = none ∨ ∃ n, s.retiredOrder v = some n ∧ s.order n = none
  · rw [State.retiredFrom_still h] at hy
    have hretired := honly k y hy hv
    rcases h with h | ⟨n, hn, ho⟩
    · rw [h] at hretired
      cases hretired
    · obtain rfl := Option.some.inj (hn.symm.trans hretired)
      exact absurd (hy.symm.trans ho) (by simp)
  · obtain ⟨hsome, hfound⟩ := not_or.1 h
    obtain ⟨n, hn⟩ := Option.ne_none_iff_exists'.1 hsome
    obtain ⟨o, ho⟩ := Option.ne_none_iff_exists'.1 fun hnone => hfound ⟨n, hn, hnone⟩
    obtain ⟨x, hx, horder, -, -⟩ := State.retireOrder_some (s := s.withdrawFor v) ho
    rw [State.retiredFrom_some hn, hx] at hy
    rcases (fillUpTo_makes _ x).order k y hy with hnone | ⟨z, hz, hsame⟩
    · rw [hnone] at hv
      cases hv
    · rw [horder] at hz
      split at hz
      · cases hz
      case isFalse hk => exact hk (Option.some.inj ((honly k z hz (hsame.trans hv)).symm.trans hn))

theorem State.retiredFrom_order (hn : s.retiredOrder v = some n) (hb : s.orders.backlog = []) (hd : s.demands = []) :
    (s.retiredFrom v).orders.backlog = [] ∧ (s.retiredFrom v).demands = [] ∧ (s.retiredFrom v).order n = none := by
  rw [State.retiredFrom_some hn]
  cases ho : s.order n with
  | none =>
    rw [State.retireOrder_none (s := s.withdrawFor v) ho]
    exact ⟨hb, hd, ho⟩
  | some o =>
    obtain ⟨x, hx, horder, hbacklog, hdemands⟩ := State.retireOrder_some (s := s.withdrawFor v) ho
    rw [hx, State.fillBacklog_of_none (.inl (hbacklog.trans hb))]
    exact ⟨hbacklog.trans hb, hdemands.trans hd, (horder n).trans (if_pos rfl)⟩

/-! ### The slot emptied (R84) -/

/-- The part with the vehicle's slot emptied, before its HALT. -/
def State.slotEmptied (s : State) (v : Nat) : State :=
  (((if (s.veh v).retiredReel = 0 then s.retiredFrom v else ((s.retiredFrom v).delReel (s.veh v).retiredReel).rewatch).raise
    (.vehicleLost v .retired (s.veh v).node (s.veh v).retiredReel)).keepZone v none).setVeh v Vehicle.absentSlot

theorem State.slotEmptied_orders (s : State) (v : Nat) : (s.slotEmptied v).orders = (s.retiredFrom v).orders ∧
    (s.slotEmptied v).demands = (s.retiredFrom v).demands := by
  unfold State.slotEmptied
  rw [State.raise_eq]
  split <;> exact ⟨rfl, rfl⟩

theorem State.slotEmptied_reel (h : (s.veh v).retiredReel ≠ 0) : (s.slotEmptied v).reel (s.veh v).retiredReel = none := by
  unfold State.slotEmptied
  rw [State.raise_eq, if_neg h]
  exact Table.find_erase_same _ _

theorem State.slotEmptied_not_inPlay (honly : ∀ n o, s.order n = some o → o.vehicle = some v → s.retiredOrder v = some n) :
    ¬ (s.slotEmptied v).InPlay v := by
  rintro (hveh | ⟨k, y, hy, hv⟩ | ⟨z, hz⟩)
  · exact hveh (State.veh_setVeh_same _ v _)
  · have horder : (s.slotEmptied v).order k = (s.retiredFrom v).order k := by
      unfold State.order
      rw [s.slotEmptied_orders v |>.1]
    exact State.retiredFrom_names honly (horder ▸ hy) hv
  · have hkept := (List.mem_filter.1 hz).2
    simp at hkept

theorem State.slotEmptied_moves (s : State) (v : Nat) : Moves s (s.slotEmptied v) := by
  have hretired : Moves s (s.retiredFrom v) := by
    unfold State.retiredFrom
    exact Moves.whenSome (Moves.withdrawFor .refl v) _ fun _ n h => h.retireOrder n
  have hdeleted : Moves s (if (s.veh v).retiredReel = 0 then s.retiredFrom v else ((s.retiredFrom v).delReel (s.veh v).retiredReel).rewatch) := by
    split
    · exact hretired
    · exact (hretired.delReel _).rewatch
  unfold State.slotEmptied
  exact Moves.setVeh (Moves.keepZone (Moves.raise hdeleted _) v none) v _

/-! ### The vehicles judged by VEHCFG (R86) -/

theorem forEach_keeps {f : Nat → State → State} {P : State → Prop} (h : ∀ k s, P s → P (f k s)) (ns : List Nat) :
    ∀ s, P s → P (forEach ns f s) := by
  induction ns with
  | nil => exact fun s hp => hp
  | cons n ns ih => exact fun s hp => ih (f n s) (h n s hp)

/-- What holds of a vehicle until its turn comes, and from its turn on. -/
theorem forEach_reaches {f : Nat → State → State} {P Q : State → Prop} (hbefore : ∀ k s, k ≠ v → P s → P (f k s)) (hturn : ∀ s, P s → Q (f v s))
    (hafter : ∀ k s, Q s → Q (f k s)) {ns : List Nat} (hv : v ∈ ns) : ∀ s, P s → Q (forEach ns f s) := by
  induction ns with
  | nil => cases hv
  | cons n ns ih =>
    intro s hp
    by_cases hn : n = v
    · subst hn
      exact forEach_keeps hafter ns (f n s) (hturn s hp)
    · exact ih ((List.mem_cons.1 hv).resolve_left (Ne.symm hn)) (f n s) (hbefore n s hn hp)

theorem forEach_still {f : Nat → State → State} : ∀ {ns : List Nat}, (∀ k ∈ ns, f k s = s) → forEach ns f s = s
  | [], _ => rfl
  | n :: ns, h => by
    refine (congrArg (forEach ns f) (h n List.mem_cons_self)).trans (forEach_still fun k hk => h k (List.mem_cons_of_mem _ hk))

theorem State.silentLost_veh_other (hk : k ≠ v) : (s.silentLost v).veh k = s.veh k := by
  unfold State.silentLost
  rw [State.raise_eq]
  exact State.veh_setVeh_other _ hk _

theorem State.offerFaulted_veh_other (hk : k ≠ v) : (s.offerFaulted v).veh k = s.veh k := by
  unfold State.offerFaulted
  rw [State.raise_eq]
  exact State.veh_setVeh_other _ hk _

theorem State.silenceEvent_deaf (h : (s.veh v).state.listening = false) : s.silenceEvent v = s := by
  rw [State.silenceEvent, h]
  rfl

theorem State.silenceEvent_stays (hk : k ≠ v) (s : State) : s.Stays (s.silenceEvent v) k := by
  cases hlistening : (s.veh v).state.listening with
  | false =>
    rw [State.silenceEvent_deaf hlistening]
    exact .refl s k
  | true =>
    obtain ⟨habsent, hlost⟩ := not_or.1 (VehicleState.listening_iff.1 hlistening)
    rw [State.silenceEvent_listening habsent hlost]
    have hother : s.Stays (s.silentLost v) k := .of_eq (State.silentLost_veh_other hk)
    split
    · exact hother.trans (State.queueHalt_stays _ v k)
    · exact (hother.trans (State.loseLeg_stays _ v k)).trans (State.queueHalt_stays _ v k)

theorem State.offerEvent_stays (hk : k ≠ v) (s : State) : s.Stays (s.offerEvent v) k := by
  by_cases hoffered : (s.veh v).state = .offered
  · rw [State.offerEvent_offered hoffered]
    have hother : s.Stays (s.offerFaulted v) k := .of_eq (State.offerFaulted_veh_other hk)
    exact (hother.trans (State.loseLeg_stays _ v k)).trans (State.queueHalt_stays _ v k)
  · rw [State.offerEvent, if_neg hoffered]
    exact .refl s k

theorem State.silenceEvent_lost (habsent : (s.veh v).state ≠ .absent) : ((s.silenceEvent v).veh v).state = .lost := by
  by_cases hlost : (s.veh v).state = .lost
  · rw [State.silenceEvent_deaf (by rw [hlost]; rfl), hlost]
  · rw [State.silenceEvent_listening habsent hlost]
    have hmiddle : (s.silentLost v).Stays (if (s.veh v).state = .faulted then s.silentLost v else (s.silentLost v).loseLeg v) v := by
      split
      · exact .refl _ v
      · exact State.loseLeg_stays _ v v
    obtain ⟨order, hveh⟩ := (hmiddle.trans (State.queueHalt_stays _ v v)).of_not_stopped (by rw [State.silentLost_veh]; simp)
    rw [hveh, State.silentLost_veh]

theorem State.offerEvent_faulted (hoffered : (s.veh v).state = .offered) :
    ((s.offerEvent v).veh v).state = .faulted ∧ ((s.offerEvent v).veh v).faultCode = some .offer := by
  rw [State.offerEvent_offered hoffered]
  obtain ⟨order, hveh⟩ := (((s.offerFaulted v).loseLeg_stays v v).trans (State.queueHalt_stays _ v v)).of_not_stopped
    (by rw [State.offerFaulted_veh]; simp)
  rw [hveh, State.offerFaulted_veh]
  exact ⟨rfl, rfl⟩

theorem State.judgeSilence_stays (hk : k ≠ v) (s : State) : s.Stays (s.judgeSilence v) k := by
  unfold State.judgeSilence
  split
  · exact s.silenceEvent_stays hk
  · exact .refl s k

theorem State.judgeOffer_stays (hk : k ≠ v) (s : State) : s.Stays (s.judgeOffer v) k := by
  unfold State.judgeOffer
  split
  · split
    · exact s.offerEvent_stays hk
    · exact .refl s k
  · exact .refl s k

theorem Moves.judgeSilence (h : Moves s t) (v : Nat) : Moves s (t.judgeSilence v) := by
  unfold State.judgeSilence
  split
  · exact h.silenceEvent v
  · exact h

theorem Moves.judgeOffer (h : Moves s t) (v : Nat) : Moves s (t.judgeOffer v) := by
  unfold State.judgeOffer
  split
  · split
    · exact h.offerEvent v
    · exact h
  · exact h

/-- The part with every silence and every offer judged against the new limits. -/
def State.limitsJudged (s : State) (c : VehicleConfig) : State :=
  forEach allVehicles (fun v s => s.judgeOffer v) (forEach allVehicles (fun v s => s.judgeSilence v) { s with vconfig := c })

theorem State.configureVehicles_eq (s : State) (c : VehicleConfig) : s.configureVehicles c = (s.limitsJudged c).judgeHolds := rfl

theorem State.limitsJudged_moves (s : State) (c : VehicleConfig) : Moves ({ s with vconfig := c } : State) (s.limitsJudged c) :=
  (Moves.forEach .refl _ fun v _ h => h.judgeSilence v).forEach _ fun v _ h => h.judgeOffer v

theorem State.Stays.not_absent (h : s.Stays u v) (hstate : (s.veh v).state ≠ .absent) : (u.veh v).state ≠ .absent := by
  obtain ⟨order, -, h | ⟨-, h⟩⟩ := h <;> rw [h]
  · exact hstate
  · simp

theorem State.Stays.silence (h : s.Stays u v) : (u.veh v).silenceMs = (s.veh v).silenceMs := by
  obtain ⟨order, -, h | ⟨-, h⟩⟩ := h <;> rw [h]

theorem State.Stays.state (h : s.Stays u v) (hstate : (s.veh v).state ≠ .stopped) : (u.veh v).state = (s.veh v).state := by
  obtain ⟨order, h⟩ := h.of_not_stopped hstate
  rw [h]

theorem vconfig_judgeSilence (s : State) (v : Nat) : (s.judgeSilence v).vconfig = s.vconfig :=
  congrArg Apart.vconfig (Moves.judgeSilence .refl v).apart

theorem vconfig_judgeOffer (s : State) (v : Nat) : (s.judgeOffer v).vconfig = s.vconfig :=
  congrArg Apart.vconfig (Moves.judgeOffer .refl v).apart

/-- A vehicle silent for the new heartbeat limit, before its silence is judged. -/
def State.Silent (s : State) (c : VehicleConfig) (v : Nat) : Prop :=
  s.vconfig = c ∧ (s.veh v).state ≠ .absent ∧ 1000 * c.heartbeat ≤ (s.veh v).silenceMs

/-- An offer past the new offer timeout, before it is judged. -/
def State.Unanswered (s : State) (c : VehicleConfig) (v : Nat) : Prop :=
  s.vconfig = c ∧ (s.veh v).state = .offered ∧ (s.veh v).silenceMs < 1000 * c.heartbeat ∧
    ∃ ms, (s.veh v).offerMs = some ms ∧ 1000 * c.offerTimeout ≤ ms

theorem State.Silent.stays (h : s.Silent c v) (hstays : s.Stays u v) (hconfig : u.vconfig = s.vconfig) : u.Silent c v := by
  obtain ⟨hc, habsent, hsilent⟩ := h
  exact ⟨hconfig.trans hc, hstays.not_absent habsent, by rw [hstays.silence]; exact hsilent⟩

theorem State.Unanswered.stays (h : s.Unanswered c v) (hstays : s.Stays u v) (hconfig : u.vconfig = s.vconfig) : u.Unanswered c v := by
  obtain ⟨hc, hoffered, hheard, hms⟩ := h
  obtain ⟨order, hveh⟩ := hstays.of_not_stopped (by rw [hoffered]; simp)
  unfold State.Unanswered
  rw [hveh]
  exact ⟨hconfig.trans hc, hoffered, hheard, hms⟩

theorem State.judgeOffer_lost (h : (s.veh v).state = .lost) (k : Nat) : ((s.judgeOffer k).veh v).state = .lost := by
  by_cases hk : k = v
  · subst hk
    have hsame : s.offerEvent k = s := by rw [State.offerEvent, if_neg (by rw [h]; simp)]
    unfold State.judgeOffer
    rw [hsame]
    split
    · rw [ite_self, h]
    · exact h
  · rw [(State.judgeOffer_stays (Ne.symm hk) s).state (by rw [h]; simp), h]

theorem State.limitsJudged_lost (hv : v ∈ allVehicles) (habsent : (s.veh v).state ≠ .absent)
    (hsilent : 1000 * c.heartbeat ≤ (s.veh v).silenceMs) : ((s.limitsJudged c).veh v).state = .lost := by
  refine forEach_keeps (P := fun s => (s.veh v).state = .lost) (fun k s h => State.judgeOffer_lost h k) allVehicles _ ?_
  refine forEach_reaches (P := fun s => s.Silent c v) (Q := fun s => (s.veh v).state = .lost) (fun k s hk h => ?_) (fun s h => ?_) (fun k s h => ?_)
    hv _ ⟨rfl, habsent, hsilent⟩
  · exact h.stays (State.judgeSilence_stays (Ne.symm hk) s) (vconfig_judgeSilence s k)
  · obtain ⟨hc, habsent, hsilent⟩ := h
    rw [State.judgeSilence, hc, if_pos hsilent]
    exact State.silenceEvent_lost habsent
  · by_cases hk : k = v
    · subst hk
      have hsame : s.silenceEvent k = s := State.silenceEvent_deaf (by rw [h]; rfl)
      rw [State.judgeSilence, hsame, ite_self, h]
    · rw [(State.judgeSilence_stays (Ne.symm hk) s).state (by rw [h]; simp), h]

theorem State.limitsJudged_faulted (hv : v ∈ allVehicles) (h : ({ s with vconfig := c } : State).Unanswered c v) :
    ((s.limitsJudged c).veh v).state = .faulted ∧ ((s.limitsJudged c).veh v).faultCode = some .offer := by
  have hsilence : (forEach allVehicles (fun v s => s.judgeSilence v) { s with vconfig := c }).Unanswered c v := by
    refine forEach_keeps (P := fun s => s.Unanswered c v) (fun k s h => ?_) allVehicles _ h
    by_cases hk : k = v
    · subst hk
      have hsame : s.judgeSilence k = s := by rw [State.judgeSilence, h.1, if_neg (not_le.2 h.2.2.1)]
      rwa [hsame]
    · exact h.stays (State.judgeSilence_stays (Ne.symm hk) s) (vconfig_judgeSilence s k)
  refine forEach_reaches (P := fun s => s.Unanswered c v) (Q := fun s => (s.veh v).state = .faulted ∧ (s.veh v).faultCode = some .offer)
    (fun k s hk h => ?_) (fun s h => ?_) (fun k s h => ?_) hv _ hsilence
  · exact h.stays (State.judgeOffer_stays (Ne.symm hk) s) (vconfig_judgeOffer s k)
  · obtain ⟨hc, hoffered, -, ms, hms, hpast⟩ := h
    have hjudged : s.judgeOffer v = s.offerEvent v := by
      simp only [State.judgeOffer, hms, hc]
      exact if_pos hpast
    rw [hjudged]
    exact State.offerEvent_faulted hoffered
  · by_cases hk : k = v
    · subst hk
      have hsame : s.offerEvent k = s := by rw [State.offerEvent, if_neg (by rw [h.1]; simp)]
      unfold State.judgeOffer
      rw [hsame]
      split
      · rwa [ite_self]
      · exact h
    · obtain ⟨order, hveh⟩ := (State.judgeOffer_stays (Ne.symm hk) s).of_not_stopped (by rw [h.1]; simp)
      rw [hveh]
      exact h

theorem State.limitsJudged_still (h : ∀ v, 1 ≤ v → v ≤ 12 → (s.veh v).silenceMs < 1000 * c.heartbeat ∧
    ∀ ms, (s.veh v).offerMs = some ms → ms < 1000 * c.offerTimeout) : s.limitsJudged c = { s with vconfig := c } := by
  have hsilence : forEach allVehicles (fun v s => s.judgeSilence v) { s with vconfig := c } = { s with vconfig := c } := by
    refine forEach_still fun v hv => ?_
    obtain ⟨h1, h12⟩ := mem_allVehicles.1 hv
    exact if_neg (not_le.2 (h v h1 h12).1)
  unfold State.limitsJudged
  rw [hsilence]
  refine forEach_still fun v hv => ?_
  obtain ⟨h1, h12⟩ := mem_allVehicles.1 hv
  unfold State.judgeOffer
  split
  case h_1 ms hms => exact if_neg (not_le.2 ((h v h1 h12).2 ms hms))
  case h_2 => rfl

theorem State.judgeHolds_veh (s : State) (v : Nat) : s.judgeHolds.veh v = s.veh v := by
  rw [State.judgeHolds_eq]
  rfl

/-- The part after VEHCFG (R86). -/
def State.vehiclesConfigured (s : State) (c : VehicleConfig) : State :=
  (s.configureVehicles c).close s (decide (c.lowBattery < s.vconfig.lowBattery))

theorem vehcfg_answered {a h b z : Nat} (htakes : s.takes = true) (hc : c = VehicleConfig.of a h b z) : answered (.vehcfg tag a h b z) s 0x24 tag
    (be1 (max 1 (min a 10)) ++ be1 (max 2 (min h 30)) ++ be1 (max 10 (min b 50)) ++ be2 (max 10 (min z 600))) (s.vehiclesConfigured c) := by
  subst hc
  exact answered_in_run rfl htakes rfl rfl rfl

theorem State.vehiclesConfigured_moves (s : State) (c : VehicleConfig) : Moves ({ s with vconfig := c } : State) (s.vehiclesConfigured c) := by
  have hjudged : Moves ({ s with vconfig := c } : State) (s.limitsJudged c).judgeHolds := (s.limitsJudged_moves c).judgeHolds
  unfold State.vehiclesConfigured
  rw [State.configureVehicles_eq]
  exact hjudged.close s _

theorem State.vehiclesConfigured_veh (s : State) (c : VehicleConfig) (v : Nat) :
    ((s.vehiclesConfigured c).veh v).state = ((s.limitsJudged c).veh v).state ∧
    ((s.vehiclesConfigured c).veh v).faultCode = ((s.limitsJudged c).veh v).faultCode := by
  obtain ⟨order, hveh⟩ := (s.configureVehicles c).close_veh s (decide (c.lowBattery < s.vconfig.lowBattery)) v
  unfold State.vehiclesConfigured
  rw [hveh, State.configureVehicles_eq, State.judgeHolds_veh]
  generalize (s.limitsJudged c).veh v = x
  exact ⟨rfl, rfl⟩

/-- Settles O31: what ends with the vehicle is gone from the part, and nothing of it returns before the event ends. -/
theorem retireAndVehcfg : Obligations.RetireAndVehcfg := by
  unfold Obligations.RetireAndVehcfg
  refine ⟨fun s tag v htakes h1 h12 => ?_, fun s tag a h b z c htakes hc => ?_⟩
  · have hok : vehicleOk v = true := vehicleOk_iff.2 ⟨h1, h12⟩
    have hgrant (habsent : (s.veh v).state ≠ .absent) : answered (.retire tag v) s 0x22 tag
        (be4 (s.veh v).retiredReel ++ opt2 (s.retiredOrder v)) (((s.slotEmptied v).queueHalt v).close s false) := by
      refine answered_in_run rfl htakes rfl rfl ?_
      change State.reqRetire s v = _
      unfold State.reqRetire
      rw [if_pos hok, if_neg habsent]
      rfl
    refine ⟨fun habsent => ?_, fun habsent => ⟨s.retiredFrom v, (s.slotEmptied v).queueHalt v, hgrant habsent, State.retiredFrom_still,
      fun n o hn ho hloaded => ?_, fun n o hn ho hloaded => ?_, rfl⟩, fun habsent honly => ?_⟩
    · refine refused_in_run (e := .state) rfl htakes rfl rfl ?_ rfl
      change State.reqRetire s v = _
      unfold State.reqRetire
      rw [if_pos hok, if_pos habsent]
    · rw [State.retiredFrom_some hn]
      exact State.retireOrder_unloaded (s := s.withdrawFor v) ho hloaded
    · refine ⟨(s.withdrawFor v).retireGone n o, ?_, ?_, fun k hk => ?_, ?_, fun r hr => ?_, fun r hr => ?_, fun b l y hdest hy => ?_,
        fun b hdest => ?_, fun p hkind hp => ?_, fun hkind => ?_, ?_, ?_, ?_⟩
      · rw [State.retiredFrom_some hn]
        exact State.retireOrder_loaded (s := s.withdrawFor v) ho hloaded
      · exact (State.retireGone_order _ n o n).trans (if_pos rfl)
      · exact (State.retireGone_order _ n o k).trans (if_neg hk)
      · rw [State.retireGone_eq, State.retireDropped_eq]
        rfl
      · exact (State.retireGone_reel _ n o r).trans (if_pos hr)
      · exact (State.retireGone_reel _ n o r).trans (if_neg hr)
      · refine (State.retireGone_bay _ n o b).trans ?_
        rw [if_pos (Place.bay?_eq_some_iff.2 ⟨l, hdest⟩)]
        exact congrArg (Option.map _) hy
      · refine (State.retireGone_bay _ n o b).trans (if_neg fun h => ?_)
        obtain ⟨l, hl⟩ := Place.bay?_eq_some_iff.1 h
        exact hdest l hl
      · rw [State.retireGone_eq]
        exact State.callOffEnds_pos hkind hp
      · rw [State.retireGone_eq, State.callOffEnds, if_neg hkind, State.retireDropped_eq]
        rfl
      · rw [State.retireGone_eq, State.retireDropped_eq]
        rfl
      · rw [State.retireGone_eq, State.retireDropped_eq]
        rfl
      · rw [State.retireGone_eq, State.retireDropped_eq]
        rfl
    · have hspent := ((s.slotEmptied v).queueHalt_spent v).trans (State.close_spent _ s false)
      have hout : ¬ (((s.slotEmptied v).queueHalt v).close s false).InPlay v := fun hplay =>
        State.slotEmptied_not_inPlay honly (hspent.adds.1 v hplay)
      refine ⟨_, hgrant habsent, ?_, fun z hz => ?_, ?_, fun n hn hb hd => ?_, fun r hload hverified hr => ?_⟩
      · by_contra hne
        exact hout (.inl hne)
      · exact hout (State.inPlay_of_zone (Table.mem_of_find hz))
      · exact (((s.slotEmptied_moves v).queueHalt v).close s false).apart
      · obtain ⟨horders, hdemands⟩ := s.slotEmptied_orders v
        obtain ⟨hb', hd', hn'⟩ := State.retiredFrom_order hn hb hd
        have horder : (s.slotEmptied v).order n = (s.retiredFrom v).order n := by
          unfold State.order
          rw [horders]
        exact (hspent.noOrder (by rw [horders]; exact hb') (by rw [hdemands]; exact hd')).2.2 n (horder.trans hn')
      · have hretired : (s.veh v).retiredReel = r := by simp [Vehicle.retiredReel, hverified, hload]
        have hgone := State.slotEmptied_reel (s := s) (v := v) (by rw [hretired]; exact hr)
        rw [hretired] at hgone
        exact hspent.adds.2 r hgone
  · have hmoves := s.vehiclesConfigured_moves c
    refine ⟨s.vehiclesConfigured c, vehcfg_answered htakes hc, congrArg Apart.vconfig hmoves.apart, congrArg Apart.link hmoves.apart,
      congrArg Apart.lines hmoves.apart, congrArg Apart.webs hmoves.apart, congrArg Apart.clock hmoves.apart, fun v h1 h12 habsent hsilent => ?_,
      fun v ms h1 h12 hoffered hms hpast hheard => ?_, fun hwithin => ⟨?_, fun n o k ho hheld hsince hpast => ?_⟩⟩
    · rw [(s.vehiclesConfigured_veh c v).1, State.limitsJudged_lost (mem_allVehicles.2 ⟨h1, h12⟩) habsent hsilent]
    · rw [(s.vehiclesConfigured_veh c v).1, (s.vehiclesConfigured_veh c v).2]
      exact State.limitsJudged_faulted (mem_allVehicles.2 ⟨h1, h12⟩) ⟨rfl, hoffered, hheard, ms, hms, hpast⟩
    · rw [State.vehiclesConfigured, State.configureVehicles_eq, State.limitsJudged_still hwithin]
    · rw [State.vehiclesConfigured, State.configureVehicles_eq, State.limitsJudged_still hwithin]
      exact State.judgeHolds_close_reported (s := { s with vconfig := c }) ho hheld hsince hpast s _

end Sys2Proof.Machine
end

section
/-!
PROOF. HALT and RESUME (O30).
-/

namespace Sys2Proof.Machine

open Sys2Proof

variable {s t u : State} {n v k tag target : Nat} {o : Order} {f : VehicleFrame}

/-! ### What HALT and RESUME change -/

/-- From `s` to `u` only vehicles, orders of the list and the outbound frames change. -/
def State.Halts (s u : State) : Prop := u = { s with
  vehicles := u.vehicles, orders := { s.orders with table := u.orders.table }
  vlink := { s.vlink with queue := u.vlink.queue, waiting := u.vlink.waiting } }

theorem State.Halts.refl (s : State) : s.Halts s := rfl

theorem State.Halts.trans (h : s.Halts t) (g : t.Halts u) : s.Halts u := by
  unfold State.Halts at *
  refine g.trans ?_
  rw [h]

theorem State.Halts.apart (h : s.Halts u) : u.apart = s.apart := by
  unfold State.Halts at h
  rw [h]
  rfl

theorem State.Halts.locks (h : s.Halts u) : u.locks = s.locks := by
  unfold State.Halts at h
  rw [h]

theorem State.enqueue_halts (s : State) (f : VehicleFrame) : s.Halts (s.enqueue f) := by
  unfold State.Halts
  rw [State.enqueue_eq]

theorem State.stopVehicle_halts (s : State) (v : Nat) : s.Halts (s.stopVehicle v) := by
  unfold State.stopVehicle
  split
  · rfl
  · rfl
  · split
    · rfl
    · rfl
  · rfl

theorem State.sendGoAgain_halts (s : State) (v n : Nat) : s.Halts (s.sendGoAgain v n) := by
  unfold State.sendGoAgain
  split
  · exact .refl s
  split
  · exact .refl s
  · exact State.Halts.trans (s := s) (t := s.setOrder n _) rfl (State.enqueue_halts _ _)

theorem State.resumeVehicle_halts (s : State) (v : Nat) : s.Halts (s.resumeVehicle v) := by
  unfold State.resumeVehicle
  dsimp only
  split
  · exact State.Halts.trans (s := s) (t := s.onVeh v _) rfl (State.enqueue_halts _ _)
  · unfold State.whenSome
    split
    · exact State.Halts.trans (s := s) (t := s.onVeh v _) rfl (State.sendGoAgain_halts _ _ _)
    · rfl
  · exact .refl s

theorem forEach_halts {f : Nat → State → State} (h : ∀ k (s : State), s.Halts (f k s)) (ns : List Nat) :
    ∀ s : State, s.Halts (forEach ns f s) := by
  induction ns with
  | nil => exact fun s => .refl s
  | cons n ns ih => exact fun s => (h n s).trans (ih (f n s))

/-! ### A vehicle stopped (R82) -/

theorem State.goQueued_iff : s.goQueued v = true ↔ ∃ f ∈ s.vlink.queue ++ s.vlink.waiting, f.vehicle = v ∧ f.isGo = true := by
  simp only [State.goQueued, List.any_eq_true, Bool.and_eq_true, decide_eq_true_eq]

theorem State.stopVehicle_offered (h : (s.veh v).state = .offered) :
    s.stopVehicle v = s.setVeh v { s.veh v with state := .stopped, prior := some .offered, offerMs := none } := by
  simp only [State.stopVehicle, h]
  rfl

theorem State.stopVehicle_driving (h : (s.veh v).state = .driving) :
    s.stopVehicle v = s.setVeh v { s.veh v with state := .stopped, prior := some .driving, offerMs := none } := by
  simp only [State.stopVehicle, h]
  rfl

theorem State.stopVehicle_idle (h : (s.veh v).state = .idle) (hgo : s.goQueued v = true) :
    s.stopVehicle v = (s.withdrawGo v).setVeh v { s.veh v with state := .stopped, prior := some .offered, offerMs := none } := by
  simp only [State.stopVehicle, h, hgo, if_true]
  rfl

theorem State.stopVehicle_still (hoffered : (s.veh v).state ≠ .offered) (hdriving : (s.veh v).state ≠ .driving)
    (hidle : (s.veh v).state = .idle → s.goQueued v = false) : s.stopVehicle v = s := by
  unfold State.stopVehicle
  split
  case h_1 h => exact absurd h hoffered
  case h_2 h => exact absurd h hdriving
  case h_3 h => exact if_neg (by rw [hidle h]; exact Bool.false_ne_true)
  case h_4 => rfl

theorem State.goQueued_withdrawGo (s : State) (v k : Nat) : (s.withdrawGo v).goQueued k = (s.goQueued k && decide (k ≠ v)) := by
  rw [Bool.eq_iff_iff, Bool.and_eq_true, State.goQueued_iff, State.goQueued_iff, decide_eq_true_eq]
  have hmem (f : VehicleFrame) : f ∈ (s.withdrawGo v).vlink.queue ++ (s.withdrawGo v).vlink.waiting ↔
      f ∈ s.vlink.queue ++ s.vlink.waiting ∧ (decide (f.vehicle = v) && f.isGo) = false := State.mem_withdraw
  simp only [hmem, Bool.and_eq_false_iff, decide_eq_false_iff_not]
  constructor
  · rintro ⟨f, ⟨hf, hkept⟩, rfl, hgo⟩
    exact ⟨⟨f, hf, rfl, hgo⟩, hkept.resolve_right (by rw [hgo]; simp)⟩
  · rintro ⟨⟨f, hf, rfl, hgo⟩, hne⟩
    exact ⟨f, ⟨hf, .inl hne⟩, rfl, hgo⟩

theorem State.stopVehicle_orders (s : State) (v : Nat) : (s.stopVehicle v).orders = s.orders := by
  unfold State.stopVehicle
  split
  · rfl
  · rfl
  · split <;> rfl
  · rfl

theorem State.stopVehicle_veh_other (h : k ≠ v) (s : State) : (s.stopVehicle v).veh k = s.veh k := by
  unfold State.stopVehicle
  split
  · exact State.onVeh_veh_other _ h _
  · exact State.onVeh_veh_other _ h _
  · split
    · exact State.onVeh_veh_other _ h _
    · rfl
  · rfl

theorem State.stopVehicle_goQueued_other (h : k ≠ v) (s : State) : (s.stopVehicle v).goQueued k = s.goQueued k := by
  unfold State.stopVehicle
  split
  · rfl
  · rfl
  · split
    · refine (s.goQueued_withdrawGo v k).trans ?_
      simp [h]
    · rfl
  · rfl

/-- HALT has nothing more to change of a vehicle neither under way nor IDLE. -/
theorem State.stopVehicle_at_rest (h : (s.veh v).state ∉ [.offered, .driving, .idle]) : s.stopVehicle v = s := by
  simp only [List.mem_cons, List.not_mem_nil, or_false, not_or] at h
  exact State.stopVehicle_still h.1 h.2.1 fun hidle => absurd hidle h.2.2

/-- Every vehicle stopped, as HALT 0 does it. -/
def State.allStopped (s : State) : State := forEach allVehicles (fun v s => s.stopVehicle v) s

/-- A vehicle at its turn becomes `x`, and stays so. -/
theorem State.allStopped_turns {x : Vehicle} (hv : v ∈ allVehicles) (hturn : ∀ t : State, t.veh v = s.veh v → t.goQueued v = s.goQueued v →
      (t.stopVehicle v).veh v = x) (hx : x.state = .stopped) : s.allStopped.veh v = x := by
  refine forEach_reaches (P := fun t => t.veh v = s.veh v ∧ t.goQueued v = s.goQueued v) (Q := fun t => t.veh v = x)
    (fun k t hk h => ?_) (fun t h => hturn t h.1 h.2) (fun k t h => ?_) hv s ⟨rfl, rfl⟩
  · exact ⟨(State.stopVehicle_veh_other (Ne.symm hk) t).trans h.1, (State.stopVehicle_goQueued_other (Ne.symm hk) t).trans h.2⟩
  · by_cases hk : k = v
    · subst hk
      rwa [State.stopVehicle_at_rest (by rw [h, hx]; simp)]
    · exact (State.stopVehicle_veh_other (Ne.symm hk) t).trans h

theorem State.allStopped_still (h : ∀ t : State, t.veh v = s.veh v → t.goQueued v = s.goQueued v → t.stopVehicle v = t) :
    s.allStopped.veh v = s.veh v ∧ s.allStopped.goQueued v = s.goQueued v := by
  refine forEach_keeps (P := fun t => t.veh v = s.veh v ∧ t.goQueued v = s.goQueued v) (fun k t ht => ?_) allVehicles s ⟨rfl, rfl⟩
  by_cases hk : k = v
  · subst hk
    rwa [h t ht.1 ht.2]
  · exact ⟨(State.stopVehicle_veh_other (Ne.symm hk) t).trans ht.1, (State.stopVehicle_goQueued_other (Ne.symm hk) t).trans ht.2⟩

/-- Once its turn has come, an IDLE vehicle has no GO queued. -/
theorem State.allStopped_goQueued (hv : v ∈ allVehicles) (hidle : (s.veh v).state = .idle) : s.allStopped.goQueued v = false := by
  refine forEach_reaches (P := fun t => (t.veh v).state = .idle) (Q := fun t => t.goQueued v = false) (fun k t hk h => ?_) (fun t h => ?_)
    (fun k t h => ?_) hv s hidle
  · rwa [State.stopVehicle_veh_other (Ne.symm hk)]
  · cases hgo : t.goQueued v with
    | true =>
      rw [State.stopVehicle_idle h hgo]
      refine (t.goQueued_withdrawGo v v).trans ?_
      simp
    | false => rwa [State.stopVehicle_still (by rw [h]; simp) (by rw [h]; simp) fun _ => hgo]
  · by_cases hk : k = v
    · subst hk
      unfold State.stopVehicle
      rw [h]
      split <;> exact h
    · exact (State.stopVehicle_goQueued_other (Ne.symm hk) t).trans h

/-! ### A vehicle resumed (R83) -/

theorem State.resumeVehicle_driving (hstate : (s.veh v).state = .stopped) (hprior : (s.veh v).prior = some .driving) :
    s.resumeVehicle v = (s.setVeh v { s.veh v with state := .driving, prior := none }).enqueue (.resume v) := by
  simp only [State.resumeVehicle, hstate, hprior]
  rfl

theorem State.resumeVehicle_offered (hstate : (s.veh v).state = .stopped) (hprior : (s.veh v).prior = some .offered) :
    s.resumeVehicle v = (s.setVeh v { s.veh v with state := .idle, prior := none }).whenSome (s.veh v).order fun s n => s.sendGoAgain v n := by
  simp only [State.resumeVehicle, hstate, hprior]
  rfl

theorem State.resumeVehicle_still (h : (s.veh v).state ≠ .stopped) : s.resumeVehicle v = s := by
  unfold State.resumeVehicle
  dsimp only
  split
  case h_1 hstate _ => exact absurd hstate h
  case h_2 hstate _ => exact absurd hstate h
  case h_3 => rfl

theorem State.sendGoAgain_some (ho : s.order n = some o) (htarget : s.targetNode o = some target) :
    s.sendGoAgain v n = (s.setOrder n { o with goSent := false }).enqueue (.go v n o.progress target o.action o.legZones) := by
  simp only [State.sendGoAgain, ho, htarget]

theorem State.enqueue_veh (s : State) (f : VehicleFrame) (k : Nat) : (s.enqueue f).veh k = s.veh k := by
  rw [State.enqueue_eq]
  rfl

theorem State.sendGoAgain_veh (s : State) (v n k : Nat) : (s.sendGoAgain v n).veh k = s.veh k := by
  unfold State.sendGoAgain
  split
  · rfl
  split
  · rfl
  · rw [State.enqueue_veh]
    rfl

theorem State.goAgain_veh (s : State) (c : Option Nat) (v k : Nat) : (s.whenSome c fun s n => s.sendGoAgain v n).veh k = s.veh k := by
  cases c with
  | none => rfl
  | some n => exact s.sendGoAgain_veh v n k

theorem State.resumeVehicle_veh_other (h : k ≠ v) (s : State) : (s.resumeVehicle v).veh k = s.veh k := by
  unfold State.resumeVehicle
  dsimp only
  split
  · rw [State.enqueue_veh]
    exact State.onVeh_veh_other _ h _
  · rw [State.goAgain_veh]
    exact State.onVeh_veh_other _ h _
  · rfl

/-- The frames of a RESUME are for its vehicle. -/
theorem State.mem_frames_enqueue {g : VehicleFrame} (h : g ∈ (s.enqueue f).vlink.queue ++ (s.enqueue f).vlink.waiting) :
    g ∈ s.vlink.queue ++ s.vlink.waiting ∨ g = f := by
  rw [State.enqueue_frames] at h
  refine (List.mem_append.1 h).imp id fun h => ?_
  split at h
  · cases h
  · exact List.mem_singleton.1 h

theorem State.sendGoAgain_frames (s : State) (v n : Nat) :
    (∀ g ∈ s.vlink.queue ++ s.vlink.waiting, g ∈ (s.sendGoAgain v n).vlink.queue ++ (s.sendGoAgain v n).vlink.waiting) ∧
    ∀ g ∈ (s.sendGoAgain v n).vlink.queue ++ (s.sendGoAgain v n).vlink.waiting, g ∈ s.vlink.queue ++ s.vlink.waiting ∨ g.vehicle = v := by
  unfold State.sendGoAgain
  split
  · exact ⟨fun _ h => h, fun _ h => .inl h⟩
  split
  · exact ⟨fun _ h => h, fun _ h => .inl h⟩
  · refine ⟨fun g hg => State.mem_enqueue hg, fun g hg => (State.mem_frames_enqueue hg).imp id ?_⟩
    rintro rfl
    rfl

theorem State.resumeVehicle_frames (s : State) (v : Nat) :
    (∀ g ∈ s.vlink.queue ++ s.vlink.waiting, g ∈ (s.resumeVehicle v).vlink.queue ++ (s.resumeVehicle v).vlink.waiting) ∧
    ∀ g ∈ (s.resumeVehicle v).vlink.queue ++ (s.resumeVehicle v).vlink.waiting, g ∈ s.vlink.queue ++ s.vlink.waiting ∨ g.vehicle = v := by
  unfold State.resumeVehicle
  dsimp only
  split
  · refine ⟨fun g hg => State.mem_enqueue hg, fun g hg => (State.mem_frames_enqueue hg).imp id ?_⟩
    rintro rfl
    rfl
  · unfold State.whenSome
    split
    · exact State.sendGoAgain_frames (s.onVeh v _) v _
    · exact ⟨fun _ h => h, fun _ h => .inl h⟩
  · exact ⟨fun _ h => h, fun _ h => .inl h⟩

theorem State.resumeVehicle_goQueued_other (h : k ≠ v) (s : State) : (s.resumeVehicle v).goQueued k = s.goQueued k := by
  obtain ⟨hkept, hnew⟩ := s.resumeVehicle_frames v
  rw [Bool.eq_iff_iff, State.goQueued_iff, State.goQueued_iff]
  constructor
  · rintro ⟨f, hf, hfor, hgo⟩
    exact ⟨f, (hnew f hf).resolve_right fun hv => h (hfor.symm.trans hv), hfor, hgo⟩
  · rintro ⟨f, hf, hfor, hgo⟩
    exact ⟨f, hkept f hf, hfor, hgo⟩

/-- RESUME marks the GO of a bound order unsent, and changes no more of the Order List. -/
theorem State.resumeVehicle_order (s : State) (v n : Nat) (ho : s.order n = some o) : (s.resumeVehicle v).order n = some o ∨
    (s.resumeVehicle v).order n = some { o with goSent := false } := by
  have hsend (t : State) (m : Nat) (ht : t.order n = some o) : (t.sendGoAgain v m).order n = some o ∨
      (t.sendGoAgain v m).order n = some { o with goSent := false } := by
    unfold State.sendGoAgain
    split
    · exact .inl ht
    case h_2 y hy =>
    split
    · exact .inl ht
    · rw [State.enqueue_eq]
      by_cases hm : n = m
      · subst hm
        obtain rfl := Option.some.inj (ht.symm.trans hy)
        exact .inr (Table.find_insert_same _ _ _)
      · exact .inl ((Table.find_insert_other _ hm _).trans ht)
  unfold State.resumeVehicle
  dsimp only
  split
  · rw [State.enqueue_eq]
    exact .inl ho
  · unfold State.whenSome
    split
    · exact hsend _ _ ho
    · exact .inl ho
  · exact .inl ho

/-! ### All of them resumed -/

def State.stoppedVehicles (s : State) : List Nat := allVehicles.filter fun v => decide ((s.veh v).state = .stopped)

def State.allResumed (s : State) : State := forEach s.stoppedVehicles (fun v s => s.resumeVehicle v) s

theorem State.allResumed_still (h : (s.veh v).state ≠ .stopped) : s.allResumed.veh v = s.veh v := by
  refine forEach_keeps (P := fun t => t.veh v = s.veh v) (fun k t ht => ?_) s.stoppedVehicles s rfl
  by_cases hk : k = v
  · subst hk
    rwa [State.resumeVehicle_still (by rw [ht]; exact h)]
  · exact (State.resumeVehicle_veh_other (Ne.symm hk) t).trans ht

theorem State.mem_stoppedVehicles (hv : v ∈ allVehicles) (h : (s.veh v).state = .stopped) : v ∈ s.stoppedVehicles :=
  List.mem_filter.2 ⟨hv, decide_eq_true h⟩

/-- A vehicle at its turn becomes `x` with the frame in its queue, and both stay so. -/
theorem State.allResumed_turns {x : Vehicle} {Q : State → Prop} (hv : v ∈ allVehicles) (hstopped : (s.veh v).state = .stopped)
    (hQ : ∀ k t, Q t → Q (State.resumeVehicle t k)) (hx : x.state ≠ .stopped)
    (hturn : ∀ t : State, t.veh v = s.veh v → s.Halts t → t.goQueued v = s.goQueued v →
      (∀ n o, s.order n = some o → t.order n = some o ∨ t.order n = some { o with goSent := false }) →
      (t.resumeVehicle v).veh v = x ∧ Q (t.resumeVehicle v)) : s.allResumed.veh v = x ∧ Q s.allResumed := by
  refine forEach_reaches (P := fun t => t.veh v = s.veh v ∧ s.Halts t ∧ t.goQueued v = s.goQueued v ∧
      ∀ n o, s.order n = some o → t.order n = some o ∨ t.order n = some { o with goSent := false })
    (Q := fun t => t.veh v = x ∧ Q t) (fun k t hk h => ?_) (fun t ⟨h1, h2, h3, h4⟩ => hturn t h1 h2 h3 h4) (fun k t ⟨hveh, hq⟩ => ⟨?_, hQ k t hq⟩)
    (State.mem_stoppedVehicles hv hstopped) s ⟨rfl, .refl s, rfl, fun _ _ h => .inl h⟩
  · obtain ⟨hveh, hhalts, hgo, horder⟩ := h
    refine ⟨(State.resumeVehicle_veh_other (Ne.symm hk) t).trans hveh, hhalts.trans (t.resumeVehicle_halts k),
      (State.resumeVehicle_goQueued_other (Ne.symm hk) t).trans hgo, fun n o ho => ?_⟩
    rcases horder n o ho with ht | ht
    · exact t.resumeVehicle_order k n ht
    · exact .inr ((t.resumeVehicle_order k n ht).elim id id)
  · by_cases hk : k = v
    · subst hk
      rwa [State.resumeVehicle_still (by rw [hveh]; exact hx)]
    · exact (State.resumeVehicle_veh_other (Ne.symm hk) t).trans hveh

theorem VehicleFrame.eq_resume_of_slot {g : VehicleFrame} (h : g.slot = (VehicleFrame.resume v).slot) : g = .resume v := by
  cases g <;> cases h
  rfl

theorem VehicleFrame.go_of_slot {g : VehicleFrame} {i a : Nat} {zs : List Nat} {act : GoAction}
    (h : g.slot = (VehicleFrame.go v n i a act zs).slot) : g.vehicle = v ∧ g.isGo = true := by
  cases g <;> cases h
  exact ⟨rfl, rfl⟩

theorem State.mem_enqueue_resume (s : State) (v : Nat) : .resume v ∈ (s.enqueue (.resume v)).vlink.queue ++ (s.enqueue (.resume v)).vlink.waiting := by
  rw [State.enqueue_frames]
  split
  case isTrue h =>
    obtain ⟨g, hg, hslot⟩ := h
    rw [VehicleFrame.eq_resume_of_slot hslot] at hg
    exact List.mem_append_left _ hg
  case isFalse => exact List.mem_append_right _ (List.mem_singleton_self _)

theorem State.allResumed_driving (hv : v ∈ allVehicles) (hstate : (s.veh v).state = .stopped) (hprior : (s.veh v).prior = some .driving) :
    s.allResumed.veh v = { s.veh v with state := .driving, prior := none } ∧ .resume v ∈ s.allResumed.vlink.queue ++ s.allResumed.vlink.waiting := by
  refine State.allResumed_turns (x := { s.veh v with state := .driving, prior := none }) (Q := fun t => .resume v ∈ t.vlink.queue ++ t.vlink.waiting) hv hstate
    (fun k t h => (t.resumeVehicle_frames k).1 _ h) (by simp) fun t hveh _ _ _ => ?_
  rw [State.resumeVehicle_driving (by rw [hveh]; exact hstate) (by rw [hveh]; exact hprior), hveh]
  exact ⟨(State.enqueue_veh _ _ v).trans (State.veh_setVeh_same _ _ _), State.mem_enqueue_resume _ v⟩

theorem State.allResumed_offered (hv : v ∈ allVehicles) (hstate : (s.veh v).state = .stopped) (hprior : (s.veh v).prior = some .offered) :
    s.allResumed.veh v = { s.veh v with state := .idle, prior := none } := by
  refine (State.allResumed_turns (Q := fun _ => True) hv hstate (fun _ _ _ => trivial) (by simp) fun t hveh _ _ _ => ⟨?_, trivial⟩).1
  rw [State.resumeVehicle_offered (by rw [hveh]; exact hstate) (by rw [hveh]; exact hprior), State.goAgain_veh, hveh]
  exact State.veh_setVeh_same _ _ _

theorem State.allResumed_goAgain (hv : v ∈ allVehicles) (hstate : (s.veh v).state = .stopped) (hprior : (s.veh v).prior = some .offered)
    (hbound : (s.veh v).order = some n) (ho : s.order n = some o) (htarget : s.targetNode o = some target) :
    s.allResumed.goQueued v = true ∧ (s.goQueued v = false →
      .go v n o.progress target o.action o.legZones ∈ s.allResumed.vlink.queue ++ s.allResumed.vlink.waiting) := by
  refine (State.allResumed_turns (x := { s.veh v with state := .idle, prior := none })
    (Q := fun t => t.goQueued v = true ∧ (s.goQueued v = false →
      .go v n o.progress target o.action o.legZones ∈ t.vlink.queue ++ t.vlink.waiting)) hv hstate (fun k t h => ⟨?_, fun hgo => ?_⟩)
    (by simp) fun t hveh hhalts hgo horder => ⟨?_, ?_⟩).2
  · obtain ⟨f, hf, hfor, hgo⟩ := State.goQueued_iff.1 h.1
    exact State.goQueued_iff.2 ⟨f, (t.resumeVehicle_frames k).1 f hf, hfor, hgo⟩
  · exact (t.resumeVehicle_frames k).1 _ (h.2 hgo)
  · rw [State.resumeVehicle_offered (by rw [hveh]; exact hstate) (by rw [hveh]; exact hprior), State.goAgain_veh, hveh]
    exact State.veh_setVeh_same _ _ _
  · have hresumed : t.resumeVehicle v = ((t.setVeh v { s.veh v with state := .idle, prior := none }).setOrder n { o with goSent := false }).enqueue
        (.go v n o.progress target o.action o.legZones) := by
      rw [State.resumeVehicle_offered (by rw [hveh]; exact hstate) (by rw [hveh]; exact hprior), hveh, hbound]
      have htarget' (b : Bool) : (t.setVeh v { s.veh v with state := .idle, prior := none }).targetNode { o with goSent := b } = some target := by
        unfold State.Halts at hhalts
        rw [← htarget, hhalts]
        rfl
      rcases horder n o ho with ht | ht
      · exact State.sendGoAgain_some ht (htarget' o.goSent)
      · exact State.sendGoAgain_some (o := { o with goSent := false }) ht (htarget' false)
    have hframes : (t.resumeVehicle v).vlink.queue ++ (t.resumeVehicle v).vlink.waiting = t.vlink.queue ++ t.vlink.waiting ++ 
        if ∃ g ∈ t.vlink.queue ++ t.vlink.waiting, g.slot = (VehicleFrame.go v n o.progress target o.action o.legZones).slot then []
        else [.go v n o.progress target o.action o.legZones] := by
      rw [hresumed, State.enqueue_frames]
      rfl
    rw [State.goQueued_iff, hframes]
    split
    case isTrue h =>
      obtain ⟨g, hg, hslot⟩ := h
      obtain ⟨hfor, hisGo⟩ := VehicleFrame.go_of_slot hslot
      refine ⟨⟨g, List.mem_append_left _ hg, hfor, hisGo⟩, fun hnone => ?_⟩
      rw [← hgo] at hnone
      exact absurd (State.goQueued_iff.2 ⟨g, hg, hfor, hisGo⟩) (by rw [hnone]; simp)
    case isFalse =>
      exact ⟨⟨_, List.mem_append_right _ (List.mem_singleton_self _), rfl, rfl⟩, fun _ => List.mem_append_right _ (List.mem_singleton_self _)⟩

/-! ### The requests -/

theorem State.vehicleList_one (s : State) (v : Nat) : s.vehicleList [v] = be1 1 ++ be1 v ++ be1 (s.veh v).state.code := by
  simp [State.vehicleList, listBytes]

theorem mem_insertHalt (h : VehicleFrame) : ∀ l : List VehicleFrame, h ∈ insertHalt h l
  | [] => List.mem_singleton_self h
  | f :: fs => by
    unfold insertHalt
    split
    · exact List.mem_cons_of_mem _ (mem_insertHalt h fs)
    · exact List.mem_cons_self

theorem State.queueHalt_room (h : s.vlink.queue.length < 16) (v : Nat) : (s.queueHalt v).vlink.queue.contains (.halt v) = true ∨
    (s.queueHalt v).vlink.queue.contains (.halt 0) = true := by
  by_cases hqueued : .halt v ∈ s.vlink.queue ∨ .halt 0 ∈ s.vlink.queue
  · rw [State.queueHalt_of_queued hqueued]
    exact hqueued.imp List.contains_iff_mem.2 List.contains_iff_mem.2
  · obtain ⟨h1, h2⟩ := not_or.1 hqueued
    refine .inl (List.contains_iff_mem.2 ?_)
    rw [State.queueHalt_of_not h1 h2, State.putHalt_room h]
    obtain ⟨moved, hmoved, -⟩ := refillFrom_spec (insertHalt (.halt v) s.vlink.queue) s.vlink.waiting
    have hqueue : (s.setFrames (insertHalt (.halt v) s.vlink.queue) s.vlink.waiting).vlink.queue =
        insertHalt (.halt v) s.vlink.queue ++ moved := hmoved
    rw [hqueue]
    exact List.mem_append_left _ (mem_insertHalt _ _)

theorem halt_answered (htakes : s.takes = true) (h1 : 1 ≤ v) (h12 : v ≤ 12) (habsent : (s.veh v).state ≠ .absent)
    (ht : t = ((s.stopVehicle v).queueHalt v).close s false) :
    answered (.halt tag v) s 0x20 tag (be1 1 ++ be1 v ++ be1 (t.veh v).state.code) t := by
  refine answered_in_run rfl htakes rfl rfl ?_
  change State.reqHalt s v = _
  unfold State.reqHalt
  rw [if_neg (by omega), if_pos (vehicleOk_iff.2 ⟨h1, h12⟩), if_neg habsent, ← ht, ← State.vehicleList_one]

theorem resume_answered (htakes : s.takes = true) (h1 : 1 ≤ v) (h12 : v ≤ 12) (hestop : s.estop.level = false)
    (hstopped : (s.veh v).state = .stopped) (ht : t = (s.resumeVehicle v).close s false) :
    answered (.resume tag v) s 0x21 tag (be1 1 ++ be1 v ++ be1 (t.veh v).state.code) t := by
  refine answered_in_run rfl htakes rfl rfl ?_
  change State.reqResume s v = _
  unfold State.reqResume
  rw [if_neg (by omega), hestop, if_neg Bool.false_ne_true, if_neg (by omega), if_pos hstopped, ← ht, ← State.vehicleList_one]

/-- Settles O30: a vehicle is changed at its own turn and by nothing before or after it. -/
theorem haltAndResume : Obligations.HaltAndResume := by
  unfold Obligations.HaltAndResume
  refine ⟨fun s tag v htakes h1 h12 => ⟨fun habsent => ?_, fun prior hprior => ?_, fun hidle hgo => ?_, fun hstate hgo => ?_⟩,
    fun s v hroom => State.queueHalt_room hroom v, fun s tag v htakes h12 => ⟨?_, ?_⟩, fun s tag htakes => ?_,
    fun s tag v htakes h1 h12 => ⟨fun hrefused => ?_, fun hestop hstopped t => ⟨fun hprior ht => ?_, fun n o target hprior hbound ho htarget ht => ?_⟩⟩,
    fun s tag htakes => ⟨fun hestop => ?_, fun hestop => ?_⟩⟩
  · refine refused_in_run (e := .state) rfl htakes rfl rfl ?_ rfl
    change State.reqHalt s v = _
    unfold State.reqHalt
    rw [if_neg (by omega), if_pos (vehicleOk_iff.2 ⟨h1, h12⟩), if_pos habsent]
  · rcases hprior with ⟨hstate, rfl⟩ | ⟨hstate, rfl⟩
    · exact ⟨_, halt_answered htakes h1 h12 (by rw [hstate]; simp) (by rw [State.stopVehicle_offered hstate]), rfl⟩
    · exact ⟨_, halt_answered htakes h1 h12 (by rw [hstate]; simp) (by rw [State.stopVehicle_driving hstate]), rfl⟩
  · exact ⟨_, halt_answered htakes h1 h12 (by rw [hidle]; simp) (by rw [State.stopVehicle_idle hidle hgo]), rfl⟩
  · have hstill : s.stopVehicle v = s := by
      refine State.stopVehicle_still ?_ ?_ fun hidle => hgo.resolve_right (not_not.2 hidle) <;> intro h <;> rw [h] at hstate <;> simp at hstate
    refine ⟨_, halt_answered htakes h1 h12 ?_ (by rw [hstill])⟩
    intro h
    rw [h] at hstate
    simp at hstate
  · refine refused_in_run (e := .range) rfl htakes rfl rfl ?_ rfl
    change State.reqHalt s v = _
    unfold State.reqHalt
    rw [if_neg (by omega), if_neg fun hok => by have := (vehicleOk_iff.1 hok).2; omega]
  · refine refused_in_run (e := .range) rfl htakes rfl rfl ?_ rfl
    exact if_pos h12
  · have hhalts : s.Halts s.allStopped := forEach_halts (fun k s => s.stopVehicle_halts k) allVehicles s
    have horders : s.allStopped.orders = s.orders := by
      refine forEach_keeps (P := fun t => t.orders = s.orders) (fun k t ht => ?_) allVehicles s rfl
      exact (State.stopVehicle_orders t k).trans ht
    refine ⟨_, s.allStopped, answered_in_run rfl htakes rfl rfl rfl, rfl, ?_, horders, ?_, fun v h1 h12 => ?_⟩
    · exact hhalts.apart
    · exact hhalts.locks
    have hv : v ∈ allVehicles := mem_allVehicles.2 ⟨h1, h12⟩
    refine ⟨fun hstate => ?_, fun hstate => ?_, fun hstate => ⟨State.allStopped_goQueued hv hstate, fun hgo => ?_, fun hgo => ?_⟩, fun hstate => ?_⟩
    · refine State.allStopped_turns hv (fun t ht _ => ?_) rfl
      rw [State.stopVehicle_offered (by rw [ht]; exact hstate), ht]
      exact State.veh_setVeh_same _ _ _
    · refine State.allStopped_turns hv (fun t ht _ => ?_) rfl
      rw [State.stopVehicle_driving (by rw [ht]; exact hstate), ht]
      exact State.veh_setVeh_same _ _ _
    · refine State.allStopped_turns hv (fun t ht hgo' => ?_) rfl
      rw [State.stopVehicle_idle (by rw [ht]; exact hstate) (hgo'.trans hgo), ht]
      exact State.veh_setVeh_same _ _ _
    · refine (State.allStopped_still fun t ht hgo' => ?_).1
      exact State.stopVehicle_still (by rw [ht, hstate]; simp) (by rw [ht, hstate]; simp) fun _ => hgo'.trans hgo
    · refine (State.allStopped_still fun t ht _ => State.stopVehicle_at_rest ?_).1
      rw [ht]
      intro h
      simp only [List.mem_cons, List.not_mem_nil, or_false] at hstate h
      rcases hstate with hs | hs | hs | hs <;> rw [hs] at h <;> simp at h
  · refine refused_in_run (e := .state) rfl htakes rfl rfl ?_ rfl
    change State.reqResume s v = _
    unfold State.reqResume
    rw [if_neg (by omega)]
    rcases hrefused with h | h
    · rw [if_pos h]
    · rw [if_neg (show v ≠ 0 by omega), if_neg h, ite_self]
  · refine resume_answered htakes h1 h12 hestop hstopped (ht.trans ?_)
    rw [State.resumeVehicle_driving hstopped hprior]
  · refine resume_answered htakes h1 h12 hestop hstopped (ht.trans ?_)
    rw [State.resumeVehicle_offered hstopped hprior, hbound]
    refine congrArg (State.close · s false) (State.sendGoAgain_some ?_ ?_).symm
    · exact ho
    · exact htarget
  · refine refused_in_run (e := .state) rfl htakes rfl rfl ?_ rfl
    change State.reqResume s 0 = _
    unfold State.reqResume
    rw [if_neg (by omega), if_pos hestop]
  · have hhalts : s.Halts s.allResumed := forEach_halts (fun k s => s.resumeVehicle_halts k) _ s
    refine ⟨_, s.allResumed, answered_in_run rfl htakes rfl rfl ?_, rfl, ?_, ?_, fun hnone => ?_, fun v h1 h12 =>
      ⟨State.allResumed_still, State.allResumed_driving (mem_allVehicles.2 ⟨h1, h12⟩), fun hstate hprior =>
        ⟨State.allResumed_offered (mem_allVehicles.2 ⟨h1, h12⟩) hstate hprior, fun n o target hbound ho htarget =>
          State.allResumed_goAgain (mem_allVehicles.2 ⟨h1, h12⟩) hstate hprior hbound ho htarget⟩⟩⟩
    · change State.reqResume s 0 = _
      unfold State.reqResume
      rw [if_neg (by omega), hestop]
      rfl
    · exact hhalts.apart
    · exact hhalts.locks
    · refine forEach_still fun k hk => ?_
      obtain ⟨hmem, hstopped⟩ := List.mem_filter.1 hk
      obtain ⟨h1, h12⟩ := mem_allVehicles.1 hmem
      exact absurd (of_decide_eq_true hstopped) (hnone k h1 h12)

end Sys2Proof.Machine
end

section
/-!
PROOF. JOIN (O32): the node and the load a rejoin reports, each taken on its own.
-/

namespace Sys2Proof.Machine

open Sys2Proof

variable {s t u w : State} {n v k z h r node load battery : Nat} {o : Order}

/-! ### The node of a rejoin (R67) -/

theorem State.rejoinNode_taken (hz : s.nodeZone node = some z) (hfree : s.holder z = none ∨ s.holder z = some v) : ∃ locks : Table Nat,
    s.rejoinNode v node = { s.setVeh v { s.veh v with node := node, zone := some z } with locks := locks } ∧
    ∀ y, locks.find y = if y = z then some v else s.holder y := by
  rcases hfree with hnone | hown
  · refine ⟨(s.giveZones v [z]).locks, ?_, fun y => ?_⟩
    · simp only [State.rejoinNode, hz, hnone]
      rfl
    · refine (s.holder_giveZones v y [z]).trans ?_
      simp only [List.mem_singleton]
  · refine ⟨s.locks, ?_, fun y => ?_⟩
    · simp only [State.rejoinNode, hz, hown, if_true]
      rfl
    · split
      case isTrue hy => rw [hy]; exact hown
      case isFalse => rfl

theorem State.rejoinNode_kept (hkept : ¬ ∃ z, s.nodeZone node = some z ∧ (s.holder z = none ∨ s.holder z = some v))
    (hholder : ∀ z, s.nodeZone node = some z → s.holder z = some h) (hnone : s.nodeZone node = none → h = 0) :
    s.rejoinNode v node = s.raiseFault v .conflict h 0 0 := by
  cases hz : s.nodeZone node with
  | none => simp only [State.rejoinNode, hz, hnone hz]
  | some z =>
    have hh := hholder z hz
    have hne : h ≠ v := fun hv => hkept ⟨z, hz, .inr (hv ▸ hh)⟩
    simp only [State.rejoinNode, hz, hh, if_neg hne]

/-! ### The load of a rejoin (R67) -/

/-- The vehicle has a verified load, and it is not the one reported. -/
def Vehicle.Differs (x : Vehicle) (load : Nat) : Prop := x.verified = true ∧ x.load ≠ none ∧ x.load ≠ some load

theorem State.rejoinLoad_differs (hd : (s.veh v).Differs load) : s.rejoinLoad v load =
    (s.setVeh v { s.veh v with faultCode := some .load }).raise (.vehicleFault v .load (s.veh v).node ((s.veh v).load.getD 0)
      ((s.veh v).order.getD 0) 0 ((s.veh v).load.getD 0) load) := by
  obtain ⟨hverified, hsome, hne⟩ := hd
  obtain ⟨r, hr⟩ := Option.ne_none_iff_exists'.1 hsome
  have hload : load ≠ r := fun hl => hne (by rw [hr, hl])
  unfold State.rejoinLoad
  dsimp only
  split
  case h_1 r' hr' _ =>
    obtain rfl := Option.some.inj (hr.symm.trans hr')
    rw [if_neg hload, State.raiseFault, State.onVeh_veh_same]
    have hget : r = (s.veh v).load.getD 0 := by rw [hr]; rfl
    dsimp only
    rw [hget]
    rfl
  case h_2 hno => exact absurd hverified (hno r hr)

theorem State.rejoinLoad_same (hverified : (s.veh v).verified = true) (hload : (s.veh v).load = some load) : s.rejoinLoad v load = s := by
  unfold State.rejoinLoad
  dsimp only
  split
  case h_1 r hr _ =>
    obtain rfl := Option.some.inj (hload.symm.trans hr)
    exact if_pos rfl
  case h_2 hno => exact absurd hverified (hno load hload)

theorem State.rejoinLoad_taken (h : ¬ ((s.veh v).verified = true ∧ (s.veh v).load ≠ none)) : s.rejoinLoad v load = s.takeLoad v load := by
  unfold State.rejoinLoad
  dsimp only
  split
  case h_1 r hr hverified => exact absurd ⟨hverified, by rw [hr]; simp⟩ h
  case h_2 => rfl

/-- The vehicle with the load of its JOIN: a verified one is kept, any other is taken and checked. -/
def Vehicle.withLoad (x : Vehicle) (load : Nat) (matched : Bool) : Vehicle :=
  { x with
    load := if x.verified = true ∧ x.load ≠ none then x.load else if load = 0 then none else some load
    verified := if x.verified = true ∧ x.load ≠ none then true else matched && decide (load ≠ 0) }

theorem State.rejoinLoad_spec {differs : Bool} (hdiffers : differs = true ↔ (s.veh v).Differs load) :
    (s.rejoinLoad v load).veh v = { (s.veh v).withLoad load (s.loadMatches v load) with
      faultCode := if differs = true then some .load else (s.veh v).faultCode } ∧
    (∀ k, k ≠ v → (s.rejoinLoad v load).veh k = s.veh k) ∧
    s.rejoinLoad v load = { s with vehicles := (s.rejoinLoad v load).vehicles, notices := (s.rejoinLoad v load).notices } ∧
    (s.rejoinLoad v load).notices = (if differs = true then s.raise (.vehicleFault v .load (s.veh v).node ((s.veh v).load.getD 0)
      ((s.veh v).order.getD 0) 0 ((s.veh v).load.getD 0) load) else s).notices := by
  by_cases hverified : (s.veh v).verified = true ∧ (s.veh v).load ≠ none
  · have hkept : (s.veh v).withLoad load (s.loadMatches v load) = s.veh v := by
      unfold Vehicle.withLoad
      rw [if_pos hverified, if_pos hverified, ← hverified.1]
    rw [hkept]
    cases differs with
    | true =>
      rw [State.rejoinLoad_differs (hdiffers.1 rfl), if_pos rfl, if_pos rfl, State.raise_eq]
      refine ⟨State.veh_setVeh_same _ _ _, fun k hk => State.veh_setVeh_other _ hk _, rfl, ?_⟩
      refine State.raise_notices_congr (t := s) ?_ ?_ _ <;> rfl
    | false =>
      have hload : (s.veh v).load = some load := by
        by_contra hne
        exact Bool.false_ne_true (hdiffers.2 ⟨hverified.1, hverified.2, hne⟩)
      rw [State.rejoinLoad_same hverified.1 hload]
      exact ⟨rfl, fun _ _ => rfl, rfl, rfl⟩
  · have hd : differs = false := by
      cases differs with
      | false => rfl
      | true =>
        obtain ⟨h1, h2, -⟩ := hdiffers.1 rfl
        exact absurd ⟨h1, h2⟩ hverified
    rw [State.rejoinLoad_taken hverified, hd]
    refine ⟨?_, fun k hk => State.veh_setVeh_other _ hk _, rfl, rfl⟩
    unfold Vehicle.withLoad
    rw [if_neg hverified, if_neg hverified]
    exact State.onVeh_veh_same _ _ _

/-! ### The whole of a rejoin -/

/-- The part after a rejoin's FAULTED entry, the battery taken. -/
def State.charged (s : State) (v battery : Nat) : State := s.setVeh v { s.veh v with battery := min battery 100 }

theorem State.rejoin_eq (s : State) (v node load battery : Nat) : s.rejoin v node load battery =
    (((s.faultVehicle v .link true).charged v battery).rejoinNode v node).rejoinLoad v load := rfl

/-- What a rejoin's node leaves: the vehicle where it stands, its zone held, a CONFLICT where the node was not free. -/
theorem State.rejoinNode_spec {taken : Bool} {stand : Nat} {zone : Option Nat}
    (htaken : taken = true ↔ ∃ z, s.nodeZone node = some z ∧ (s.holder z = none ∨ s.holder z = some v))
    (hholder : ∀ z, taken = false → s.nodeZone node = some z → s.holder z = some h) (hnone : s.nodeZone node = none → h = 0)
    (hstand : (stand, zone) = if taken = true then (node, s.nodeZone node) else ((s.veh v).node, (s.veh v).zone)) :
    (s.rejoinNode v node).veh v = { s.veh v with node := stand, zone := zone } ∧ (∀ k, k ≠ v → (s.rejoinNode v node).veh k = s.veh k) ∧
    s.rejoinNode v node = { s with
      vehicles := (s.rejoinNode v node).vehicles, locks := (s.rejoinNode v node).locks, notices := (s.rejoinNode v node).notices } ∧
    (∀ y, (s.rejoinNode v node).holder y = if taken = true ∧ s.nodeZone node = some y then some v else s.holder y) ∧
    (s.rejoinNode v node).notices = (if taken = true then s else
      s.raise (.vehicleFault v .conflict (s.veh v).node ((s.veh v).load.getD 0) ((s.veh v).order.getD 0) h 0 0)).notices := by
  cases taken with
  | true =>
    obtain ⟨z, hz, hfree⟩ := htaken.1 rfl
    obtain ⟨locks, hnode, hlocks⟩ := State.rejoinNode_taken hz hfree
    rw [if_pos rfl] at hstand
    obtain ⟨rfl, rfl⟩ := Prod.mk.inj hstand
    rw [hnode, hz]
    refine ⟨State.veh_setVeh_same _ _ _, fun k hk => State.veh_setVeh_other _ hk _, rfl, fun y => (hlocks y).trans ?_, rfl⟩
    exact if_congr (by simp [eq_comm]) rfl rfl
  | false =>
    rw [if_neg Bool.false_ne_true] at hstand
    obtain ⟨rfl, rfl⟩ := Prod.mk.inj hstand
    rw [State.rejoinNode_kept (fun hex => Bool.false_ne_true (htaken.2 hex)) (fun z hz => hholder z rfl hz) hnone, State.raiseFault, State.raise_eq]
    exact ⟨rfl, fun _ _ => rfl, rfl, fun y => (if_neg fun h => Bool.false_ne_true h.1).symm, rfl⟩

theorem State.joinFrame_run (h1 : 1 ≤ v) (h12 : v ≤ 12) (hrun : s.link.phase = .run) (habsent : (s.veh v).state ≠ .absent) :
    s.joinFrame v node load battery =
      ((s.heardFrom v).rejoin v node load battery).close s (batteryRose s ((s.heardFrom v).rejoin v node load battery) v) := by
  unfold State.joinFrame
  rw [if_pos (vehicleOk_iff.2 ⟨h1, h12⟩), if_neg (by rw [hrun]; simp), if_neg habsent]
  rfl

theorem State.joinFrame_absent (h1 : 1 ≤ v) (h12 : v ≤ 12) (hrun : s.link.phase = .run) (habsent : (s.veh v).state = .absent) :
    s.joinFrame v node load battery = (s.joinAbsent v node load battery).close s false := by
  unfold State.joinFrame
  rw [if_pos (vehicleOk_iff.2 ⟨h1, h12⟩), if_neg (by rw [hrun]; simp), if_pos habsent]

theorem exec_join (s : State) (v node load battery : Nat) :
    exec (.join v node load battery) s = .next (s.joinFrame v node load battery).transmit := rfl

/-- The FAULTED entry of a rejoin, its order's leg lost and its HALT queued (R66). -/
theorem State.rejoin_faulted (s : State) (v : Nat) : (s.heardFrom v).faultVehicle v .link true =
    (if (s.veh v).state = .faulted ∨ (s.veh v).state = .lost then (s.heardFrom v).faulting v .link
      else ((s.heardFrom v).faulting v .link).loseLeg v).queueHalt v := by
  rw [State.faultVehicle_eq, if_pos rfl, State.heardFrom_veh]
  by_cases h : (s.veh v).state = .faulted ∨ (s.veh v).state = .lost
  · rw [if_pos h, if_neg]
    rcases h with h | h <;> simp [VehicleState.sound, h]
  · obtain ⟨hf, hl⟩ := not_or.1 h
    rw [if_neg h, if_pos]
    simp [VehicleState.sound, hf, hl]

theorem State.rejoin_faulted_veh (s : State) (v : Nat) : ∃ order, (order = (s.veh v).order ∨ order = none) ∧
    ((s.heardFrom v).faultVehicle v .link true).veh v = { s.veh v with
      silenceMs := 0, sinceFrameMs := 0, state := .faulted, prior := none, faultCode := some .link, offerMs := none, leg := none
      order := order } := by
  have hlose : ((s.heardFrom v).faulting v .link).Stays ((s.heardFrom v).faultVehicle v .link true) v := by
    rw [State.rejoin_faulted]
    split
    · exact State.queueHalt_stays _ v v
    · exact (State.loseLeg_stays _ v v).trans (State.queueHalt_stays _ v v)
  obtain ⟨order, hveh⟩ := hlose.of_not_stopped (by rw [State.faulting_veh]; simp)
  have horder := hlose.order
  rw [hveh, State.faulting_veh, State.heardFrom_veh] at horder
  exact ⟨order, horder, by rw [hveh, State.faulting_veh, State.heardFrom_veh]⟩

/-- Settles O32: the leg is lost before the node and the load are looked at, and neither of them touches the orders. -/
theorem joinFrame : Obligations.JoinFrame := by
  unfold Obligations.JoinFrame
  refine fun s v node load battery h1 h12 => ⟨fun z hrun habsent hz hfree => ?_, fun h hrun habsent hconflict => ?_, fun hconfig => ?_,
    fun x w₀ w w₁ taken differs h stand zone hrun hx habsent hw₀ hw htaken hholder hnone hw₁ hstand hdiffers => ?_⟩
  · have hjoin : s.joinAbsent v node load battery =
        ((s.setVeh v { Vehicle.absentSlot with state := .idle, node := node, zone := some z, battery := min battery 100 }).giveZones v [z]).takeLoad
          v load := by
      simp only [State.joinAbsent, hz, hfree]
    refine ⟨s.joinAbsent v node load battery, ?_, ?_⟩
    · rw [exec_join, State.joinFrame_absent h1 h12 hrun habsent]
    rw [hjoin]
    refine ⟨?_, fun k hk => ?_, ?_, fun y hy => ?_, rfl, rfl, rfl, rfl, rfl, rfl, rfl⟩
    · refine (State.onVeh_veh_same _ v _).trans ?_
      have hveh : ((s.setVeh v { Vehicle.absentSlot with state := .idle, node := node, zone := some z, battery := min battery 100 }).giveZones v
          [z]).veh v = { Vehicle.absentSlot with state := .idle, node := node, zone := some z, battery := min battery 100 } :=
        State.veh_setVeh_same _ _ _
      rw [hveh]
      rfl
    · exact (State.onVeh_veh_other _ hk _).trans (State.veh_setVeh_other _ hk _)
    · exact (State.holder_giveZones _ v z [z]).trans (if_pos (List.mem_singleton_self z))
    · exact (State.holder_giveZones _ v y [z]).trans (if_neg (by simpa using hy))
  · rw [exec_join, State.joinFrame_absent h1 h12 hrun habsent]
    rcases hconflict with ⟨hz, rfl⟩ | ⟨z, hz, hh⟩
    · simp only [State.joinAbsent, hz]
    · simp only [State.joinAbsent, hz, hh]
  · rw [exec_join]
    unfold State.joinFrame
    rw [if_pos (vehicleOk_iff.2 ⟨h1, h12⟩), if_pos hconfig]
  · subst hx
    have hw' : w = (s.heardFrom v).faultVehicle v .link true := by
      rw [hw, hw₀, State.rejoin_faulted, State.heardFrom_faulting]
      rfl
    obtain ⟨order, horder, hveh⟩ := s.rejoin_faulted_veh v
    rw [← hw'] at hveh
    have hbound : (w.veh v).order = order := by rw [hveh]
    have hnodes : (w.charged v battery).nodeZone = s.nodeZone := by
      have hmoves : Moves s w := by
        rw [hw']
        exact Moves.faultVehicle (s.heardFrom_moves v) v _ _
      have hn : w.nodes = s.nodes := congrArg Apart.nodes hmoves.apart
      funext y
      exact congrArg (fun t : Table Node => (t.find y).map _) hn
    have hcharged : (w.charged v battery).veh v = { w.veh v with battery := min battery 100 } := State.veh_setVeh_same _ _ _
    have hcharged' (k : Nat) (hk : k ≠ v) : (w.charged v battery).veh k = w.veh k := State.veh_setVeh_other _ hk _
    obtain ⟨y, hy⟩ : ∃ y, y = (w.charged v battery).rejoinNode v node := ⟨_, rfl⟩
    have hnode := State.rejoinNode_spec (s := w.charged v battery) (v := v) (node := node) (h := h) (stand := stand)
      (zone := zone) (by rw [hnodes]; exact htaken) (by rw [hnodes]; exact hholder) (by rw [hnodes]; exact hnone)
      (by rw [hnodes, hcharged, hveh]; exact hstand)
    rw [← hy, hnodes, hcharged, hveh] at hnode
    obtain ⟨hyveh, hyother, hyrest, hyholder, hynotices⟩ := hnode
    have hload := State.rejoinLoad_spec (s := y) (v := v) (load := load) (differs := differs) (by rw [hyveh]; exact hdiffers)
    have hmatched : y.loadMatches v load = w.loadMatches v load := by rw [hyrest]; rfl
    rw [hmatched, hyveh] at hload
    obtain ⟨hveh', hother', hrest', hnotices'⟩ := hload
    have hu : s.joinFrame v node load battery = (y.rejoinLoad v load).close s (batteryRose s (y.rejoinLoad v load) v) := by
      rw [State.joinFrame_run h1 h12 hrun habsent, State.rejoin_eq, ← hw', ← hy]
    have hapart : (y.rejoinLoad v load).apart = s.apart := by
      have hmoves := (Moves.rejoin (s.heardFrom_moves v) v node load battery).apart
      rwa [State.rejoin_eq, ← hw', ← hy] at hmoves
    have hrose := batteryRose_eq (s := s) (u := y.rejoinLoad v load) (v := v) (level := min battery 100) (by rw [hveh']; rfl) hapart
    have hclock : w₁.clock = w.clock ∧ y.notices = w₁.notices := by
      rw [hw₁, hynotices, hbound]
      cases taken with
      | true => exact ⟨rfl, rfl⟩
      | false => exact ⟨by rw [if_neg Bool.false_ne_true, State.raise_eq], State.raise_notices_congr (s := w.charged v battery) (t := w) rfl rfl _⟩
    have hyclock : y.clock = w.clock := by rw [hyrest]; rfl
    obtain ⟨order', ht⟩ := (y.rejoinLoad v load).close_veh s (batteryRose s (y.rejoinLoad v load) v) v
    have hclosed : ((y.rejoinLoad v load).close s (batteryRose s (y.rejoinLoad v load) v)).apart = s.apart :=
      ((State.close_passed _ s _).apart).trans hapart
    refine ⟨_, y.rejoinLoad v load, by rw [exec_join, hu], by rw [← hrose], ?_, by rw [hbound]; exact horder, fun k hk => ?_, fun z => ?_, ?_,
      ?_, ?_, ?_, ?_, ?_, ?_, ?_, ?_, ?_, ?_, ?_, ?_, ?_, hclosed⟩
    · rw [hveh', hbound]
      cases differs <;> rfl
    · rw [hother' k hk, hyother k hk, hcharged' k hk]
    · rw [hrest']
      exact hyholder z
    · rw [hnotices', hbound]
      cases differs with
      | true => exact State.raise_notices_congr hclock.2 (hyclock.trans hclock.1.symm) _
      | false => exact hclock.2
    · rw [hrest', hyrest]
      rfl
    · rw [hrest', hyrest]
      rfl
    · rw [hrest', hyrest]
      rfl
    · rw [hrest', hyrest]
      rfl
    · rw [hrest', hyrest]
      rfl
    all_goals
      rw [ht, hveh']
      cases differs <;> rfl

end Sys2Proof.Machine
end

section
/-!
PROOF. Frames: a field read back from its bytes, a request from its payload, and what the receiver finds in a frame (R166 to R168, R192).
-/

namespace Sys2Proof.Machine

open Sys2Proof

variable {s t u : State} {n m k w addr kind tag : Nat} {p body more bs : Bytes} {len : Byte} {q : Request}

/-! ### Fields (R192) -/

theorem readNat_be1 (h : n < 256) : readNat (be1 n) = n := by
  simp only [readNat, be1, List.foldl_cons, List.foldl_nil, BitVec.toNat_ofNat]
  omega

theorem readNat_be2 (h : n < 65536) : readNat (be2 n) = n := by
  simp only [readNat, be2, List.foldl_cons, List.foldl_nil, BitVec.toNat_ofNat]
  omega

theorem readNat_be4 (h : n < 4294967296) : readNat (be4 n) = n := by
  simp only [readNat, be4, List.foldl_cons, List.foldl_nil, BitVec.toNat_ofNat]
  omega

/-- A field of a payload: its width and its number (12.3). -/
inductive Field where
  | byte (n : Nat)
  | pair (n : Nat)
  | quad (n : Nat)

def Field.width : Field → Nat
  | .byte _ => 1
  | .pair _ => 2
  | .quad _ => 4

def Field.value : Field → Nat
  | .byte n | .pair n | .quad n => n

def Field.bytes : Field → Bytes
  | .byte n => be1 n
  | .pair n => be2 n
  | .quad n => be4 n

def Field.fits : Field → Bool
  | .byte n => inByte n
  | .pair n => inPair n
  | .quad n => inQuad n

theorem Field.bytes_length (f : Field) : f.bytes.length = f.width := by cases f <;> rfl

theorem Field.width_le (f : Field) : f.width ≤ 4 := by cases f <;> simp [Field.width]

theorem Field.readNat_bytes {f : Field} (h : f.fits = true) : readNat f.bytes = f.value := by
  cases f with
  | byte n => exact readNat_be1 (of_decide_eq_true h)
  | pair n => exact readNat_be2 (of_decide_eq_true h)
  | quad n => exact readNat_be4 (of_decide_eq_true h)

/-- The numbers of a payload are read back from its bytes. -/
theorem fields_bytes : ∀ {fs : List Field}, (∀ f ∈ fs, f.fits = true) →
    fields (fs.map Field.width) (fs.flatMap Field.bytes) = some (fs.map Field.value)
  | [], _ => rfl
  | f :: fs, h => by
    have hlength := f.bytes_length
    have hrest := fields_bytes fun g hg => h g (List.mem_cons_of_mem _ hg)
    simp only [List.map_cons, List.flatMap_cons, fields]
    rw [if_neg (by rw [List.length_append]; omega), List.drop_left' hlength, List.take_left' hlength, hrest,
      Field.readNat_bytes (h f List.mem_cons_self)]
    rfl

/-! ### Requests (12.3) -/

def reelFields (d : ReelData) : List Field := [.quad d.id, .byte d.grade, .byte d.width, .pair d.diameter, .byte d.caliper, .pair d.mass]

def paramFields (q : Params) : List Field :=
  [.pair q.spliceDiameter, .byte q.coreDiameter, .pair q.returnDiameter, .quad q.accelLength, .quad q.armLength, .pair q.fireLength,
    .pair q.pasteToCut, .pair q.confirmLength, .pair q.pastePulse, .pair q.cutPulse, .byte q.matchTolerance, .pair q.matchHold,
    .pair q.leadTime, .quad q.callOffLength, .pair q.urgentMargin, .pair q.tensionSetpoint]

/-- The fields of a request of fixed length, in the order of 12.3's rows; DEFROUTE and ENVSET have none. -/
def layoutOf : Request → List Field
  | .ident | .status | .restart | .commit => []
  | .setclock v => [.quad v]
  | .defnode n z k => [.byte n, .byte z, .byte k]
  | .defbay b n h => [.byte b, .byte n, .byte h]
  | .defroute .. => []
  | .defpos p n e => [.byte p, .byte n, .byte e]
  | .intake d n b => reelFields d ++ [.byte n, .byte b]
  | .restock d o a b l => reelFields d ++ [.byte o, .quad a, .byte b, .byte l]
  | .reelinfo r m => [.quad r, .byte m]
  | .remove r => [.quad r]
  | .resttime g m => [.byte g, .pair m]
  | .bayinfo b m => [.byte b, .byte m]
  | .deliver p r q => [.byte p, .quad r, .byte q]
  | .relocate r b q => [.quad r, .byte b, .byte q]
  | .ret p a b q => [.byte p, .byte a, .byte b, .byte q]
  | .clear p a q => [.byte p, .byte a, .byte q]
  | .park v n q => [.byte v, .byte n, .byte q]
  | .cancel t => [.pair t]
  | .resolve t a => [.pair t, .byte a]
  | .orderinfo t m => [.pair t, .byte m]
  | .halt v | .resume v | .retire v | .vehinfo v => [.byte v]
  | .vehcfg o h b z => [.byte o, .byte h, .byte b, .pair z]
  | .poscfg p q => .byte p :: paramFields q
  | .demand p g w => [.byte p, .byte g, .byte w]
  | .thread p a | .buttoff p a | .prepared p a | .splicefix p a => [.byte p, .byte a]
  | .loadreel p a d => [.byte p, .byte a] ++ reelFields d ++ [.byte 0]
  | .unload p | .posinfo p | .splicenow p => [.byte p]
  | .linecfg l st f => [.byte l, .byte st, .byte f]
  | .lineinfo l | .runend l | .runinfo l => [.byte l]
  | .envset .. => []
  | .envsel l a sa b sb => [.byte l, .byte a, .pair sa, .byte b, .pair sb]
  | .envinfo k n => [.byte k, .pair n]
  | .runstart l n t => [.byte l, .quad n, .quad t]
  | .splicelist l n => [.byte l, .byte n]
  | .noticecfg k m v => [.byte k, .byte m, .byte v]

/-- A request of fixed length (12.3). -/
def isFixed : Request → Bool
  | .defroute .. | .envset .. => false
  | _ => true

theorem requestPayload_eq (h : isFixed q = true) : requestPayload q = (layoutOf q).flatMap Field.bytes := by
  cases q <;> cases h <;> rfl

theorem widthsOf_kindOf (h : isFixed q = true) : widthsOf (kindOf q) = some ((layoutOf q).map Field.width) := by
  cases q <;> cases h <;> rfl

theorem requestOf_layout (h : isFixed q = true) : requestOf (kindOf q) ((layoutOf q).map Field.value) = some q := by
  cases q <;> cases h <;> rfl

theorem reelFields_fits {d : ReelData} : d.fits = true ↔ ∀ f ∈ reelFields d, f.fits = true := by
  simp [ReelData.fits, reelFields, Field.fits, and_assoc]

theorem paramFields_fits {q : Params} : q.fits = true ↔ ∀ f ∈ paramFields q, f.fits = true := by
  simp [Params.fits, paramFields, Field.fits, and_assoc]

theorem layoutOf_fits (h : q.fits = true) : ∀ f ∈ (layoutOf q), f.fits = true := by
  cases q <;> simp_all [Request.fits, layoutOf, reelFields_fits, paramFields_fits, Field.fits, inByte, or_imp]

theorem readRequest_fixed (hfixed : isFixed q = true) (h : q.fits = true) : readRequest (kindOf q) (requestPayload q) = some q := by
  have hread : ((widthsOf (kindOf q)).bind fun ws => fields ws (requestPayload q)).bind (requestOf (kindOf q)) = some q := by
    rw [widthsOf_kindOf hfixed, requestPayload_eq hfixed, Option.bind_some, fields_bytes (layoutOf_fits h)]
    exact requestOf_layout hfixed
  have hroute : kindOf q ≠ 0x0A := by cases q <;> cases hfixed <;> simp [kindOf]
  have henvset : kindOf q ≠ 0x3A := by cases q <;> cases hfixed <;> simp [kindOf]
  unfold readRequest
  split
  case h_1 h => exact absurd h hroute
  case h_2 h => exact absurd h henvset
  case h_3 => exact hread

/-- The bytes of a list of one-byte numbers, read back. -/
theorem map_toNat_flatten : ∀ {ns : List Nat}, (∀ n ∈ ns, n < 256) → ((ns.map be1).flatten).map BitVec.toNat = ns
  | [], _ => rfl
  | n :: ns, h => by
    have hrest := map_toNat_flatten fun m hm => h m (List.mem_cons_of_mem _ hm)
    have hn : (BitVec.ofNat 8 n).toNat = n := by
      rw [BitVec.toNat_ofNat]
      exact Nat.mod_eq_of_lt (h n List.mem_cons_self)
    simp only [List.map_cons, List.flatten_cons, be1, List.cons_append, List.nil_append, hn]
    exact congrArg (n :: ·) hrest

theorem flatten_be1_length (ns : List Nat) : ((ns.map be1).flatten).length = ns.length := by
  induction ns with
  | nil => rfl
  | cons n ns ih => simp [ih, be1]

theorem readRequest_defroute {a b l : Nat} {zs : List Nat} (h : (Request.defroute a b l zs).fits = true) :
    readRequest 0x0A (requestPayload (.defroute a b l zs)) = some (.defroute a b l zs) := by
  simp only [Request.fits, Bool.and_eq_true, List.all_eq_true, decide_eq_true_eq, inByte, inPair] at h
  obtain ⟨⟨⟨⟨ha, hb⟩, hl⟩, hzs⟩, hcount⟩ := h
  have hhead : fields [1, 1, 2, 1] (be1 a ++ be1 b ++ be2 l ++ be1 zs.length) = some [a, b, l, zs.length] := by
    have hfits : ∀ f ∈ [Field.byte a, Field.byte b, Field.pair l, Field.byte zs.length], f.fits = true := by
      simp [Field.fits, inByte, inPair, ha, hb, hl]
      omega
    exact fields_bytes hfits
  change readRoute (be1 a ++ be1 b ++ be2 l ++ be1 zs.length ++ (zs.map be1).flatten) = _
  have htake : (be1 a ++ be1 b ++ be2 l ++ be1 zs.length ++ (zs.map be1).flatten).take 5 = be1 a ++ be1 b ++ be2 l ++ be1 zs.length :=
    List.take_left' rfl
  have hdrop : (be1 a ++ be1 b ++ be2 l ++ be1 zs.length ++ (zs.map be1).flatten).drop 5 = (zs.map be1).flatten := List.drop_left' rfl
  have hlength : (be1 a ++ be1 b ++ be2 l ++ be1 zs.length ++ (zs.map be1).flatten).length = 5 + zs.length := by
    rw [List.length_append, flatten_be1_length]
    rfl
  simp only [readRoute, htake, hhead, hdrop, hlength, map_toNat_flatten hzs]
  exact if_pos ⟨hcount, trivial⟩

theorem readSigned_ofInt {i : Int} (h1 : -128 ≤ i) (h2 : i ≤ 127) : readSigned (BitVec.ofInt 8 i) = i := by
  unfold readSigned
  rw [BitVec.toInt_ofInt]
  exact Int.bmod_eq_of_le (by simpa using h1) (by simp; omega)

theorem fields_slot_action {a : Nat} (hk : k < 256) (ha : a < 256) (rest : Bytes) :
    fields [1, 1] ((be1 k ++ be1 a ++ rest).take 2) = some [k, a] := by
  have hfits : ∀ f ∈ [Field.byte k, Field.byte a], f.fits = true := by simp [Field.fits, inByte, hk, ha]
  have htake : (be1 k ++ be1 a ++ rest).take 2 = be1 k ++ be1 a := List.take_left' rfl
  rw [htake]
  exact fields_bytes hfits

theorem readRequest_envset {a : Nat} {cs ls : List Nat} {o : Int} (h : (Request.envset k a cs ls o).fits = true) :
    readRequest 0x3A (requestPayload (.envset k a cs ls o)) = some (.envset k a cs ls o) := by
  simp only [Request.fits, envsetFits, Bool.and_eq_true, Bool.or_eq_true, List.all_eq_true, decide_eq_true_eq, inByte] at h
  obtain ⟨hk, ⟨⟨⟨⟨⟨⟨ha, hcs⟩, hls⟩, hcodes⟩, hlevels⟩, ho1⟩, ho2⟩ | ⟨⟨⟨ha, hcs⟩, hls⟩, ho⟩⟩ := h
  · subst ha
    have hpayload : requestPayload (.envset k 1 cs ls o) = be1 k ++ be1 1 ++ ((cs.map be1).flatten ++ ((ls.map be1).flatten ++ signedByte o)) := by
      simp [requestPayload]
    have hcsl : ((cs.map be1).flatten).length = 12 := (flatten_be1_length cs).trans hcs
    have hlsl : ((ls.map be1).flatten).length = 12 := (flatten_be1_length ls).trans hls
    have hdrop2 : (requestPayload (.envset k 1 cs ls o)).drop 2 = (cs.map be1).flatten ++ ((ls.map be1).flatten ++ signedByte o) := by
      rw [hpayload]
      exact List.drop_left' rfl
    have hdrop14 : (requestPayload (.envset k 1 cs ls o)).drop 14 = (ls.map be1).flatten ++ signedByte o := by
      have hsplit : (14 : Nat) = 2 + 12 := rfl
      rw [hsplit, ← List.drop_drop, hdrop2, List.drop_left' hcsl]
    have hdrop26 : (requestPayload (.envset k 1 cs ls o)).drop 26 = signedByte o := by
      have hsplit : (26 : Nat) = 14 + 12 := rfl
      rw [hsplit, ← List.drop_drop, hdrop14, List.drop_left' hlsl]
    have hlength : (requestPayload (.envset k 1 cs ls o)).length = 27 := by
      rw [hpayload]
      simp [hcsl, hlsl, signedByte]
    have hoffset : (requestPayload (.envset k 1 cs ls o)).getD 26 0#8 = BitVec.ofInt 8 o := by
      have hget := List.getElem?_drop (xs := requestPayload (.envset k 1 cs ls o)) (i := 26) (j := 0)
      rw [hdrop26] at hget
      rw [List.getD_eq_getElem?_getD, ← hget]
      rfl
    have hhead : fields [1, 1] ((requestPayload (.envset k 1 cs ls o)).take 2) = some [k, 1] := by
      rw [hpayload]
      exact fields_slot_action hk (by omega) _
    change readEnvset (requestPayload (.envset k 1 cs ls o)) = _
    simp only [readEnvset, hhead, hlength, hdrop2, hdrop14, hoffset, List.take_left' hcsl, List.take_left' hlsl, map_toNat_flatten hcodes,
      map_toNat_flatten hlevels, readSigned_ofInt ho1 ho2]
    rfl
  · subst ha hcs hls ho
    have hhead := fields_slot_action (a := 2) hk (by omega) []
    change readEnvset (be1 k ++ be1 2 ++ []) = _
    simp only [readEnvset, hhead]
    rfl

/-- A request is read back from its payload (R192). -/
theorem readRequest_payload (h : q.fits = true) : readRequest (kindOf q) (requestPayload q) = some q := by
  cases hfixed : isFixed q with
  | true => exact readRequest_fixed hfixed h
  | false =>
    cases q with
    | defroute a b l zs => exact readRequest_defroute h
    | envset k a cs ls o => exact readRequest_envset h
    | _ => cases hfixed

theorem kindOf_mem (q : Request) : kindOf q ∈ requestKinds := by cases q <;> simp [kindOf, requestKinds]

theorem kindOf_lt (q : Request) : kindOf q < 256 := by cases q <;> simp [kindOf]

theorem layoutOf_length (q : Request) : (layoutOf q).length ≤ 17 := by cases q <;> simp [layoutOf, reelFields, paramFields]

theorem flatMap_bytes_length (fs : List Field) : (fs.flatMap Field.bytes).length ≤ 4 * fs.length := by
  induction fs with
  | nil => simp
  | cons f fs ih =>
    have := f.width_le
    simp only [List.flatMap_cons, List.length_append, List.length_cons, f.bytes_length]
    omega

theorem requestPayload_length (h : q.fits = true) : (requestPayload q).length ≤ 240 := by
  cases hfixed : isFixed q with
  | true =>
    have hbytes := flatMap_bytes_length (layoutOf q)
    have hcount := layoutOf_length q
    rw [requestPayload_eq hfixed]
    omega
  | false =>
    cases q with
    | defroute a b l zs =>
      simp only [Request.fits, Bool.and_eq_true, decide_eq_true_eq] at h
      obtain ⟨-, hcount⟩ := h
      simp only [requestPayload, List.length_append, flatten_be1_length, be1_length, be2_length]
      omega
    | envset k a cs ls o =>
      simp only [Request.fits, envsetFits, Bool.and_eq_true, Bool.or_eq_true, decide_eq_true_eq] at h
      obtain ⟨-, ⟨⟨⟨⟨⟨⟨-, hcs⟩, hls⟩, -⟩, -⟩, -⟩, -⟩ | ⟨⟨⟨ha, -⟩, -⟩, -⟩⟩ := h
      · simp only [requestPayload, List.length_append, be1_length]
        split
        · simp only [List.length_append, flatten_be1_length, signedByte, List.length_cons, List.length_nil]
          omega
        · simp
      · subst ha
        simp [requestPayload]
    | _ => cases hfixed

/-! ### The receiver (R166 to R168) -/

theorem scan_nil (addr n : Nat) : scan addr n [] = ([], []) := by cases n <;> rfl

/-- Bytes without a sync byte give nothing and are not held. -/
theorem scan_of_no_sync (addr : Nat) : ∀ {n : Nat} {bs : Bytes}, bs.length ≤ n → syncByte ∉ bs → scan addr n bs = ([], [])
  | n, [], _, _ => scan_nil addr n
  | n + 1, b :: bs, hn, hb => by
    have hrest := scan_of_no_sync addr (n := n) (bs := bs) (Nat.le_of_succ_le_succ hn) fun h => hb (List.mem_cons_of_mem _ h)
    have hne : ¬ b = syncByte := fun h => hb (h ▸ List.mem_cons_self)
    unfold scan
    rw [if_neg hne, hrest]

section
variable (hlen : len.toNat ≤ 240) (hbody : body.length = 3 + addr + len.toNat)
include hlen hbody

theorem scan_judged_bad (hjudged : judgeFrame addr len (body ++ more) = .badCheck) (n : Nat) :
    scan addr (n + 1) (syncByte :: len :: (body ++ more)) =
      (.badCheck :: (scan addr n (len :: (body ++ more))).1, (scan addr n (len :: (body ++ more))).2) := by
  conv_lhs => unfold scan
  rw [if_pos rfl]
  dsimp only
  rw [if_neg (by omega), if_neg (by rw [List.length_append]; omega), hjudged]

theorem scan_judged_whole {place : Nat} (hjudged : judgeFrame addr len (body ++ more) = .whole kind place p) (n : Nat) :
    scan addr (n + 1) (syncByte :: len :: (body ++ more)) = (.whole kind place p :: (scan addr n more).1, (scan addr n more).2) := by
  have hdrop : (body ++ more).drop (3 + addr + len.toNat) = more := List.drop_left' hbody
  conv_lhs => unfold scan
  rw [if_pos rfl]
  dsimp only
  rw [if_neg (by omega), if_neg (by rw [List.length_append]; omega), hdrop, hjudged]

theorem judgeFrame_append (more : Bytes) : judgeFrame addr len (body ++ more) = judgeFrame addr len body := by
  have htake : (body ++ more).take (1 + addr + len.toNat) = body.take (1 + addr + len.toNat) := List.take_append_of_le_length (by omega)
  have hcheck : ((body ++ more).drop (1 + addr + len.toNat)).take 2 = (body.drop (1 + addr + len.toNat)).take 2 := by
    rw [List.drop_append_of_le_length (by omega), List.take_append_of_le_length (by rw [List.length_drop]; omega)]
  have hkind : (body ++ more).take 1 = body.take 1 := List.take_append_of_le_length (by omega)
  have haddr : ((body ++ more).drop 1).take addr = (body.drop 1).take addr := by
    rw [List.drop_append_of_le_length (by omega), List.take_append_of_le_length (by rw [List.length_drop]; omega)]
  simp only [judgeFrame, htake, hcheck, hkind, haddr]

theorem scan_bad (hcheck : crcBytes (len :: body.take (1 + addr + len.toNat)) ≠ body.drop (1 + addr + len.toNat)) (n : Nat) (more : Bytes) :
    scan addr (n + 1) (syncByte :: len :: (body ++ more)) =
      (.badCheck :: (scan addr n (len :: (body ++ more))).1, (scan addr n (len :: (body ++ more))).2) := by
  have hjudged : judgeFrame addr len (body ++ more) = .badCheck := by
    rw [judgeFrame_append hlen hbody]
    have htwo : (body.drop (1 + addr + len.toNat)).take 2 = body.drop (1 + addr + len.toNat) :=
      List.take_of_length_le (by rw [List.length_drop]; omega)
    unfold judgeFrame
    dsimp only
    rw [htwo, if_neg hcheck]
  exact scan_judged_bad hlen hbody hjudged n

end

/-- A frame with its right check, alone (R167). -/
theorem scan_whole {place : Bytes} (hplace : place.length = addr) (hkind : kind < 256) (hp : p.length ≤ 240) (n : Nat) :
    scan addr (n + 1) (syncByte :: ((be1 p.length ++ be1 kind ++ place ++ p) ++ crcBytes (be1 p.length ++ be1 kind ++ place ++ p))) =
      ([.whole kind (readNat place) p], []) := by
  obtain ⟨len, hlen⟩ : ∃ len : Byte, len = BitVec.ofNat 8 p.length := ⟨_, rfl⟩
  obtain ⟨check, hcheck⟩ : ∃ check, check = crcBytes (be1 p.length ++ be1 kind ++ place ++ p) := ⟨_, rfl⟩
  have hlenNat : len.toNat = p.length := by
    rw [hlen, BitVec.toNat_ofNat]
    omega
  have hcheckLength : check.length = 2 := by rw [hcheck]; rfl
  have hframe : syncByte :: ((be1 p.length ++ be1 kind ++ place ++ p) ++ check) = syncByte :: len :: ((be1 kind ++ place ++ p ++ check) ++ []) := by
    simp [be1, hlen]
  have hbody : (be1 kind ++ place ++ p ++ check).length = 3 + addr + len.toNat := by
    simp only [List.length_append, be1_length, hplace, hlenNat, hcheckLength]
    omega
  have hhead : (be1 kind ++ place ++ p).length = 1 + addr + len.toNat := by
    simp only [List.length_append, be1_length, hplace, hlenNat]
  have hjudged : judgeFrame addr len (be1 kind ++ place ++ p ++ check) = .whole kind (readNat place) p := by
    have htake : (be1 kind ++ place ++ p ++ check).take (1 + addr + len.toNat) = be1 kind ++ place ++ p := List.take_left' hhead
    have hdrop : ((be1 kind ++ place ++ p ++ check).drop (1 + addr + len.toNat)).take 2 = check := by
      rw [List.drop_left' hhead]
      exact List.take_of_length_le (by omega)
    have hkindByte : (be1 kind ++ place ++ p ++ check).take 1 = be1 kind := by
      simp only [List.append_assoc]
      exact List.take_left' rfl
    have hplaceBytes : ((be1 kind ++ place ++ p ++ check).drop 1).take addr = place := by
      have hdrop : (be1 kind ++ place ++ p ++ check).drop 1 = place ++ (p ++ check) := by
        simp only [List.append_assoc]
        exact List.drop_left' rfl
      rw [hdrop]
      exact List.take_left' hplace
    have hpayload : (be1 kind ++ place ++ p).drop (1 + addr) = p := List.drop_left' (by simp [hplace])
    have hcrc : crcBytes (len :: (be1 kind ++ place ++ p)) = check := by
      rw [hcheck, hlen]
      rfl
    unfold judgeFrame
    dsimp only
    rw [htake, hdrop, if_pos hcrc, hkindByte, hplaceBytes, hpayload, readNat_be1 hkind]
  rw [← hcheck, hframe, scan_judged_whole (by omega) hbody (by rw [List.append_nil]; exact hjudged), scan_nil]

end Sys2Proof.Machine
end

section
/-!
PROOF. What each port makes of the frames it receives (O3, O4, O36).
-/

namespace Sys2Proof.Machine

open Sys2Proof

variable {s t u : State} {n m k v kind tag : Nat} {p body more bs : Bytes} {len : Byte} {q : Request} {r : Reply} {c : LinkCounts}

/-! ### The line link (R169) -/

theorem exec_lineFrameReceived (s : State) (bs : Bytes) : exec (.lineFrameReceived bs) s = .next (s.lineBytes bs) := rfl

/-- The part with its line link receiver in HUNT. -/
def State.lineHunt (s : State) : State := { s with link := { s.link with rx := ⟨[], 0⟩ } }

theorem Receiver.take_lineFrame {x : Receiver} (hheld : x.held = []) (hkind : kind < 256) (htag : tag < 65536) (hp : p.length ≤ 240) :
    x.take 2 (lineFrame kind tag p) = ([.whole kind tag p], ⟨[], 0⟩) := by
  unfold Receiver.take
  rw [hheld, List.nil_append]
  have hscan := scan_whole (place := be2 tag) rfl hkind hp
    ((be1 p.length ++ be1 kind ++ be2 tag ++ p) ++ crcBytes (be1 p.length ++ be1 kind ++ be2 tag ++ p)).length
  rw [readNat_be2 htag] at hscan
  dsimp only
  exact (congrArg (fun x => (x.1, (⟨x.2, 0⟩ : Receiver))) hscan)

theorem State.lineBytes_frame (hheld : s.link.rx.held = []) (hkind : kind < 256) (htag : tag < 65536) (hp : p.length ≤ 240) :
    s.lineBytes (lineFrame kind tag p) = (s.lineHunt.judgeRequest kind tag p).transmit := by
  unfold State.lineBytes
  rw [Receiver.take_lineFrame hheld hkind htag hp]
  rfl

/-- Settles O3: the frame is read back, its payload is read back, and the request finds its place. -/
theorem requestFrameIsAccepted : Obligations.RequestFrameIsAccepted := by
  intro q tag s hfits htag hheld hroom
  have hfree : s.lineHunt.link.requests.length < 4 := hroom
  rw [exec_lineFrameReceived, State.lineBytes_frame hheld (kindOf_lt q) htag (requestPayload_length hfits)]
  unfold State.judgeRequest
  rw [if_pos (kindOf_mem q), readRequest_payload hfits]
  dsimp only
  rw [if_pos hfree]
  rfl

theorem State.portReply_room (h : s.link.portReplies.length < 4) (r : Reply) :
    s.portReply r = { s with link := { s.link with portReplies := s.link.portReplies ++ [r] } } := if_pos h

theorem State.portReply_full (h : 4 ≤ s.link.portReplies.length) (r : Reply) :
    s.portReply r = s.onCounts fun c => { c with lostReply := satAdd c.lostReply 1 } := if_neg (by omega)

/-- The three ways in which the port refuses a whole frame, with the reply and the counts of each (R169). -/
def State.RefusesFrame (s : State) (kind tag : Nat) (p : Bytes) (r : Reply) (c : LinkCounts) : Prop :=
  (kind ∉ requestKinds ∧ r = ⟨128, tag, be1 9 ++ be1 kind⟩ ∧ c = { s.link.counts with badKind := satAdd s.link.counts.badKind 1 }) ∨
  (kind ∈ requestKinds ∧ readRequest kind p = none ∧ r = ⟨kind + 128, tag, be1 10⟩ ∧
    c = { s.link.counts with badLen := satAdd s.link.counts.badLen 1 }) ∨
  (kind ∈ requestKinds ∧ (readRequest kind p).isSome = true ∧ 4 ≤ s.link.requests.length ∧ r = ⟨kind + 128, tag, be1 8⟩ ∧
    c = { s.link.counts with busy := satAdd s.link.counts.busy 1 })

theorem State.judgeRequest_refused (h : s.RefusesFrame kind tag p r c) :
    s.lineHunt.judgeRequest kind tag p = (s.lineHunt.onCounts fun _ => c).portReply r := by
  unfold State.judgeRequest
  rcases h with ⟨hkind, rfl, rfl⟩ | ⟨hkind, hnone, rfl, rfl⟩ | ⟨hkind, hsome, hfull, rfl, rfl⟩
  · rw [if_neg hkind]
    rfl
  · rw [if_pos hkind, hnone]
    rfl
  · obtain ⟨q, hq⟩ := Option.isSome_iff_exists.1 hsome
    have hbusy : ¬ s.lineHunt.link.requests.length < 4 := not_lt.2 hfull
    rw [if_pos hkind, hq]
    dsimp only
    rw [if_neg hbusy]
    rfl

theorem State.transmit_rx (s : State) (x : Receiver) : ({ s with link := { s.link with rx := x } } : State).transmit =
    { s.transmit with link := { s.transmit.link with rx := x } } := by
  have hline : ({ s with link := { s.link with rx := x } } : State).startLineFrame =
      { s.startLineFrame with link := { s.startLineFrame.link with rx := x } } := by
    unfold State.startLineFrame
    dsimp only
    split <;> rfl
  have hvehicle (t : State) : ({ t with link := { t.link with rx := x } } : State).startVehicleFrame =
      { t.startVehicleFrame with link := { t.startVehicleFrame.link with rx := x } } := by
    unfold State.startVehicleFrame
    dsimp only
    split <;> rfl
  unfold State.transmit
  dsimp only
  rw [hline]
  by_cases hbusy : s.link.tx.isSome = true
  · rw [if_pos hbusy, if_pos hbusy]
    split
    · rfl
    · exact hvehicle s
  · rw [if_neg hbusy, if_neg hbusy]
    split
    · rfl
    · exact hvehicle s.startLineFrame

/-- The receiver's part of a failed check: the bytes behind the sync byte are taken again (R168). -/
theorem Receiver.take_bad {x : Receiver} {addr : Nat} (hheld : x.held = []) (hlen : len.toNat ≤ 240) (hbody : body.length = 3 + addr + len.toNat)
    (hcheck : crcBytes (len :: body.take (1 + addr + len.toNat)) ≠ body.drop (1 + addr + len.toNat)) (more : Bytes) :
    x.take addr (syncByte :: len :: (body ++ more)) =
      (.badCheck :: ((⟨[], 0⟩ : Receiver).take addr (len :: (body ++ more))).1, ((⟨[], 0⟩ : Receiver).take addr (len :: (body ++ more))).2) := by
  unfold Receiver.take
  rw [hheld]
  exact congrArg (fun y => (y.1, (⟨y.2, 0⟩ : Receiver))) (scan_bad hlen hbody hcheck (len :: (body ++ more)).length more)

theorem Receiver.take_of_no_sync {addr : Nat} (h : syncByte ∉ bs) : (⟨[], 0⟩ : Receiver).take addr bs = ([], ⟨[], 0⟩) := by
  unfold Receiver.take
  exact congrArg (fun y => (y.1, (⟨y.2, 0⟩ : Receiver))) (scan_of_no_sync addr le_rfl h)

/-- The part after the reply to a failed check (R169, R172). -/
def State.badChecked (s : State) : State :=
  if s.link.portReplies.length < 4 then { s with link := { s.link with
    rx := ⟨[], 0⟩
    portReplies := s.link.portReplies ++ [⟨128, 0, []⟩]
    counts := { s.link.counts with badCheck := satAdd s.link.counts.badCheck 1 } } }
  else { s with link := { s.link with
    rx := ⟨[], 0⟩
    counts := { s.link.counts with badCheck := satAdd s.link.counts.badCheck 1, lostReply := satAdd s.link.counts.lostReply 1 } } }

theorem State.badChecked_rx (s : State) : s.badChecked.link.rx = ⟨[], 0⟩ := by
  unfold State.badChecked
  split <;> rfl

theorem State.lineEvent_badCheck (s : State) (x : Receiver) : ({ s with link := { s.link with rx := x } } : State).lineEvent .badCheck =
    { s.badChecked with link := { s.badChecked.link with rx := x } } := by
  have hevent : ({ s with link := { s.link with rx := x } } : State).lineEvent .badCheck =
      (State.onCounts { s with link := { s.link with rx := x } } fun c => { c with badCheck := satAdd c.badCheck 1 }).portReply ⟨128, 0, []⟩ := rfl
  rw [hevent]
  unfold State.badChecked
  by_cases hroom : s.link.portReplies.length < 4
  · rw [if_pos hroom]
    exact (State.portReply_room (s := State.onCounts { s with link := { s.link with rx := x } } fun c => { c with badCheck := satAdd c.badCheck 1 }) hroom _).trans rfl
  · rw [if_neg hroom]
    exact (State.portReply_full (s := State.onCounts { s with link := { s.link with rx := x } } fun c => { c with badCheck := satAdd c.badCheck 1 }) (not_lt.1 hroom) _).trans rfl

/-- A failed check answered, and what stands behind it taken again as if it had just arrived. -/
theorem State.lineBytes_bad (hheld : s.link.rx.held = []) (hlen : len.toNat ≤ 240) (hbody : body.length = 3 + 2 + len.toNat)
    (hcheck : crcBytes (len :: body.take (1 + 2 + len.toNat)) ≠ body.drop (1 + 2 + len.toNat)) (more : Bytes) :
    s.lineBytes (syncByte :: len :: (body ++ more)) = s.badChecked.transmit.lineBytes (len :: (body ++ more)) := by
  have hrx : s.badChecked.transmit.link.rx = ⟨[], 0⟩ := (State.transmit_link_rx _).trans s.badChecked_rx
  unfold State.lineBytes
  rw [Receiver.take_bad hheld hlen hbody hcheck more, hrx]
  generalize (⟨[], 0⟩ : Receiver).take 2 (len :: (body ++ more)) = found
  dsimp only [List.foldl_cons]
  rw [State.lineEvent_badCheck, State.transmit_rx]

theorem State.lineBytes_of_no_sync (hrx : s.link.rx = ⟨[], 0⟩) (h : syncByte ∉ bs) : s.lineBytes bs = s := by
  unfold State.lineBytes
  rw [hrx, Receiver.take_of_no_sync h, ← hrx]
  rfl

/-- Settles O4: each refusal by what the frame is read as, and the failed check by what its bytes are read as again. -/
theorem refusedFrames : Obligations.RefusedFrames := by
  intro kind tag payload s hkind htag hlength hheld
  refine ⟨fun r c hrefused => ⟨fun hroom => ?_, fun hfull => ?_⟩, fun len body more u hlen hbody hcheck hu => ?_⟩
  · rw [exec_lineFrameReceived, State.lineBytes_frame hheld hkind htag hlength, State.judgeRequest_refused hrefused]
    rw [State.portReply_room (s := s.lineHunt.onCounts fun _ => c) hroom]
    rfl
  · rw [exec_lineFrameReceived, State.lineBytes_frame hheld hkind htag hlength, State.judgeRequest_refused hrefused]
    rw [State.portReply_full (s := s.lineHunt.onCounts fun _ => c) hfull]
    rfl
  · have hu' : u = s.badChecked := hu
    have hbody' : body.length = 3 + 2 + len.toNat := hbody
    subst hu'
    refine ⟨?_, fun hfirst hrest => ?_⟩
    · rw [exec_lineFrameReceived, exec_lineFrameReceived, State.lineBytes_bad hheld hlen hbody' hcheck]
    · have hbad := State.lineBytes_bad hheld hlen hbody' hcheck []
      rw [List.append_nil] at hbad
      rw [exec_lineFrameReceived, hbad, State.lineBytes_of_no_sync ((State.transmit_link_rx _).trans s.badChecked_rx)]
      exact fun h => (List.mem_cons.1 h).elim hfirst hrest

/-! ### The vehicle link (R81) -/

theorem exec_vehicleFrameDiscarded (s : State) (bs : Bytes) : exec (.vehicleFrameDiscarded bs) s = .next (s.vehicleBytes bs) := rfl

/-- The part with its vehicle link receiver in HUNT. -/
def State.vehicleHunt (s : State) : State := { s with vlink := { s.vlink with rx := ⟨[], 0⟩ } }

theorem State.vehicleHunt_eq (hheld : s.vlink.rx.held = []) (hgap : s.vlink.rx.gapMs = 0) : s.vehicleHunt = s := by
  have hrx : s.vlink.rx = ⟨[], 0⟩ := by
    rw [← hheld, ← hgap]
  unfold State.vehicleHunt
  rw [← hrx]

theorem Receiver.take_vehicleFrame {x : Receiver} (hheld : x.held = []) (hkind : kind < 256) (hv : v < 256) (hp : p.length ≤ 240) :
    x.take 1 (vehicleLinkFrame kind v p) = ([.whole kind v p], ⟨[], 0⟩) := by
  unfold Receiver.take
  rw [hheld, List.nil_append]
  have hscan := scan_whole (place := be1 v) rfl hkind hp
    ((be1 p.length ++ be1 kind ++ be1 v ++ p) ++ crcBytes (be1 p.length ++ be1 kind ++ be1 v ++ p)).length
  rw [readNat_be1 hv] at hscan
  dsimp only
  exact congrArg (fun x => (x.1, (⟨x.2, 0⟩ : Receiver))) hscan

theorem State.vehicleBytes_frame (hheld : s.vlink.rx.held = []) (hkind : kind < 256) (hv : v < 256) (hp : p.length ≤ 240) :
    s.vehicleBytes (vehicleLinkFrame kind v p) = (s.vehicleHunt.vehicleEvent (.whole kind v p)).transmit := by
  unfold State.vehicleBytes
  rw [Receiver.take_vehicleFrame hheld hkind hv hp]
  rfl

theorem exec_frameCommand_eq (s : State) (v : Nat) (f : VehicleInput) : exec (frameCommand v f) s = .next (s.vehicleInput v f).transmit := by
  cases f <;> rfl

theorem State.transmit_vrx (s : State) (x : Receiver) : ({ s with vlink := { s.vlink with rx := x } } : State).transmit =
    { s.transmit with vlink := { s.transmit.vlink with rx := x } } := by
  have hline : ({ s with vlink := { s.vlink with rx := x } } : State).startLineFrame =
      { s.startLineFrame with vlink := { s.startLineFrame.vlink with rx := x } } := by
    unfold State.startLineFrame
    dsimp only
    split <;> rfl
  have hvehicle (t : State) : ({ t with vlink := { t.vlink with rx := x } } : State).startVehicleFrame =
      { t.startVehicleFrame with vlink := { t.startVehicleFrame.vlink with rx := x } } := by
    unfold State.startVehicleFrame
    dsimp only
    split <;> rfl
  unfold State.transmit
  dsimp only
  rw [hline]
  by_cases hbusy : s.link.tx.isSome = true
  · rw [if_pos hbusy, if_pos hbusy]
    split
    · rfl
    · exact hvehicle s
  · rw [if_neg hbusy, if_neg hbusy]
    split
    · rfl
    · exact hvehicle s.startLineFrame

theorem State.vehicleBytes_bad (hheld : s.vlink.rx.held = []) (hlen : len.toNat ≤ 240) (hbody : body.length = 3 + 1 + len.toNat)
    (hcheck : crcBytes (len :: body.take (1 + 1 + len.toNat)) ≠ body.drop (1 + 1 + len.toNat)) (more : Bytes) :
    s.vehicleBytes (syncByte :: len :: (body ++ more)) = s.vehicleHunt.discardFrame.transmit.vehicleBytes (len :: (body ++ more)) := by
  have hrx : s.vehicleHunt.discardFrame.transmit.vlink.rx = ⟨[], 0⟩ := State.transmit_vlink_rx _
  unfold State.vehicleBytes
  rw [Receiver.take_bad hheld hlen hbody hcheck more, hrx]
  generalize (⟨[], 0⟩ : Receiver).take 1 (len :: (body ++ more)) = found
  dsimp only [List.foldl_cons]
  exact congrArg (fun t => List.foldl _ t found.1) (State.transmit_vrx s.vehicleHunt.discardFrame found.2)

theorem State.vehicleBytes_of_no_sync (hrx : s.vlink.rx = ⟨[], 0⟩) (h : syncByte ∉ bs) : s.vehicleBytes bs = s := by
  unfold State.vehicleBytes
  rw [hrx, Receiver.take_of_no_sync h, ← hrx]
  rfl

theorem State.vehicleEvent_unread (h : readVehicle kind p = none ∨ v = 0 ∨ 12 < v) (s : State) :
    s.vehicleEvent (.whole kind v p) = s.discardFrame := by
  unfold State.vehicleEvent
  dsimp only
  split
  · rename_i f hf
    refine if_neg fun hok => ?_
    obtain ⟨h1, h12⟩ := vehicleOk_iff.1 hok
    rcases h with h | h | h
    · rw [hf] at h
      cases h
    · omega
    · omega
  · rfl

/-! ### The frames of the vehicle link, read back (R192) -/

theorem fields_be_join {i j l : Nat} (h1 : i < 256) (h2 : j < 4294967296) (h3 : l < 256) :
    fields [1, 4, 1] (be1 i ++ be4 j ++ be1 l) = some [i, j, l] := by
  have hfits : ∀ f ∈ [Field.byte i, Field.quad j, Field.byte l], f.fits = true := by simp [Field.fits, inByte, inQuad, h1, h2, h3]
  exact fields_bytes hfits

theorem fields_be_leg {i j : Nat} (h1 : i < 65536) (h2 : j < 256) : fields [2, 1] (be2 i ++ be1 j) = some [i, j] := by
  have hfits : ∀ f ∈ [Field.pair i, Field.byte j], f.fits = true := by simp [Field.fits, inByte, inPair, h1, h2]
  exact fields_bytes hfits

theorem fields_be_byte {i : Nat} (h : i < 256) : fields [1] (be1 i) = some [i] := by
  have hfits : ∀ f ∈ [Field.byte i], f.fits = true := by simp [Field.fits, inByte, h]
  exact fields_bytes hfits

theorem fields_be_bytes {i j : Nat} (h1 : i < 256) (h2 : j < 256) : fields [1, 1] (be1 i ++ be1 j) = some [i, j] := by
  have hfits : ∀ f ∈ [Field.byte i, Field.byte j], f.fits = true := by simp [Field.fits, inByte, h1, h2]
  exact fields_bytes hfits

theorem fields_be_done {t i d l r : Nat} (h1 : t < 65536) (h2 : i < 256) (h3 : d < 256) (h4 : l < 256) (h5 : r < 4294967296) :
    fields [2, 1, 1, 1, 4] (be2 t ++ be1 i ++ be1 d ++ be1 l ++ be4 r) = some [t, i, d, l, r] := by
  have hfits : ∀ f ∈ [Field.pair t, Field.byte i, Field.byte d, Field.byte l, Field.quad r], f.fits = true := by
    simp [Field.fits, inByte, inPair, inQuad, h1, h2, h3, h4, h5]
  exact fields_bytes hfits

theorem readVehicle_done {t i d l r : Nat} (h1 : t < 65536) (h2 : i < 256) (h3 : d < 256) (h4 : l < 256) (h5 : r < 4294967296) :
    readVehicle 0x14 (be2 t ++ be1 i ++ be1 d ++ be1 l ++ be4 r) = (doneResultOf d).map fun d => .done t i d l r := by
  simp only [readVehicle, fields_be_done h1 h2 h3 h4 h5]

theorem readVehicle_fault {d : Nat} (h : d < 256) : readVehicle 0x16 (be1 d) = (reportedFaultOf d).map .fault := by
  simp only [readVehicle, fields_be_byte h]

/-- Settles O36: a whole frame is its command, and anything else is discarded and its bytes taken again. -/
theorem vehicleFramesRead : Obligations.VehicleFramesRead := by
  intro s v kind payload hheld hgap hv hkind hlength
  refine ⟨fun f hread h1 h12 => ?_, fun hunread => ?_, fun len body more u hlen hbody hcheck hu => ?_, fun n r b hn hr hb => ?_,
    fun t i n r ht hi hn hr => ⟨?_, ?_, ?_, ?_, ?_, ?_, ?_, ?_, ?_, ?_, ?_, rfl⟩⟩
  · rw [exec_vehicleFrameDiscarded, State.vehicleBytes_frame hheld hkind hv hlength, exec_frameCommand_eq, State.vehicleHunt_eq hheld hgap]
    simp only [State.vehicleEvent, hread, if_pos (vehicleOk_iff.2 ⟨h1, h12⟩)]
  · rw [exec_vehicleFrameDiscarded, State.vehicleBytes_frame hheld hkind hv hlength, State.vehicleEvent_unread hunread]
    rfl
  · have hu' : u = s.vehicleHunt.discardFrame := hu
    have hbody' : body.length = 3 + 1 + len.toNat := hbody
    subst hu'
    refine ⟨?_, fun hfirst hrest => ?_⟩
    · rw [exec_vehicleFrameDiscarded, exec_vehicleFrameDiscarded, State.vehicleBytes_bad hheld hlen hbody' hcheck]
    · have hbad := State.vehicleBytes_bad hheld hlen hbody' hcheck []
      rw [List.append_nil] at hbad
      rw [exec_vehicleFrameDiscarded, hbad, State.vehicleBytes_of_no_sync (State.transmit_vlink_rx _)]
      exact fun h => (List.mem_cons.1 h).elim hfirst hrest
  · simp only [readVehicle, fields_be_join hn hr hb]
  · simp only [readVehicle, fields_be_leg ht hi]
  · simp only [readVehicle, fields_be_byte hn]
  · exact readVehicle_done ht hi (by decide) hn hr
  · exact readVehicle_done ht hi (by decide) hn hr
  · exact readVehicle_done ht hi (by decide) hn hr
  · exact readVehicle_done ht hi (by decide) hn hr
  · simp only [readVehicle, fields_be_bytes hi hn]
  · exact readVehicle_fault (by decide)
  · exact readVehicle_fault (by decide)
  · exact readVehicle_fault (by decide)
  · exact readVehicle_fault (by decide)

end Sys2Proof.Machine
end

section
/-!
PROOF. A position's part of an event of its splice sequence: the transitions an event has made true, a late splice, a failure, and the
count and the mark of a web, each as a change of the one position and a notice (O42, O43, O44).
-/

namespace Sys2Proof.Machine

open Sys2Proof

variable {s t u : State} {p k e m before : Nat} {x y : Position} {clear : Bool} {c : FailureCause} {b : Subjects}

/-! ### A notice and a position -/

theorem State.raise_setPos (s : State) (p : Nat) (x : Position) (b : Subjects) : (s.setPos p x).raise b = (s.raise b).setPos p x := by
  unfold State.raise
  dsimp only
  split <;> rename_i h <;> rw [show (s.setPos p x).handling b.source = s.handling b.source from rfl] at h
  · rw [if_pos h]
    rfl
  · rw [if_neg h]

/-! ### The transitions that end an event (R112) -/

/-- Press running is active and the emergency stop is released: READY may go on to ACCEL (R113). -/
def State.clearToDrive (s : State) (p : Nat) : Bool := s.pressRunning (lineOfPosition p) && !s.estop.level

/-- A position as ACCEL begins (R113, R114). -/
def Position.accelerating (x : Position) : Position :=
  { x.setAccel x.standbyArm true with sequence := .accel, splice := { x.splice with matchMs := none } }

/-- A position after the transitions that an event has made true, where its press runs freely or not (R112). -/
def Position.settled (x : Position) (clear : Bool) : Position :=
  if x.sequence = .ready ∧ x.gauge.remaining ≤ x.params.accelLength ∧ clear = true then x.accelerating
  else if x.sequence = .matched ∧ x.gauge.remaining ≤ x.params.armLength ∧ x.params.fireLength < x.gauge.remaining then
    { x with sequence := .armed }
  else if (x.sequence = .matched ∧ x.gauge.remaining ≤ x.params.armLength ∨ x.sequence = .armed) ∧
      x.gauge.remaining ≤ x.params.fireLength then x.fired
  else x

theorem Position.enterFiring_eq (x : Position) : x.enterFiring = x.fired := by
  unfold Position.enterFiring Position.cutDue Position.fired Position.startCut
  by_cases h : x.params.pasteToCut = 0 <;> simp [h]

theorem Position.accelerating_accel (x : Position) : x.accelerating.outputs.accel x.standbyArm = true := by
  unfold Position.accelerating Position.setAccel
  cases x.standbyArm <;> rfl

theorem State.settle_setPos (s : State) (p : Nat) (x : Position) :
    (s.setPos p x).settle p = s.setPos p (x.settled (s.clearToDrive p)) := by
  have hdrive : (s.setPos p x).tryAccel p = s.setPos p
      (if x.sequence = .ready ∧ x.gauge.remaining ≤ x.params.accelLength ∧ s.clearToDrive p = true then x.accelerating else x) := by
    have hclear : s.pressRunning (lineOfPosition p) = true ∧ s.estop.level = false ↔ s.clearToDrive p = true := by
      unfold State.clearToDrive
      rw [Bool.and_eq_true, Bool.not_eq_true']
    unfold State.tryAccel
    rw [State.pos_setPos_same, apply_ite (s.setPos p)]
    exact if_congr (by rw [← hclear]; rfl) (State.setPos_setPos _ _ _ _) rfl
  have harm : ∀ z : Position, (s.setPos p z).tryArm p = s.setPos p
      (if z.sequence = .matched ∧ z.gauge.remaining ≤ z.params.armLength then { z with sequence := .armed } else z) := fun z => by
    unfold State.tryArm
    rw [State.pos_setPos_same, apply_ite (s.setPos p)]
    exact if_congr Iff.rfl (State.setPos_setPos _ _ _ _) rfl
  have hfire : ∀ z : Position, (s.setPos p z).tryFire p = s.setPos p
      (if z.sequence = .armed ∧ z.gauge.remaining ≤ z.params.fireLength then z.fired else z) := fun z => by
    unfold State.tryFire
    rw [State.pos_setPos_same, apply_ite (s.setPos p), ← z.enterFiring_eq]
    exact if_congr Iff.rfl (State.setPos_setPos _ _ _ _) rfl
  unfold State.settle
  rw [hdrive, harm, hfire]
  refine congrArg _ ?_
  unfold Position.settled
  by_cases hready : x.sequence = .ready ∧ x.gauge.remaining ≤ x.params.accelLength ∧ s.clearToDrive p = true
  · rw [if_pos hready, if_pos hready, if_neg (fun h => nomatch h.1), if_neg (fun h => nomatch h.1)]
  · rw [if_neg hready, if_neg hready]
    by_cases hmatched : x.sequence = .matched ∧ x.gauge.remaining ≤ x.params.armLength
    · rw [if_pos hmatched]
      by_cases hfire : x.gauge.remaining ≤ x.params.fireLength
      · rw [if_pos ⟨rfl, hfire⟩, if_neg (fun h => absurd h.2.2 (not_lt.2 hfire)), if_pos ⟨.inl hmatched, hfire⟩]
        rfl
      · rw [if_neg (fun h => hfire h.2), if_pos ⟨hmatched.1, hmatched.2, not_le.1 hfire⟩]
    · rw [if_neg hmatched, if_neg (c := x.sequence = .matched ∧ _) fun h => hmatched ⟨h.1, h.2.1⟩]
      exact if_congr ⟨fun h => ⟨.inr h.1, h.2⟩, fun h => ⟨h.1.resolve_left hmatched, h.2⟩⟩ rfl rfl

theorem Position.settled_eq (x : Position) (clear : Bool) : x.settled clear =
    { x with sequence := (x.settled clear).sequence, outputs := (x.settled clear).outputs, splice := (x.settled clear).splice } := by
  unfold Position.settled Position.accelerating Position.setAccel
  repeat' split
  all_goals rfl

theorem Position.settled_of_rest (h : x.sequence ∉ [Sequence.ready, .matched, .armed]) : x.settled clear = x := by
  obtain ⟨hready, hmatched, harmed⟩ : x.sequence ≠ .ready ∧ x.sequence ≠ .matched ∧ x.sequence ≠ .armed := by simpa using h
  unfold Position.settled
  rw [if_neg fun h => hready h.1, if_neg fun h => hmatched h.1, if_neg fun h => h.1.elim (fun h => hmatched h.1) harmed]

theorem Position.settled_drives (hs : x.sequence = .ready) (hlength : x.gauge.remaining ≤ x.params.accelLength) (hclear : clear = true) :
    x.settled clear = x.accelerating := if_pos ⟨hs, hlength, hclear⟩

theorem Position.settled_waits (hs : x.sequence = .ready) (h : ¬(x.gauge.remaining ≤ x.params.accelLength ∧ clear = true)) :
    x.settled clear = x := by
  unfold Position.settled
  rw [if_neg fun k => h k.2, if_neg (by simp [hs]), if_neg (by simp [hs])]

theorem Position.settled_matched (hs : x.sequence = .matched) (h : x.params.armLength < x.gauge.remaining) : x.settled clear = x := by
  unfold Position.settled
  rw [if_neg (by simp [hs]), if_neg fun k => absurd k.2.1 (not_le.2 h), if_neg]
  rintro ⟨⟨-, k⟩ | k, -⟩
  · exact absurd k (not_le.2 h)
  · exact nomatch hs.symm.trans k

theorem Position.settled_arms (hs : x.sequence = .matched) (harm : x.gauge.remaining ≤ x.params.armLength)
    (hfire : x.params.fireLength < x.gauge.remaining) : x.settled clear = { x with sequence := .armed } := by
  unfold Position.settled
  rw [if_neg (by simp [hs]), if_pos ⟨hs, harm, hfire⟩]

theorem Position.settled_fires (hs : x.sequence = .matched ∧ x.gauge.remaining ≤ x.params.armLength ∨ x.sequence = .armed)
    (hfire : x.gauge.remaining ≤ x.params.fireLength) : x.settled clear = x.fired := by
  unfold Position.settled
  rw [if_neg, if_neg fun k => absurd k.2.2 (not_lt.2 hfire), if_pos ⟨hs, hfire⟩]
  rcases hs with ⟨hs, -⟩ | hs <;> simp [hs]

theorem Position.settled_armed (hs : x.sequence = .armed) (hfire : x.params.fireLength < x.gauge.remaining) : x.settled clear = x := by
  unfold Position.settled
  rw [if_neg (by simp [hs]), if_neg (by simp [hs]), if_neg fun k => absurd k.2 (not_le.2 hfire)]

/-! ### A late splice (R122) -/

/-- L_rem, `before` ahead of the event, has become 0 before FIRING (R122). -/
def Position.late (x : Position) (before : Nat) : Bool :=
  x.isWeb && decide (before ≠ 0) && decide (x.gauge.remaining = 0) && x.sequence.beforeFiring && !x.splice.missed

theorem Position.late_iff : x.late before = true ↔
    x.isWeb = true ∧ before ≠ 0 ∧ x.gauge.remaining = 0 ∧ x.sequence.beforeFiring = true ∧ x.splice.missed = false := by
  simp only [Position.late, Bool.and_eq_true, decide_eq_true_eq, Bool.not_eq_true', and_assoc]

theorem Sequence.beforeFiring_iff {q : Sequence} : q.beforeFiring = true ↔
    q ∈ [Sequence.noStandby, .standby, .ready, .accel, .matched, .armed] := by
  cases q <;> decide

/-- A position with the web-end warning of a late splice, where there is one (R122). -/
def Position.lateJudged (x : Position) (before : Nat) : Position :=
  { x with outputs := { x.outputs with webEnd := x.outputs.webEnd || x.late before }
           splice := { x.splice with missed := x.splice.missed || x.late before } }

/-- The part after SPLICE_MISSED of a late position (R122). -/
def State.lateRaised (s : State) (p : Nat) (x : Position) (before : Nat) : State :=
  if x.late before then s.raise (.spliceMissed p x.runningReel x.sequence x.standbyReel) else s

theorem State.lateRaised_eq (s : State) (p : Nat) (x : Position) (before : Nat) :
    s.lateRaised p x before = { s with notices := (s.lateRaised p x before).notices } := by
  unfold State.lateRaised
  split
  · exact State.raise_eq _ _
  · rfl

theorem State.judgeLate_setPos (s : State) (p : Nat) (x : Position) (before : Nat) :
    (s.setPos p x).judgeLate p before = (s.lateRaised p x before).setPos p (x.lateJudged before) := by
  unfold State.judgeLate State.lateRaised Position.lateJudged
  rw [State.pos_setPos_same]
  by_cases h : x.late before = true
  · rw [if_pos (Position.late_iff.1 h), if_pos h, h, Bool.or_true, Bool.or_true, State.setPos_setPos, State.raise_setPos]
  · rw [if_neg fun k => h (Position.late_iff.2 k), if_neg h, Bool.eq_false_of_not_eq_true h, Bool.or_false, Bool.or_false]

theorem Position.lateJudged_same (h : x.late before = false) : x.lateJudged before = x := by
  unfold Position.lateJudged
  rw [h, Bool.or_false, Bool.or_false]

/-! ### Failure (R121) -/

theorem State.enterFailed_eq (s : State) (p : Nat) (x : Position) (c : FailureCause) : (s.setPos p x).enterFailed p c =
    (s.setPos p (x.failedBy c)).raise (.spliceFailed p c x.runningReel x.standbyReel x.gauge.remaining) := by
  unfold State.enterFailed
  rw [State.pos_setPos_same]
  dsimp only
  rw [State.setPos_setPos]
  rfl

/-! ### The end of a position's event -/

/-- What ends an event of a position: a late splice, and the transitions. -/
theorem State.judged_settled (s : State) (p : Nat) (x : Position) (before : Nat) : ((s.setPos p x).judgeLate p before).settle p =
    (s.lateRaised p x before).setPos p ((x.lateJudged before).settled (s.clearToDrive p)) := by
  rw [State.judgeLate_setPos, State.settle_setPos, s.lateRaised_eq]
  rfl

/-! ### A web count (R93, R118, R119) -/

theorem Position.cutDue_eq (x : Position) : x.cutDue = { x with outputs := x.cutDue.outputs, splice := x.cutDue.splice } := by
  unfold Position.cutDue Position.startCut
  split <;> rfl

theorem Position.spliceCount_eq (x : Position) :
    x.spliceCount = { x with outputs := x.spliceCount.outputs, splice := x.spliceCount.splice } := by
  unfold Position.spliceCount
  split
  · exact Position.cutDue_eq _
  · rfl
  · rfl

theorem Position.spliceCount_of_rest (hfiring : x.sequence ≠ .firing) (hconfirm : x.sequence ≠ .confirm) : x.spliceCount = x := by
  unfold Position.spliceCount
  split
  · exact absurd ‹_› hfiring
  · exact absurd ‹_› hconfirm
  · rfl

/-- A position counted, and failed where its confirm window runs out (R118, R119). -/
def Position.counted (x : Position) : Position :=
  if x.gaugeCount.spliceCount.windowRunOut then x.gaugeCount.spliceCount.failedBy .noConfirm else x.gaugeCount.spliceCount

/-- The part after SPLICE_FAILED of a confirm window run out at a count (R119, R121). -/
def State.countRaised (s : State) (p : Nat) (x : Position) : State :=
  if x.gaugeCount.spliceCount.windowRunOut then
    s.raise (.spliceFailed p .noConfirm x.gaugeCount.spliceCount.runningReel x.gaugeCount.spliceCount.standbyReel
      x.gaugeCount.spliceCount.gauge.remaining)
  else s

theorem State.countRaised_eq (s : State) (p : Nat) (x : Position) :
    s.countRaised p x = { s with notices := (s.countRaised p x).notices } := by
  unfold State.countRaised
  split
  · exact State.raise_eq _ _
  · rfl

theorem State.countWeb_eq (s : State) (p : Nat) (x : Position) (hx : x = s.pos p) : s.countWeb p =
    ((s.countRaised p x).lateRaised p x.counted x.gauge.remaining).setPos p
      ((x.counted.lateJudged x.gauge.remaining).settled (s.clearToDrive p)) := by
  unfold State.countWeb Position.counted
  subst hx
  dsimp only
  rw [State.pos_setPos_same]
  generalize hy : (s.pos p).gaugeCount.spliceCount = y
  by_cases h : y.windowRunOut = true
  · rw [if_pos h, State.enterFailed_eq, State.raise_setPos, State.judged_settled, if_pos h]
    unfold State.countRaised
    rw [hy, if_pos h, State.raise_eq]
    rfl
  · rw [if_neg h, State.judged_settled, if_neg h]
    unfold State.countRaised
    rw [hy, if_neg h]

/-! ### A revolution mark (R93 to R95) -/

/-- A position at a mark with an estimate: the count opened, or a sample taken. -/
def Position.marked (x : Position) (e : Nat) : Position :=
  if x.gauge.markPending then { x with gauge := { x.gauge with markPending := false, deltaL := 0 } }
  else { x with gauge := { (x.sample e (measured x.gauge.deltaL)).gauge with deltaL := 0 } }

/-- The mark reseeds the estimate (R95). -/
def Position.markReseeds (x : Position) (e : Nat) : Bool := !x.gauge.markPending && x.reseeds e (measured x.gauge.deltaL)

theorem Position.marked_eq (x : Position) (e : Nat) : x.marked e = { x with gauge := (x.marked e).gauge } := by
  unfold Position.marked
  split <;> rfl

/-- The part after DIAMETER of a mark that reseeds the estimate (R95). -/
def State.markRaised (s : State) (p : Nat) (x : Position) (e : Nat) : State :=
  if x.markReseeds e then s.raise (.diameter p x.runningReel x.gauge.diameter (x.sample e (measured x.gauge.deltaL)).gauge.diameter) else s

theorem State.markRaised_eq (s : State) (p : Nat) (x : Position) (e : Nat) :
    s.markRaised p x e = { s with notices := (s.markRaised p x e).notices } := by
  unfold State.markRaised
  split
  · exact State.raise_eq _ _
  · rfl

theorem State.markTaken_eq (hweb : x.isWeb = true) (he : x.gauge.estimate = some e) :
    (s.setPos p x).markTaken p = (s.markRaised p x e).setPos p (x.marked e) := by
  unfold State.markTaken State.markRaised Position.markReseeds Position.marked
  rw [State.pos_setPos_same]
  dsimp only
  rw [hweb, he]
  dsimp only
  rw [State.setPos_setPos, State.setPos_setPos]
  by_cases hpending : x.gauge.markPending = true
  · rw [if_pos hpending, if_pos hpending, hpending]
    rfl
  · rw [if_neg hpending, if_neg hpending, Bool.eq_false_of_not_eq_true hpending, x.sample_eq e _]
    by_cases hreseeds : x.reseeds e (measured x.gauge.deltaL) = true
    · rw [if_pos hreseeds, hreseeds, State.raise_setPos]
      rfl
    · rw [if_neg hreseeds, Bool.eq_false_of_not_eq_true hreseeds]
      rfl

theorem State.markEvent_eq (hweb : x.isWeb = true) (he : x.gauge.estimate = some e) : (s.setPos p x).markEvent p =
    ((s.markRaised p x e).lateRaised p (x.marked e) x.gauge.remaining).setPos p
      (((x.marked e).lateJudged x.gauge.remaining).settled (s.clearToDrive p)) := by
  unfold State.markEvent
  rw [State.markTaken_eq hweb he, State.pos_setPos_same, State.judged_settled, s.markRaised_eq]
  rfl

end Sys2Proof.Machine
end

section
/-!
PROOF. The timers of a splice, a web count and a revolution mark (O42, O43, O44).
-/

namespace Sys2Proof.Machine

open Sys2Proof

variable {s t u : State} {p k e m before : Nat} {x y : Position} {clear : Bool} {c : FailureCause} {b : Subjects}

/-! ### The timers of a splice (R115 to R121) -/

theorem State.measures_of (hp : 1 ≤ p ∧ p ≤ 8) (henabled : (s.pos p).enabled = true) : s.measures p = true := by
  unfold State.measures
  rw [positionOk_iff.2 hp, henabled]
  rfl

theorem State.holdMatched_eq (hx : x = s.pos p) (hs : x.sequence = .accel) (hms : x.splice.matchMs.isSome = true) : s.holdMatched p =
    s.setPos p (Position.settled { x with sequence := .matched, splice := { x.splice with matchMs := none } } (s.clearToDrive p)) := by
  subst hx
  unfold State.holdMatched
  rw [← State.settle_setPos]
  exact if_pos ⟨hs, hms⟩

theorem State.enterConfirm_eq (s : State) (p : Nat) (y : Position) : (s.setPos p y).enterConfirm p =
    if y.splice.latch then (s.setPos p y.confirming).swap p .confirm else s.setPos p y.confirming := by
  unfold State.enterConfirm
  rw [State.pos_setPos_same]
  dsimp only
  rw [State.setPos_setPos]
  rfl

/-- A position at the end of its paste pulse (R118). -/
def Position.pasted (x : Position) : Position :=
  { x with outputs := { x.outputs with paste := false }, splice := { x.splice with pasteMs := none } }

/-- A position at the end of its cut pulse (R118). -/
def Position.severed (x : Position) : Position :=
  { x with outputs := { x.outputs with cut := false }, splice := { x.splice with cutMs := none } }

theorem State.endPaste_eq (hx : x = s.pos p) (hs : x.sequence = .firing) (hms : x.splice.pasteMs.isSome = true) : s.endPaste p =
    if x.splice.cutStarted ∧ x.splice.cutMs = none then (s.setPos p x.pasted).enterConfirm p else s.setPos p x.pasted := by
  subst hx
  unfold State.endPaste
  exact if_pos ⟨hs, hms⟩

theorem State.endCut_eq (hx : x = s.pos p) (hs : x.sequence = .firing) (hms : x.splice.cutMs.isSome = true) : s.endCut p =
    if x.splice.pasteMs = none then (s.setPos p x.severed).enterConfirm p else s.setPos p x.severed := by
  subst hx
  unfold State.endCut
  exact if_pos ⟨hs, hms⟩

theorem State.enterFailed_pos (hx : x = s.pos p) (c : FailureCause) : s.enterFailed p c =
    (s.setPos p (x.failedBy c)).raise (.spliceFailed p c x.runningReel x.standbyReel x.gauge.remaining) := by
  subst hx
  rfl

/-- Settles O44, each timer by the transitions that its end makes true. -/
theorem spliceTimers : Obligations.SpliceTimers := by
  intro s p x hp1 hp8 hx henabled
  have hmeasures : s.measures p = true := State.measures_of ⟨hp1, hp8⟩ (hx ▸ henabled)
  refine ⟨fun hs hms y hy => ?_, fun hs hms y hy => ?_, fun hs hms y hy => ?_, fun hs hcut => ?_, fun hs => ?_⟩
  · have hexec : exec (.matchHoldExpiry p) s = .next (s.setPos p (y.settled (s.clearToDrive p))).transmit := by
      refine congrArg Host.Outcome.next ((if_pos hmeasures).trans ?_)
      rw [State.holdMatched_eq hx hs hms, hy]
    have hmatched : y.sequence = .matched := by rw [hy]
    have hgauge : y.gauge.remaining = x.gauge.remaining := by rw [hy]
    have hparams : y.params = x.params := by rw [hy]
    rw [hexec, ← hgauge, ← hparams]
    refine ⟨fun harm => ?_, fun harm hfire => ?_, fun harm hfire => ?_⟩
    · rw [Position.settled_matched hmatched harm]
    · rw [Position.settled_arms hmatched harm hfire]
    · rw [Position.settled_fires (.inl ⟨hmatched, harm⟩) hfire]
  · have hexec : exec (.pasteEnd p) s = .next ((s.endPaste p).close s false).transmit :=
      congrArg Host.Outcome.next (if_pos hmeasures)
    have hy' : x.pasted = y := hy.symm
    have hlatch : y.splice.latch = x.splice.latch := by rw [hy]
    rw [hexec, State.endPaste_eq hx hs hms, hy', State.enterConfirm_eq, hlatch]
    refine ⟨fun h => ?_, fun hstarted hdone h => ?_, fun hstarted hdone h => ?_⟩
    · rw [if_neg]
      rintro ⟨hstarted, hdone⟩
      exact h.elim (fun h => nomatch h.symm.trans hstarted) fun h => h hdone
    · rw [if_pos ⟨hstarted, hdone⟩, if_neg (by rw [h]; exact Bool.false_ne_true)]
    · rw [if_pos ⟨hstarted, hdone⟩, if_pos h]
  · have hexec : exec (.cutEnd p) s = .next ((s.endCut p).close s false).transmit :=
      congrArg Host.Outcome.next (if_pos hmeasures)
    have hy' : x.severed = y := hy.symm
    have hlatch : y.splice.latch = x.splice.latch := by rw [hy]
    rw [hexec, State.endCut_eq hx hs hms, hy', State.enterConfirm_eq, hlatch]
    refine ⟨fun h => ?_, fun hdone h => ?_, fun hdone h => ?_⟩
    · rw [if_neg h]
    · rw [if_pos hdone, if_neg (by rw [h]; exact Bool.false_ne_true)]
    · rw [if_pos hdone, if_pos h]
  · refine congrArg Host.Outcome.next ((if_pos hmeasures).trans ?_)
    have hfail : s.failFiring p = s.enterFailed p .noCut := if_pos ⟨hx ▸ hs, hx ▸ hcut⟩
    rw [hfail, State.enterFailed_pos hx]
  · refine congrArg Host.Outcome.next ((if_pos hmeasures).trans ?_)
    have hfail : s.failConfirm p = s.enterFailed p .noConfirm := if_pos (hx ▸ hs)
    rw [hfail, State.enterFailed_pos hx]

/-! ### A web count -/

theorem State.mayDrive_eq (hx : x = s.pos p) (n : Nat) : s.mayDrive p n = (decide (n ≤ x.params.accelLength) && s.clearToDrive p) := by
  subst hx
  exact Bool.and_assoc _ _ _

theorem Position.settled_ready (hs : y.sequence = .ready) (hparams : y.params = x.params) (hx : x = s.pos p) :
    (s.mayDrive p y.gauge.remaining = true → y.settled (s.clearToDrive p) = y.accelerating) ∧
      (s.mayDrive p y.gauge.remaining = false → y.settled (s.clearToDrive p) = y) := by
  rw [State.mayDrive_eq hx, ← hparams]
  refine ⟨fun h => ?_, fun h => Position.settled_waits hs fun ⟨hlength, hclear⟩ => ?_⟩
  · obtain ⟨hlength, hclear⟩ := Bool.and_eq_true_iff.1 h
    exact Position.settled_drives hs (of_decide_eq_true hlength) hclear
  · rw [decide_eq_true hlength, hclear] at h
    cases h

/-- What the transitions that end an event leave of a position: all but its sequence, outputs and timers. -/
theorem Position.ended_same (y : Position) (before : Nat) (clear : Bool) :
    ((y.lateJudged before).settled clear).running = y.running ∧ ((y.lateJudged before).settled clear).params = y.params ∧
      ((y.lateJudged before).settled clear).gauge = y.gauge ∧ ((y.lateJudged before).settled clear).mark = y.mark := by
  rw [Position.settled_eq]
  exact ⟨rfl, rfl, rfl, rfl⟩

theorem Position.settled_warning (x : Position) (clear : Bool) :
    (x.settled clear).outputs.webEnd = x.outputs.webEnd ∧ (x.settled clear).splice.missed = x.splice.missed := by
  unfold Position.settled Position.accelerating Position.setAccel
  repeat' split
  all_goals exact ⟨rfl, rfl⟩

/-- The web-end warning and the missed mark at the end of an event (R122). -/
theorem Position.ended_warning (y : Position) (before : Nat) (clear : Bool) :
    ((y.lateJudged before).settled clear).outputs.webEnd = (y.outputs.webEnd || y.late before) ∧
      ((y.lateJudged before).settled clear).splice.missed = (y.splice.missed || y.late before) := Position.settled_warning _ _

/-- What the transitions make of READY, MATCHED and ARMED, and of no other state, at the end of an event (R112). -/
theorem Position.ended_transitions (hx : x = s.pos p) (hparams : y.params = x.params) (hsequence : y.sequence = x.sequence)
    (hrunning : y.running = x.running) (harmA : y.armA = x.armA) (before : Nat) {z : Position}
    (hz : z = (y.lateJudged before).settled (s.clearToDrive p)) :
    (x.sequence ∉ [Sequence.ready, .matched, .armed] → z = y.lateJudged before) ∧
      (x.sequence = .ready → (s.mayDrive p y.gauge.remaining = true →
          z.sequence = .accel ∧ z.outputs.accel x.standbyArm = true ∧ z.splice.matchMs = none) ∧
        (s.mayDrive p y.gauge.remaining = false → z.sequence = .ready)) ∧
      (x.sequence = .matched → (x.params.armLength < y.gauge.remaining → z.sequence = .matched) ∧
        (y.gauge.remaining ≤ x.params.armLength → x.params.fireLength < y.gauge.remaining → z.sequence = .armed) ∧
        (y.gauge.remaining ≤ x.params.armLength → y.gauge.remaining ≤ x.params.fireLength → z.sequence = .firing)) ∧
      (x.sequence = .armed → (x.params.fireLength < y.gauge.remaining → z.sequence = .armed) ∧
        (y.gauge.remaining ≤ x.params.fireLength → z = (y.lateJudged before).fired)) := by
  subst hz
  have hstandby : (y.lateJudged before).standbyArm = x.standbyArm := by
    show y.standbyArm = x.standbyArm
    unfold Position.standbyArm
    rw [hrunning, harmA]
  refine ⟨fun h => Position.settled_of_rest (by rw [← hsequence] at h; exact h), fun hs => ?_, fun hs => ?_, fun hs => ?_⟩
  · have hready : (y.lateJudged before).sequence = .ready := hsequence.trans hs
    obtain ⟨hdrives, hwaits⟩ := Position.settled_ready (y := y.lateJudged before) hready hparams hx
    refine ⟨fun h => ?_, fun h => ?_⟩
    · rw [hdrives h, ← hstandby]
      exact ⟨rfl, Position.accelerating_accel _, rfl⟩
    · rw [hwaits h]
      exact hready
  · have hmatched : (y.lateJudged before).sequence = .matched := hsequence.trans hs
    rw [← hparams]
    refine ⟨fun harm => ?_, fun harm hfire => ?_, fun harm hfire => ?_⟩
    · rw [Position.settled_matched hmatched harm]
      exact hmatched
    · rw [Position.settled_arms hmatched harm hfire]
    · rw [Position.settled_fires (.inl ⟨hmatched, harm⟩) hfire]
      rfl
  · have harmed : (y.lateJudged before).sequence = .armed := hsequence.trans hs
    rw [← hparams]
    refine ⟨fun hfire => ?_, fun hfire => Position.settled_fires (.inr harmed) hfire⟩
    rw [Position.settled_armed harmed hfire]
    exact harmed

end Sys2Proof.Machine
end

section
/-!
PROOF. A web count and a revolution mark (O42, O43).
-/

namespace Sys2Proof.Machine

open Sys2Proof

variable {s t u : State} {p k e m before : Nat} {x y : Position} {clear : Bool} {c : FailureCause} {b : Subjects}

/-! ### A web count -/

theorem Position.gaugeCount_web (hweb : x.isWeb = true) : x.gaugeCount = { x with gauge := { x.gauge with
    windowCounts := x.gauge.windowCounts + 1, remaining := x.gauge.remaining - 1, deltaL := min 65535 (x.gauge.deltaL + 1) } } := by
  exact congrArg (fun g => { x with gauge := g }) (if_pos hweb)

theorem Position.counted_of_rest (hfiring : x.sequence ≠ .firing) (hconfirm : x.sequence ≠ .confirm) : x.counted = x.gaugeCount := by
  have hrest : x.gaugeCount.spliceCount = x.gaugeCount := Position.spliceCount_of_rest (x := x.gaugeCount) hfiring hconfirm
  have hrun : x.gaugeCount.windowRunOut = false := Bool.and_eq_false_iff.2 (.inl (decide_eq_false hconfirm))
  unfold Position.counted
  rw [hrest, hrun]
  rfl

theorem Position.counted_firing (hs : x.sequence = .firing) : x.counted =
    Position.cutDue { x.gaugeCount with splice := { x.splice with sincePaste := min 65535 (x.splice.sincePaste + 1) } } := by
  have hcount : x.gaugeCount.spliceCount =
      Position.cutDue { x.gaugeCount with splice := { x.splice with sincePaste := min 65535 (x.splice.sincePaste + 1) } } := by
    have hs' : x.gaugeCount.sequence = .firing := hs
    unfold Position.spliceCount
    split
    · rfl
    · exact absurd (hs'.symm.trans ‹x.gaugeCount.sequence = .confirm›) (by decide)
    · exact (‹x.gaugeCount.sequence = .firing → False› hs').elim
  have hrun : x.gaugeCount.spliceCount.windowRunOut = false := by
    rw [hcount, Position.cutDue_eq]
    exact Bool.and_eq_false_iff.2 (.inl (decide_eq_false (by simp [Position.gaugeCount, hs])))
  unfold Position.counted
  rw [hrun, ← hcount]
  rfl

/-- A position in CONFIRM at a web count, before its window is judged (R119). -/
def Position.confirmCounted (x : Position) : Position :=
  { x.gaugeCount with splice := { x.splice with sinceConfirm := min 65535 (x.splice.sinceConfirm + 1) } }

theorem Position.counted_confirm (hs : x.sequence = .confirm) : x.counted =
    if x.params.confirmLength ≤ min 65535 (x.splice.sinceConfirm + 1) then x.confirmCounted.failedBy .noConfirm else x.confirmCounted := by
  have hcount : x.gaugeCount.spliceCount = x.confirmCounted := by
    have hs' : x.gaugeCount.sequence = .confirm := hs
    unfold Position.spliceCount
    split
    · exact absurd (hs'.symm.trans ‹x.gaugeCount.sequence = .firing›) (by decide)
    · rfl
    · exact (‹x.gaugeCount.sequence = .confirm → False› hs').elim
  have hrun : x.confirmCounted.windowRunOut = decide (x.params.confirmLength ≤ min 65535 (x.splice.sinceConfirm + 1)) := by
    unfold Position.windowRunOut
    rw [show x.confirmCounted.sequence = .confirm from hs]
    rfl
  unfold Position.counted
  rw [hcount, hrun]
  simp only [decide_eq_true_eq]

theorem Position.counted_same (x : Position) :
    x.counted.running = x.running ∧ x.counted.params = x.params ∧ x.counted.gauge = x.gaugeCount.gauge := by
  unfold Position.counted
  rw [Position.spliceCount_eq]
  split <;> exact ⟨rfl, rfl, rfl⟩

theorem Position.late_of_not_before (h : y.sequence.beforeFiring = false) (before : Nat) : y.late before = false := by
  rw [Bool.eq_false_iff]
  exact fun k => Bool.false_ne_true (h.symm.trans (Position.late_iff.1 k).2.2.2.1)

/-- A position in FIRING, CONFIRM or FAILED is as it stands at the end of its event (R112). -/
theorem Position.ended_of_not_before (h : y.sequence.beforeFiring = false) (before : Nat) (clear : Bool) :
    (y.lateJudged before).settled clear = y := by
  rw [Position.lateJudged_same (Position.late_of_not_before h before), Position.settled_of_rest]
  intro hmem
  generalize y.sequence = q at h hmem
  cases q <;> simp_all [Sequence.beforeFiring]

theorem exec_webCount (hp : 1 ≤ p ∧ p ≤ 8) (hx : x = s.pos p) (henabled : x.enabled = true) :
    exec (.webCount p) s = .next (s.countWeb p).transmit :=
  congrArg Host.Outcome.next (if_pos (State.measures_of hp (hx ▸ henabled)))

theorem State.countWeb_notices (s : State) (p : Nat) (x : Position) :
    ∃ n, (s.countRaised p x).lateRaised p x.counted x.gauge.remaining = { s with notices := n } := by
  rw [State.lateRaised_eq, State.countRaised_eq]
  exact ⟨_, rfl⟩

theorem Position.cutDue_firing (hs : y.sequence = .firing) :
    (y.splice.cutStarted = false → y.params.pasteToCut ≤ y.splice.sincePaste → y.cutDue = y.startCut) ∧
      (y.splice.cutStarted = true ∨ y.splice.sincePaste < y.params.pasteToCut → y.cutDue = y) := by
  unfold Position.cutDue
  refine ⟨fun hcut hdue => if_pos ⟨hs, hcut, hdue⟩, fun h => if_neg ?_⟩
  rintro ⟨-, hcut, hdue⟩
  exact h.elim (fun h => nomatch h.symm.trans hcut) fun h => absurd hdue (not_le.2 h)

theorem Position.cutDue_sequence (y : Position) : y.cutDue.sequence = y.sequence ∧ y.cutDue.splice.sincePaste = y.splice.sincePaste := by
  unfold Position.cutDue
  split <;> exact ⟨rfl, rfl⟩

/-- Settles O42: the count itself, and by the state of the sequence what its end makes of it. -/
theorem webCount : Obligations.WebCount := by
  intro s p x hp1 hp8 hx henabled hweb
  obtain ⟨n, hparts⟩ := s.countWeb_notices p x
  obtain ⟨hrunning, hparams, hgauge⟩ := x.counted_same
  have hcounted := Position.gaugeCount_web hweb
  have hremaining : x.gaugeCount.gauge.remaining = x.gauge.remaining - 1 := by rw [hcounted]
  have hweb' := State.countWeb_eq s p x hx
  obtain ⟨hz, hpos⟩ : ∃ z, z = (x.counted.lateJudged x.gauge.remaining).settled (s.clearToDrive p) := ⟨_, rfl⟩
  rw [← hpos] at hweb'
  obtain ⟨hzrunning, hzparams, hzgauge, -⟩ := x.counted.ended_same x.gauge.remaining (s.clearToDrive p)
  rw [← hpos] at hzrunning hzparams hzgauge
  have hrest : x.sequence ≠ .firing → x.sequence ≠ .confirm → x.counted = x.gaugeCount := Position.counted_of_rest
  have htransitions := fun (hfiring : x.sequence ≠ .firing) (hconfirm : x.sequence ≠ .confirm) =>
    Position.ended_transitions (s := s) (y := x.gaugeCount) hx rfl rfl rfl rfl x.gauge.remaining (hrest hfiring hconfirm ▸ hpos)
  have hnow : (s.countWeb p).pos p = hz := by rw [hweb', State.pos_setPos_same]
  refine ⟨s.countWeb p, exec_webCount ⟨hp1, hp8⟩ hx henabled, fun k hk => ?_, ?_⟩
  · rw [hweb', State.pos_setPos_other _ hk, hparts]
    rfl
  rw [hnow]
  refine ⟨?_, ?_, ?_, ?_, ?_, ?_, ?_, ?_, hzrunning.trans hrunning, hzparams.trans hparams, (hzgauge.trans hgauge).trans (by rw [hcounted]),
    fun hs => ?_, fun hs => ?_, fun hs => ?_, fun hs => ?_, fun hs => ?_, fun hs => ?_, fun hone hs hmissed => ?_⟩
  iterate 8 (rw [hweb', hparts]; rfl)
  · have hfiring : x.sequence ≠ .firing := fun h => by simp [h] at hs
    have hconfirm : x.sequence ≠ .confirm := fun h => by simp [h] at hs
    rw [(htransitions hfiring hconfirm).1 fun h => by revert hs h; cases x.sequence <;> decide]
    rfl
  · have hends := (htransitions (by simp [hs]) (by simp [hs])).2.1 hs
    rw [hremaining] at hends
    exact hends
  · have hends := (htransitions (by simp [hs]) (by simp [hs])).2.2.1 hs
    rw [hremaining] at hends
    exact hends
  · obtain ⟨hstays, hfires⟩ := (htransitions (by simp [hs]) (by simp [hs])).2.2.2 hs
    rw [hremaining] at hstays hfires
    refine ⟨hstays, fun h => ?_⟩
    rw [hfires h]
    exact ⟨rfl, rfl, rfl, rfl, rfl, rfl⟩
  · have hfire := Position.counted_firing hs
    generalize hy : ({ x.gaugeCount with splice := { x.splice with sincePaste := min 65535 (x.splice.sincePaste + 1) } } : Position) = y at hfire
    have hys : y.sequence = .firing := by rw [← hy]; exact hs
    have hysince : y.splice.sincePaste = min 65535 (x.splice.sincePaste + 1) := by rw [← hy]
    have hycut : y.splice.cutStarted = x.splice.cutStarted := by rw [← hy]
    have hyout : y.outputs = x.outputs := by rw [← hy]; rfl
    have hyparams : y.params = x.params := by rw [← hy]; rfl
    obtain ⟨hseq, hpaste⟩ := y.cutDue_sequence
    obtain ⟨hcut, hno⟩ := Position.cutDue_firing hys
    rw [hysince, hycut, hyparams] at hcut hno
    have hend : hz = y.cutDue := by
      rw [hpos, hfire, Position.ended_of_not_before]
      rw [hseq, hys]
      rfl
    rw [hend]
    refine ⟨hseq.trans hys, hpaste.trans hysince, fun hstarted hdue => ?_, fun h => ?_⟩
    · rw [hcut hstarted hdue]
      exact ⟨rfl, rfl, rfl⟩
    · rw [hno h, hyout]
  · have hconfirm := Position.counted_confirm hs
    refine ⟨fun h => ?_, fun h => ?_⟩
    · rw [if_neg (not_le.2 h)] at hconfirm
      rw [hpos, hconfirm, Position.ended_of_not_before (by rw [show x.confirmCounted.sequence = .confirm from hs]; rfl)]
      exact ⟨hs, rfl⟩
    · rw [if_pos h] at hconfirm
      rw [hpos, hconfirm, Position.ended_of_not_before rfl]
      exact ⟨rfl, rfl, rfl⟩
  · have hfiring : x.sequence ≠ .firing := fun h => by simp [h] at hs
    have hconfirm : x.sequence ≠ .confirm := fun h => by simp [h] at hs
    have hrun : x.gaugeCount.spliceCount.windowRunOut = false := by
      rw [Position.spliceCount_of_rest (x := x.gaugeCount) hfiring hconfirm]
      exact Bool.and_eq_false_iff.2 (.inl (decide_eq_false hconfirm))
    have hlate : x.gaugeCount.late x.gauge.remaining = true :=
      Position.late_iff.2 ⟨hweb, by omega, by omega, Sequence.beforeFiring_iff.2 hs, hmissed⟩
    obtain ⟨hwarning, hmark⟩ := x.counted.ended_warning x.gauge.remaining (s.clearToDrive p)
    rw [← hpos, hrest hfiring hconfirm, hlate, Bool.or_true] at hwarning hmark
    refine ⟨hwarning, hmark, ?_⟩
    have hcount : s.countRaised p x = s := if_neg (Bool.eq_false_iff.1 hrun)
    rw [hweb', hrest hfiring hconfirm, hcount]
    have hraised : s.lateRaised p x.gaugeCount x.gauge.remaining = s.raise (.spliceMissed p x.runningReel x.sequence x.standbyReel) :=
      if_pos hlate
    rw [hraised]
    rfl

/-! ### A revolution mark -/

theorem judgeSample_reject_iff (e m : Nat) : judgeSample e m = .reject ↔ e + 32 < m ∨ (m ≤ e ∧ e < (e - m) * 8) := by
  unfold judgeSample
  repeat' split
  all_goals simp
  all_goals omega

theorem judgeSample_confirm (h : e < m) (hm : m ≤ e + 32) : judgeSample e m = .confirm := by
  unfold judgeSample
  rw [if_neg (not_lt.2 hm), if_pos h]

theorem judgeSample_update (h : m ≤ e) (hm : (e - m) * 8 ≤ e) : judgeSample e m = .update (e - (e - m) / 4) := by
  unfold judgeSample
  rw [if_neg (by omega), if_neg (by omega), if_neg (not_lt.2 hm)]

theorem Position.reseeds_iff (x : Position) (e m : Nat) :
    x.reseeds e m = true ↔ (e + 32 < m ∨ (m ≤ e ∧ e < (e - m) * 8)) ∧ 3 ≤ x.gauge.rejections := by
  unfold Position.reseeds
  rw [Bool.and_eq_true, decide_eq_true_eq, decide_eq_true_eq, judgeSample_reject_iff]
  exact and_congr_right fun _ => by omega

theorem Position.sample_rejected (h : judgeSample e m = .reject) (hr : x.gauge.rejections < 3) :
    (x.sample e m).gauge = { x.gauge with flagH := true, rejections := x.gauge.rejections + 1 } := by
  unfold Position.sample
  rw [h]
  dsimp only
  rw [if_pos (by omega)]

theorem Position.sample_reseeded (h : judgeSample e m = .reject) (hr : 3 ≤ x.gauge.rejections) :
    (x.sample e m).gauge = { x.gauge with
      rejections := 0, flagH := false, flagS := true, estimate := some (x.clampEstimate m), flagC := decide (x.clampEstimate m ≠ m)
      remaining := paperLength ((x.clampEstimate m + 8) / 16) x.params.spliceDiameter x.gauge.caliper } := by
  unfold Position.sample
  rw [h]
  dsimp only
  rw [if_neg (by omega)]
  rfl

theorem Position.sample_confirmed (h : judgeSample e m = .confirm) :
    (x.sample e m).gauge = { x.gauge with rejections := 0, flagH := false } := by
  unfold Position.sample
  rw [h]
  rfl

theorem Position.sample_updated {d : Nat} (h : judgeSample e m = .update d) :
    (x.sample e m).gauge = { x.gauge with
      rejections := 0, flagH := false, estimate := some (x.clampEstimate d), flagC := decide (x.clampEstimate d ≠ d)
      remaining := paperLength ((x.clampEstimate d + 8) / 16) x.params.spliceDiameter x.gauge.caliper } := by
  unfold Position.sample
  rw [h]
  rfl

theorem Position.marked_pending (h : x.gauge.markPending = true) :
    (x.marked e).gauge = { x.gauge with markPending := false, deltaL := 0 } := by
  unfold Position.marked
  rw [if_pos h]

theorem Position.marked_sampled (h : x.gauge.markPending = false) :
    (x.marked e).gauge = { (x.sample e (measured x.gauge.deltaL)).gauge with deltaL := 0 } := by
  unfold Position.marked
  rw [if_neg (by rw [h]; exact Bool.false_ne_true)]

theorem Position.markReseeds_iff (x : Position) (e : Nat) : x.markReseeds e = true ↔ x.gauge.markPending = false ∧
    (e + 32 < measured x.gauge.deltaL ∨ (measured x.gauge.deltaL ≤ e ∧ e < (e - measured x.gauge.deltaL) * 8)) ∧
      3 ≤ x.gauge.rejections := by
  unfold Position.markReseeds
  rw [Bool.and_eq_true, Bool.not_eq_true', Position.reseeds_iff]

/-- The position with its mark input active, as an accepted mark leaves the filter (R129). -/
def Position.markOn (x : Position) : Position := { x with mark := ⟨true, 0⟩ }

theorem exec_revolutionMark (hp : 1 ≤ p ∧ p ≤ 8) (hx : x = s.pos p) (hweb : x.isWeb = true) (he : x.gauge.estimate = some e) :
    exec (.revolutionMark p) s = .next (((s.markRaised p x.markOn e).lateRaised p (x.markOn.marked e) x.gauge.remaining).setPos p
      (((x.markOn.marked e).lateJudged x.gauge.remaining).settled (s.clearToDrive p))).transmit := by
  have htaken : s.accepted (.revolutionMark p) true = (s.setPos p x.markOn).markEvent p := by
    subst hx
    exact if_pos (positionOk_iff.2 hp)
  exact congrArg (fun t => Host.Outcome.next (State.transmit t)) (htaken.trans (State.markEvent_eq (x := x.markOn) hweb he))

theorem State.markNotices (s : State) (p : Nat) (x y : Position) (before : Nat) :
    ∃ n, (s.markRaised p x e).lateRaised p y before = { s with notices := n } := by
  rw [State.lateRaised_eq, State.markRaised_eq]
  exact ⟨_, rfl⟩

/-- Settles O43: the gauge by the case of the sample, the notices by whether it reseeds and whether the countdown ends. -/
theorem revolutionMark : Obligations.RevolutionMark := by
  intro s p e m x g clamp length hp1 hp8 hx hg hweb he hm hclamp hlength
  subst hg
  have hm' : measured x.gauge.deltaL = m := hm.symm
  have hclamp' : ∀ k, clamp k = x.clampEstimate k := hclamp
  have hlength' : ∀ d, length d = paperLength d x.params.spliceDiameter x.gauge.caliper := hlength
  obtain ⟨n, hparts⟩ := s.markNotices (e := e) p x.markOn (x.markOn.marked e) x.gauge.remaining
  obtain ⟨y, hy⟩ : ∃ y, y = x.markOn.marked e := ⟨_, rfl⟩
  have hsame : y = { x.markOn with gauge := y.gauge } := by rw [hy]; exact Position.marked_eq _ _
  have hparams : y.params = x.params := by rw [hsame]; rfl
  have hsequence : y.sequence = x.sequence := by rw [hsame]; rfl
  have hrunning : y.running = x.running := by rw [hsame]; rfl
  have harmA : y.armA = x.armA := by rw [hsame]; rfl
  have hmark : y.mark = ⟨true, 0⟩ := by rw [hsame]; rfl
  have hmissed : y.splice = x.splice := by rw [hsame]; rfl
  have houtputs : y.outputs = x.outputs := by rw [hsame]; rfl
  have hexec := exec_revolutionMark ⟨hp1, hp8⟩ hx hweb he
  rw [hparts, ← hy] at hexec
  rw [← hy] at hparts
  obtain ⟨z, hz⟩ : ∃ z, z = (y.lateJudged x.gauge.remaining).settled (s.clearToDrive p) := ⟨_, rfl⟩
  rw [← hz] at hexec
  obtain ⟨-, -, hzgauge, hzmark⟩ := y.ended_same x.gauge.remaining (s.clearToDrive p)
  obtain ⟨hzwarning, hzmissed⟩ := y.ended_warning x.gauge.remaining (s.clearToDrive p)
  rw [← hz] at hzgauge hzmark hzwarning hzmissed
  obtain ⟨hrest, hready, hmatched, harmed⟩ := Position.ended_transitions hx hparams hsequence hrunning harmA x.gauge.remaining hz
  refine ⟨({ s with notices := n } : State).setPos p z, hexec, fun k hk => State.pos_setPos_other _ hk _, ?_, rfl, rfl, rfl, rfl,
    fun reseeds late w hreseeds hlate hw => ?_, ?_⟩
  · rw [State.pos_setPos_same]
    exact hzmark.trans hmark
  · rw [State.pos_setPos_same, hzgauge] at hlate
    rw [State.pos_setPos_same]
    have hr : reseeds = x.markOn.markReseeds e := by
      rw [Bool.eq_iff_iff, hreseeds, Position.markReseeds_iff, ← hm']
      rfl
    have hl : late = y.late x.gauge.remaining := by
      rw [Bool.eq_iff_iff, hlate, Position.late_iff, hsequence, hmissed, Sequence.beforeFiring_iff]
      have hyweb : y.isWeb = true := by unfold Position.isWeb; rw [hrunning]; exact hweb
      exact ⟨fun ⟨h, k, l, q⟩ => ⟨hyweb, h, k, q, l⟩, fun ⟨_, h, k, q, l⟩ => ⟨h, k, l, q⟩⟩
    have hraised : w = s.markRaised p x.markOn e := by
      rw [hw, hr]
      unfold State.markRaised
      by_cases h : x.markOn.markReseeds e = true
      · rw [if_pos h, if_pos h]
        obtain ⟨hpending, hreject, hcount⟩ := (Position.markReseeds_iff _ _).1 h
        rw [Position.sample_reseeded ((judgeSample_reject_iff _ _).2 hreject) hcount, ← hm', hclamp']
        refine congrArg (fun d => s.raise (.diameter p x.runningReel d ((x.clampEstimate (measured x.gauge.deltaL) + 8) / 16))) ?_
        show (e + 8) / 16 = x.gauge.diameter
        unfold Gauge.diameter
        rw [he]
      · rw [if_neg h, if_neg h]
    have hnotices : n = ((s.markRaised p x.markOn e).lateRaised p y x.gauge.remaining).notices := by rw [hparts]
    refine ⟨?_, ?_, ?_⟩
    · show n = _
      have hrunningReel : y.runningReel = x.runningReel := by rw [hsame]; rfl
      have hstandbyReel : y.standbyReel = x.standbyReel := by rw [hsame]; rfl
      rw [hnotices, ← hraised, hl]
      unfold State.lateRaised
      rw [hrunningReel, hstandbyReel, hsequence]
    · rw [hzwarning, houtputs, hl]
    · rw [hzmissed, hmissed, hl]
  · rw [State.pos_setPos_same, hzgauge]
    refine ⟨fun h => ?_, hready, hmatched, fun hs => ?_, fun hpending => ?_, fun hpending => ⟨fun hlt hle => ?_, fun hle hsmall => ?_,
      fun hreject => ⟨fun hcount => ?_, fun hcount => ?_⟩⟩⟩
    · rw [hrest h]
      exact hsequence
    · obtain ⟨hstays, hfires⟩ := harmed hs
      refine ⟨hstays, fun h => ?_⟩
      rw [hfires h]
      exact ⟨rfl, rfl, rfl⟩
    · rw [hy]
      exact Position.marked_pending (x := x.markOn) hpending
    all_goals
      have hpending' : x.markOn.gauge.markPending = false := hpending
      rw [hy, Position.marked_sampled hpending', show measured x.markOn.gauge.deltaL = m from hm']
    · rw [Position.sample_confirmed (judgeSample_confirm hlt hle)]
      rfl
    · rw [Position.sample_updated (judgeSample_update hle hsmall), hclamp', hlength']
      rfl
    · rw [Position.sample_rejected (x := x.markOn) ((judgeSample_reject_iff _ _).2 hreject) hcount]
      rfl
    · rw [Position.sample_reseeded (x := x.markOn) ((judgeSample_reject_iff _ _).2 hreject) hcount, hclamp', hlength']
      rfl

end Sys2Proof.Machine
end

section
/-!
PROOF. The swap of two reels, with the butt it leaves and its notices (O45).
-/

namespace Sys2Proof.Machine

open Sys2Proof

variable {s t u : State} {p k l d e m old new before : Nat} {a : Arm} {x y : Position} {z : Reel} {c : FailureCause} {b : SettledBy}

/-! ### A late splice of a position as it stands -/

theorem State.judgeLate_eq (hx : x = s.pos p) (before : Nat) : s.judgeLate p before = if x.late before then
    (s.setPos p (x.lateJudged before)).raise (.spliceMissed p x.runningReel x.sequence x.standbyReel) else s := by
  subst hx
  unfold State.judgeLate Position.lateJudged
  by_cases h : (s.pos p).late before = true
  · rw [if_pos (Position.late_iff.1 h), if_pos h, h, Bool.or_true, Bool.or_true]
  · rw [if_neg fun k => h (Position.late_iff.2 k), if_neg h]

/-- What a late splice changes: its position, and the notices. -/
theorem State.judgeLate_spec (hx : x = s.pos p) (before : Nat) :
    (s.judgeLate p before).pos p = x.lateJudged before ∧ (∀ k, k ≠ p → (s.judgeLate p before).pos k = s.pos k) ∧
      s.judgeLate p before = { s with positions := (s.judgeLate p before).positions, notices := (s.judgeLate p before).notices } ∧
      (s.judgeLate p before).notices = (s.lateRaised p x before).notices := by
  rw [State.judgeLate_eq hx]
  unfold State.lateRaised
  by_cases h : x.late before = true
  · rw [if_pos h, if_pos h, State.raise_setPos]
    refine ⟨State.pos_setPos_same _ _ _, fun k hk => (State.pos_setPos_other _ hk _).trans (State.raise_pos _ _ _), ?_, rfl⟩
    rw [State.raise_eq]
    rfl
  · rw [if_neg h, if_neg h, Position.lateJudged_same (Bool.eq_false_of_not_eq_true h)]
    exact ⟨hx.symm, fun _ _ => rfl, rfl, rfl⟩

/-! ### The record of a splice (R160, R161) -/

theorem aggregate_concat (z : SpliceRecord) (rs : List SpliceRecord) (r : SpliceRecord) : aggregate z (rs ++ [r]) =
    rs ++ [{ r with splices := satAdd r.splices 1, time := z.time, gross := z.gross, settledBy := z.settledBy }] := by
  induction rs with
  | nil => rfl
  | cons q rs ih =>
    rw [List.cons_append, List.cons_append, ← ih]
    cases h : rs ++ [r] with
    | nil => simp at h
    | cons _ _ => rfl

theorem State.line_setWeb (s : State) (w : Nat) (x : Web) (l : Nat) : (s.setWeb w x).line l = s.line l := rfl

theorem State.spliceCounted_eq (s : State) (p old new : Nat) (b : SettledBy) : s.spliceCounted p old new b =
    { s with lines := (s.spliceCounted p old new b).lines, webs := (s.spliceCounted p old new b).webs } := by
  unfold State.spliceCounted
  dsimp only
  split <;> rfl

theorem State.spliceCounted_active (h : (s.line (lineOfPosition p)).run.state = .active) :
    ((s.spliceCounted p old new b).line (lineOfPosition p)).run = (s.line (lineOfPosition p)).run.withSplice
        ⟨p, old, new, s.clock.seconds, (s.line (lineOfPosition p)).run.gross, 0, b, 1⟩ ∧
      (s.spliceCounted p old new b).web p = (s.web p).opened .splice (s.line (lineOfPosition p)).spliceSlot
        (some (s.line (lineOfPosition p)).run.nextRecord) := by
  unfold State.spliceCounted
  dsimp only
  rw [if_pos h]
  unfold State.openSplice State.onRun State.onWeb
  refine ⟨?_, ?_⟩
  · rw [State.line_setWeb, State.onLine_line_same]
  · rw [State.web_setWeb_same, State.onLine_line_same]
    rfl

theorem State.spliceCounted_idle (h : (s.line (lineOfPosition p)).run.state ≠ .active) :
    (s.spliceCounted p old new b).lines = s.lines ∧
      (s.spliceCounted p old new b).web p = (s.web p).opened .splice (s.line (lineOfPosition p)).spliceSlot none := by
  unfold State.spliceCounted
  dsimp only
  rw [if_neg h]
  unfold State.openSplice State.onWeb
  exact ⟨rfl, State.web_setWeb_same _ _ _⟩

theorem State.tallyPaper_line (s : State) (l n : Nat) :
    ((s.line l).run.state = .active → (s.tallyPaper l n).line l =
      { s.line l with run := { (s.line l).run with buttPaper := satAdd (s.line l).run.buttPaper n } }) ∧
    ((s.line l).run.state ≠ .active → s.tallyPaper l n = s) := by
  unfold State.tallyPaper
  refine ⟨fun h => ?_, fun h => if_neg h⟩
  rw [if_pos h]
  exact State.onLine_line_same _ _ _

/-! ### The two reels exchanged (R120) -/

/-- The position after a swap, but for a late splice of the new reel (R92, R111, R120). -/
def Position.exchanged (x : Position) (a : Arm) (z : Reel) : Position :=
  ((x.turned (otherArm a)).measureStart z.diameter z.caliper).spliced

/-- The part after a swap but for a late splice: the butt, the new reel RUNNING, the position, the record, and SPLICE_DONE (R120). -/
def State.exchanged (s : State) (p old new : Nat) (a : Arm) (z : Reel) (b : SettledBy) : State :=
  ((((s.makeButt p a (s.pos p).gauge.diameter).setReel new { z with state := .running }).setPos p
    (((s.makeButt p a (s.pos p).gauge.diameter).pos p).exchanged a z)).spliceCounted p old new b).raise
      (.spliceDone p old (s.pos p).gauge.diameter new z.diameter b)

theorem State.swap_exchanged (ha : (s.pos p).running = some a) (hold : (s.pos p).arm a = some old)
    (hnew : (s.pos p).arm (otherArm a) = some new) (hz : (s.makeButt p a (s.pos p).gauge.diameter).reel new = some z) (b : SettledBy) :
    s.swap p b = (s.exchanged p old new a z b).judgeLate p 1 := by
  unfold State.swap State.exchanged
  dsimp only
  rw [ha]
  dsimp only
  rw [hold, hnew]
  dsimp only
  generalize s.makeButt p a (s.pos p).gauge.diameter = m at hz
  rw [State.onReel_of _ hz]
  have hstart : ∀ f : Position → Position, ((m.setReel new { z with state := .running }).onPos p f).startGauge p new =
      (m.setReel new { z with state := .running }).setPos p ((f (m.pos p)).measureStart z.diameter z.caliper) := fun f => by
    unfold State.startGauge
    rw [show ((m.setReel new { z with state := .running }).onPos p f).reel new = some { z with state := .running } from
      State.reel_setReel_same _ _ _]
    show ((m.setReel new _).onPos p f).setPos p _ = _
    rw [State.onPos_pos_same]
    exact State.setPos_setPos _ _ _ _
  rw [hstart]
  unfold State.onPos
  rw [State.pos_setPos_same, State.setPos_setPos]
  have hreel : ∀ w : State, w.reels = m.reels.insert new { z with state := .running } →
      ((w.reel new).map (·.diameter)).getD 0 = z.diameter := fun w hw => by
    unfold State.reel
    rw [hw, Table.find_insert_same]
    rfl
  rw [hreel]
  · rfl
  · rw [State.spliceCounted_eq]
    rfl

end Sys2Proof.Machine
end

section
/-!
PROOF. What a swap leaves of its position, its run and its butt (O45).
-/

namespace Sys2Proof.Machine

open Sys2Proof

variable {s t u : State} {p k l d e m old new before : Nat} {a : Arm} {x y : Position} {z w : Reel} {c : FailureCause} {b : SettledBy}
  {status : Disposal} {run : Run}

/-! ### The position exchanged -/

theorem Position.setDisposal_eq (x : Position) (a : Arm) (q : Option Disposal) :
    x.setDisposal a q = { x with disposalA := (x.setDisposal a q).disposalA, disposalB := (x.setDisposal a q).disposalB } := by
  cases a <;> rfl

theorem Position.exchanged_eq (x : Position) (a : Arm) (z : Reel) : x.exchanged a z = { x with
    running := some (otherArm a)
    sequence := .noStandby
    outputs := { x.outputs with accelA := false, accelB := false, webEnd := false }
    splice := { x.splice.quiet with missed := false, count := satAdd x.splice.count 1 }
    gauge := { x.gauge with
      rejections := 0, flagH := false, flagS := false, flagZ := false, markPending := true, deltaL := 0, caliper := z.caliper
      estimate := some (x.clampEstimate (16 * z.diameter)), flagC := decide (x.clampEstimate (16 * z.diameter) ≠ 16 * z.diameter)
      remaining := paperLength ((x.clampEstimate (16 * z.diameter) + 8) / 16) x.params.spliceDiameter z.caliper } } := rfl

theorem Position.exchanged_reels (hold : x.arm a = some old) (hnew : x.arm (otherArm a) = some new) :
    (x.exchanged a z).runningReel = new ∧ (x.exchanged a z).standbyReel = old := by
  rw [Position.exchanged_eq]
  cases a with
  | A => exact ⟨congrArg (Option.getD · 0) hnew, congrArg (Option.getD · 0) hold⟩
  | B => exact ⟨congrArg (Option.getD · 0) hnew, congrArg (Option.getD · 0) hold⟩

theorem Position.exchanged_late (x : Position) (a : Arm) (z : Reel) :
    (x.exchanged a z).late 1 = decide ((x.exchanged a z).gauge.remaining = 0) := by
  rw [Bool.eq_iff_iff, Position.late_iff, decide_eq_true_eq]
  exact ⟨fun h => h.2.2.1, fun h => ⟨rfl, one_ne_zero, h, rfl, rfl⟩⟩

theorem Position.arm_setDisposal (x : Position) (a q : Arm) (r : Option Disposal) : (x.setDisposal a r).arm q = x.arm q := by
  cases a <;> cases q <;> rfl

/-! ### The butt's answer, read in a later part -/

theorem ButtAnswered.of_same {r : Nat} {y : Reel} {q : DisposalKind} (h : ButtAnswered s u p a r d y q)
    (hdisposal : (t.pos p).disposal a = (u.pos p).disposal a) (horders : t.orders = u.orders) (hreel : t.reel r = u.reel r)
    (hbays : t.bays = u.bays) : ButtAnswered s t p a r d y q := by
  have horder : ∀ k, t.order k = u.order k := State.order_of_orders horders
  have hbay : ∀ k, t.bay k = u.bay k := fun k => by unfold State.bay; rw [hbays]
  obtain ⟨hsilent, hfull, hret, hnoBay, hclear⟩ := h
  constructor <;> simp only [hdisposal, horder, hbay, horders, hreel] <;> assumption

/-! ### The run -/

theorem Run.withSplice_buttPaper (run : Run) (q : SpliceRecord) : (run.withSplice q).buttPaper = run.buttPaper := by
  unfold Run.withSplice
  repeat' split
  all_goals rfl

theorem Run.withSplice_short (h : run.splices.length < 63) (q : SpliceRecord) : (run.withSplice q).splices = run.splices ++ [q] := by
  unfold Run.withSplice
  rw [if_pos h]

theorem Run.withSplice_last (h : run.splices.length = 63) (q : SpliceRecord) :
    (run.withSplice q).splices = run.splices ++ [{ q with position := 0, oldReel := 0, newReel := 0 }] := by
  unfold Run.withSplice
  rw [if_neg (by omega), if_pos h]

theorem Run.withSplice_aggregate {rs : List SpliceRecord} {r : SpliceRecord} (h : run.splices = rs ++ [r]) (hlength : rs.length = 63)
    (q : SpliceRecord) : (run.withSplice q).splices =
      rs ++ [{ r with splices := satAdd r.splices 1, time := q.time, gross := q.gross, settledBy := q.settledBy }] := by
  have hcount : run.splices.length = 64 := by rw [h, List.length_append, hlength]; rfl
  unfold Run.withSplice
  rw [if_neg (by omega), if_neg (by omega), h, aggregate_concat]

/-! ### The swap -/

theorem State.line_of_lines (h : t.lines = s.lines) (l : Nat) : t.line l = s.line l := by
  unfold State.line
  rw [h]

theorem State.web_of_webs (h : t.webs = s.webs) (l : Nat) : t.web l = s.web l := by
  unfold State.web
  rw [h]

/-- What an exchange keeps of the part: a state `q` before the record of the splice, the record, and the notice. -/
theorem State.exchanged_parts {v : Position} (hv : v = ((s.makeButt p a (s.pos p).gauge.diameter).pos p).exchanged a z)
    (hm : t = s.makeButt p a (s.pos p).gauge.diameter) (hu : u = s.exchanged p old new a z b) :
    u.pos p = v ∧ u.reels = t.reels.insert new { z with state := .running } ∧ u.orders = t.orders ∧ u.bays = t.bays ∧
      u.lines = (((t.setReel new { z with state := .running }).setPos p v).spliceCounted p old new b).lines ∧
      u.webs = (((t.setReel new { z with state := .running }).setPos p v).spliceCounted p old new b).webs ∧
      u.clock = t.clock ∧ u.notices = (t.raise (.spliceDone p old (s.pos p).gauge.diameter new z.diameter b)).notices := by
  subst hu
  unfold State.exchanged
  rw [← hm]
  rw [← hm] at hv
  rw [← hv, State.spliceCounted_eq]
  refine ⟨(State.raise_pos _ _ _).trans (State.pos_setPos_same _ _ _), State.raise_reels _ _, State.raise_orders _ _,
    State.raise_bays _ _, State.raise_lines _ _, State.raise_webs _ _, State.raise_clock _ _, ?_⟩
  exact State.raise_notices_congr (by rfl) (by rfl) _

/-- The run and the web of a swap's line (R103, R138, R148, R159 to R161). -/
theorem State.swap_counted {paper : Nat} (hrun : run = (s.line (lineOfPosition p)).run)
    (htlines : t.lines = (s.tallyPaper (lineOfPosition p) paper).lines) (htwebs : t.webs = s.webs) (htclock : t.clock = s.clock) :
    (run.state = .active → (t.spliceCounted p old new b).web p = (s.web p).opened .splice (s.line (lineOfPosition p)).spliceSlot
        (some (min (run.splices.length + 1) 64)) ∧
      ((t.spliceCounted p old new b).line (lineOfPosition p)).run =
        { run with buttPaper := satAdd run.buttPaper paper }.withSplice ⟨p, old, new, s.clock.seconds, run.gross, 0, b, 1⟩) ∧
    (run.state ≠ .active → (t.spliceCounted p old new b).web p = (s.web p).opened .splice (s.line (lineOfPosition p)).spliceSlot none ∧
      ((t.spliceCounted p old new b).line (lineOfPosition p)).run = run) := by
  subst hrun
  obtain ⟨hactive, hidle⟩ := s.tallyPaper_line (lineOfPosition p) paper
  have htline : t.line (lineOfPosition p) = (s.tallyPaper (lineOfPosition p) paper).line (lineOfPosition p) := State.line_of_lines htlines _
  refine ⟨fun h => ?_, fun h => ?_⟩
  · rw [hactive h] at htline
    obtain ⟨hrun, hweb⟩ := State.spliceCounted_active (s := t) (p := p) (old := old) (new := new) (b := b) (by rw [htline]; exact h)
    rw [htline, htclock] at hrun
    rw [htline, State.web_of_webs htwebs] at hweb
    exact ⟨hweb, hrun⟩
  · rw [hidle h] at htline
    obtain ⟨hlines, hweb⟩ := State.spliceCounted_idle (s := t) (p := p) (old := old) (new := new) (b := b) (by rw [htline]; exact h)
    rw [htline, State.web_of_webs htwebs] at hweb
    exact ⟨hweb, by rw [State.line_of_lines hlines, htline]⟩

/-- A confirm edge taken by its position (R119, R131). -/
theorem exec_confirmEdge (hp : 1 ≤ p ∧ p ≤ 8) :
    exec (.confirmEdge p) s = .next (((s.setPos p { s.pos p with confirm := ⟨true, 0⟩ }).confirmed p).close s false).transmit := by
  have htaken : s.accepted (.spliceConfirm p) true =
      ((s.setPos p { s.pos p with confirm := ⟨true, 0⟩ }).confirmed p).close (s.setPos p { s.pos p with confirm := ⟨true, 0⟩ }) false :=
    if_pos (positionOk_iff.2 hp)
  exact congrArg (fun t => Host.Outcome.next (State.transmit t)) (htaken.trans (State.close_congr rfl rfl _ _))

theorem State.confirmed_eq (s : State) (p : Nat) (x : Position) :
    (x.sequence = .firing → (s.setPos p x).confirmed p = s.setPos p { x with splice := { x.splice with latch := true } }) ∧
    (x.sequence = .confirm → (s.setPos p x).confirmed p = (s.setPos p x).swap p .confirm) ∧
    (x.sequence ∉ [Sequence.firing, .confirm] → (s.setPos p x).confirmed p = s.setPos p x) := by
  unfold State.confirmed
  rw [State.pos_setPos_same]
  dsimp only
  rw [State.setPos_setPos]
  refine ⟨fun h => ?_, fun h => ?_, fun h => ?_⟩
  · rw [h]
  · rw [h]
  · split
    · simp [*] at h
    · simp [*] at h
    · rfl

end Sys2Proof.Machine
end

section
/-!
PROOF. The swap of two reels (O45).
-/

namespace Sys2Proof.Machine

open Sys2Proof

/-- Settles O45: the edge by its state, and the swap by the butt made, the position exchanged and the splice counted. -/
theorem swapOfReels : Obligations.SwapOfReels := by
  refine ⟨fun s p hp1 hp8 => ?_, ?_⟩
  · obtain ⟨hfiring, hconfirm, hother⟩ := s.confirmed_eq p { s.pos p with confirm := ⟨true, 0⟩ }
    rw [exec_confirmEdge ⟨hp1, hp8⟩]
    exact ⟨fun h => by rw [hfiring h], fun h => by rw [hconfirm h], fun h => by rw [hother h]⟩
  intro s p old new d a b x y z run hx hrunning hold hnew hne hy hz hd hrun
  obtain ⟨paper, hpaper⟩ : ∃ paper, paper = if x.params.returnDiameter ≤ d ∨ d ≤ x.params.coreDiameter then 0
    else (d * d - x.params.coreDiameter * x.params.coreDiameter) * 7854 / (10 * y.caliper) := ⟨_, rfl⟩
  obtain ⟨m, hm⟩ : ∃ m, m = s.makeButt p a (s.pos p).gauge.diameter := ⟨_, rfl⟩
  have hd' : (s.pos p).gauge.diameter = d := by rw [hd, hx]
  obtain ⟨hanswered, ⟨status, tag, hmpos, hordered, hunordered, hmnotices⟩, ⟨y', hbutt, hstate, hdiameter, horigin⟩, hmreel, -, hmlines, -,
    hmclock, hmwebs⟩ := State.makeButt_spec hx.symm hold hy rfl hpaper
  rw [← hpaper]
  rw [← hd', ← hm] at hanswered hmpos hordered hmnotices hbutt hmreel hmlines hmclock hmwebs
  have hmz : m.reel new = some z := (hmreel new hne.symm).trans hz
  have hswap : s.swap p b = (s.exchanged p old new a z b).judgeLate p 1 := by
    subst hx
    exact State.swap_exchanged hrunning hold hnew (hm ▸ hmz) b
  obtain ⟨v, hv⟩ : ∃ v, v = (m.pos p).exchanged a z := ⟨_, rfl⟩
  obtain ⟨hepos, hereels, heorders, hebays, helines, hewebs, heclock, henotices⟩ :=
    State.exchanged_parts (old := old) (new := new) (b := b) (z := z) (v := v) (by rw [hv, hm]) hm rfl
  obtain ⟨htpos, -, htparts, htnotices⟩ := State.judgeLate_spec hepos.symm 1
  rw [← hswap] at htpos htparts htnotices
  rw [hmpos] at hv
  have hlate : v.late 1 = decide (v.gauge.remaining = 0) := by rw [hv]; exact Position.exchanged_late _ _ _
  obtain ⟨hrunningReel, hstandbyReel⟩ : v.runningReel = new ∧ v.standbyReel = old := by
    rw [hv]
    exact Position.exchanged_reels ((Position.arm_setDisposal _ _ _ _).trans hold) ((Position.arm_setDisposal _ _ _ _).trans hnew)
  rw [Position.exchanged_eq, Position.setDisposal_eq] at hv
  have hreel : ∀ q, (s.swap p b).reel q = if q = new then some { z with state := .running } else m.reel q := fun q => by
    rw [htparts]
    show (s.exchanged p old new a z b).reels.find q = _
    rw [hereels, Table.find_insert]
    rfl
  have holdReel : (s.swap p b).reel old = m.reel old := (hreel old).trans (if_neg hne)
  have hdisposal : ((s.swap p b).pos p).disposal a = some status := by
    rw [htpos, hv]
    cases a <;> rfl
  obtain ⟨hactive, hidle⟩ := State.swap_counted (p := p) (old := old) (new := new) (b := b)
    (t := (m.setReel new { z with state := .running }).setPos p v) hrun hmlines hmwebs hmclock
  have htline : ((s.swap p b).line (lineOfPosition p)) =
      (((m.setReel new { z with state := .running }).setPos p v).spliceCounted p old new b).line (lineOfPosition p) :=
    State.line_of_lines (by rw [htparts]; exact helines) _
  have htweb : (s.swap p b).web p = (((m.setReel new { z with state := .running }).setPos p v).spliceCounted p old new b).web p :=
    State.web_of_webs (by rw [htparts]; exact hewebs) _
  rw [← htline, ← htweb] at hactive hidle
  refine ⟨⟨y', holdReel.trans hbutt, hstate, hdiameter, horigin⟩, (hreel new).trans (if_pos rfl), ?_, ?_, ?_, ?_, ?_, ?_,
    fun est rem hest hrem => ?_, fun h => ?_, hidle, ?_⟩
  iterate 6 (rw [htpos, hv]; rfl)
  · have hest' : est = x.clampEstimate (16 * z.diameter) := hest
    have hrem' : v.gauge.remaining = rem := by
      rw [hv, hrem, hest']
      rfl
    rw [hrem'] at hlate
    refine ⟨?_, ?_, ?_, status, tag, hdisposal, fun h => ?_, hunordered, fun done hdone => ?_⟩
    · rw [htpos]
      show v.gauge = _
      rw [hv, hrem, hest']
      rfl
    · rw [htpos, ← hlate]
      show (v.outputs.webEnd || v.late 1) = _
      rw [hv]
      rfl
    · rw [htpos, ← hlate]
      show (v.splice.missed || v.late 1) = _
      rw [hv]
      rfl
    · rw [holdReel]
      exact hordered h
    · have hdone' : (s.exchanged p old new a z b).notices = done.notices := by
        rw [henotices, hdone, ← hd']
        exact State.raise_notices_congr hmnotices (hmclock.trans (State.raise_clock _ _).symm) _
      have hclock : (s.exchanged p old new a z b).clock = done.clock := by
        rw [heclock, hmclock, hdone, State.raise_clock, State.raise_clock]
      have hvsequence : v.sequence = .noStandby := by rw [hv]
      rw [htnotices]
      unfold State.lateRaised
      rw [hlate, hrunningReel, hstandbyReel, hvsequence]
      by_cases h : rem = 0
      · rw [if_pos (decide_eq_true h), if_pos h]
        exact State.raise_notices_congr hdone' hclock _
      · rw [if_neg (by simp [h]), if_neg h]
        exact hdone'
  · obtain ⟨hweb, hcounted⟩ := hactive h
    obtain ⟨tallied, htallied⟩ : ∃ tallied : Run, tallied = { run with buttPaper := satAdd run.buttPaper paper } := ⟨_, rfl⟩
    have hsplices : tallied.splices = run.splices := by rw [htallied]
    rw [hcounted, ← htallied]
    rw [← hsplices] at hweb ⊢
    refine ⟨hweb, fun hshort => Run.withSplice_short hshort _, fun hlast => Run.withSplice_last hlast _,
      fun rs r hrs hlength => Run.withSplice_aggregate hrs hlength _, ?_⟩
    rw [Run.withSplice_buttPaper, htallied]
    exact Nat.min_comm _ _
  · rw [hd'] at hanswered
    exact hanswered.of_same (by rw [hdisposal, hmpos, Position.disposal_setDisposal]) (by rw [htparts]; exact heorders) holdReel
      (by rw [htparts]; exact hebays)

end Sys2Proof.Machine
end

section
/-!
PROOF. One change made to each of several positions or webs, the filters and the level inputs (O51).
-/

namespace Sys2Proof.Machine

open Sys2Proof

variable {s t u : State} {p k l n w : Nat} {a : Arm} {x y : Position} {i : FieldInput} {active high : Bool}

/-! ### Positions and webs in turn -/

/-- `t` is `s` but for its positions. -/
def State.OnPositions (s t : State) : Prop := t = { s with positions := t.positions }

theorem State.OnPositions.refl (s : State) : s.OnPositions s := rfl

theorem State.OnPositions.trans (h : s.OnPositions t) (g : t.OnPositions u) : s.OnPositions u := by
  unfold State.OnPositions at *
  refine g.trans ?_
  rw [h]

/-- Each position of a list changed once, by a step that changes it alone. -/
theorem forEach_positions {f : Nat → State → State} {g : Nat → Position → Position}
    (hf : ∀ (k : Nat) (t : State), s.OnPositions t →
      (f k t).pos k = g k (t.pos k) ∧ (∀ j, j ≠ k → (f k t).pos j = t.pos j) ∧ t.OnPositions (f k t)) :
    ∀ {ns : List Nat} (t : State), s.OnPositions t → ns.Nodup →
      s.OnPositions (forEach ns f t) ∧ ∀ k, (forEach ns f t).pos k = if k ∈ ns then g k (t.pos k) else t.pos k
  | [], t, h, _ => ⟨h, fun _ => rfl⟩
  | n :: ns, t, h, hnodup => by
    obtain ⟨hn, hrest⟩ := List.nodup_cons.1 hnodup
    obtain ⟨hturn, hothers, hparts⟩ := hf n t h
    obtain ⟨hall, hpos⟩ := forEach_positions hf (f n t) (h.trans hparts) hrest
    refine ⟨hall, fun k => (hpos k).trans ?_⟩
    by_cases hk : k = n
    · subst hk
      rw [if_neg hn, if_pos List.mem_cons_self, hturn]
    · rw [hothers k hk]
      exact if_congr ⟨List.mem_cons_of_mem _, fun h => (List.mem_cons.1 h).resolve_left hk⟩ rfl rfl

theorem State.onPos_each (s : State) (g : Position → Position) {ns : List Nat} (h : ns.Nodup) :
    s.OnPositions (forEach ns (fun p s => s.onPos p g) s) ∧
      ∀ k, (forEach ns (fun p s => s.onPos p g) s).pos k = if k ∈ ns then g (s.pos k) else s.pos k :=
  forEach_positions (g := fun _ => g) (fun _ _ _ => ⟨State.onPos_pos_same _ _ _, fun _ hj => State.onPos_pos_other _ hj _, rfl⟩) s rfl h

/-- Two parts that read alike in every position, and agree in all else. -/
structure State.Alike (s t : State) : Prop where
  pos : ∀ p, s.pos p = t.pos p
  rest : t.OnPositions s

theorem State.Alike.setPos (h : s.Alike t) (p : Nat) (x : Position) : (s.setPos p x).Alike (t.setPos p x) := by
  refine ⟨fun k => ?_, ?_⟩
  · rw [State.pos_setPos, State.pos_setPos, h.pos]
  · have hrest := h.rest
    unfold State.OnPositions at *
    rw [hrest]
    rfl

theorem State.Alike.inputs (h : s.Alike t) (l : Nat) : s.pressRunning l = t.pressRunning l ∧ s.estop = t.estop := by
  rw [h.rest]
  exact ⟨rfl, rfl⟩

theorem State.Alike.settle (h : s.Alike t) (p : Nat) : (s.settle p).Alike (t.settle p) := by
  have hdrive : (s.tryAccel p).Alike (t.tryAccel p) := by
    obtain ⟨hpress, hestop⟩ := h.inputs (lineOfPosition p)
    unfold State.tryAccel
    rw [h.pos, hpress, hestop]
    dsimp only
    split
    · exact h.setPos p _
    · exact h
  have harm : ((s.tryAccel p).tryArm p).Alike ((t.tryAccel p).tryArm p) := by
    unfold State.tryArm
    rw [hdrive.pos]
    dsimp only
    split
    · exact hdrive.setPos p _
    · exact hdrive
  unfold State.settle State.tryFire
  rw [harm.pos]
  dsimp only
  split
  · exact harm.setPos p _
  · exact harm

/-- The transitions of a position as it stands (R112). -/
theorem State.settle_spec (s : State) (p : Nat) : (s.settle p).pos p = (s.pos p).settled (s.clearToDrive p) ∧
    (∀ k, k ≠ p → (s.settle p).pos k = s.pos k) ∧ s.OnPositions (s.settle p) := by
  have hself : s.Alike (s.setPos p (s.pos p)) := ⟨fun k => by rw [State.pos_setPos]; split <;> simp [*], rfl⟩
  have hsettled := hself.settle p
  rw [State.settle_setPos] at hsettled
  refine ⟨(hsettled.pos p).trans (State.pos_setPos_same _ _ _), fun k hk => (hsettled.pos k).trans (State.pos_setPos_other _ hk _), ?_⟩
  exact hsettled.rest

theorem State.settle_each (s : State) {ns : List Nat} (h : ns.Nodup) : s.OnPositions (forEach ns (fun p s => s.settle p) s) ∧
    ∀ k, (forEach ns (fun p s => s.settle p) s).pos k = if k ∈ ns then (s.pos k).settled (s.clearToDrive k) else s.pos k := by
  refine forEach_positions (g := fun k x => x.settled (s.clearToDrive k)) (fun k t ht => ?_) s rfl h
  obtain ⟨hpos, hothers, hrest⟩ := t.settle_spec k
  have hclear : t.clearToDrive k = s.clearToDrive k := by
    rw [ht]
    rfl
  exact ⟨hclear ▸ hpos, hothers, hrest⟩

theorem positionsOfLine_nodup (l : Nat) : (positionsOfLine l).Nodup := (positionsOfLine_ascending l).imp Nat.ne_of_lt

theorem forEach_congr {f g : Nat → State → State} {P : State → Prop} (h : ∀ k t, P t → f k t = g k t ∧ P (g k t)) :
    ∀ (ns : List Nat) (t : State), P t → forEach ns f t = forEach ns g t
  | [], _, _ => rfl
  | n :: ns, t, ht => by
    obtain ⟨heq, hp⟩ := h n t ht
    show forEach ns f (f n t) = forEach ns g (g n t)
    rw [heq]
    exact forEach_congr h ns _ hp

/-- START opens on every running web of a line, and nothing else changes (R147). -/
theorem State.websChanged_openStart (s : State) (l : Nat) :
    s.WebsChanged (s.openStart l) (s.runningWebs l) fun x => x.opened .start (s.line l).startSlot none := by
  have hfixed : s.openStart l =
      forEach (s.runningWebs l) (fun w t => t.onWeb w fun x => x.opened .start (s.line l).startSlot none) s := by
    unfold State.openStart
    refine forEach_congr (P := fun t => t.lines = s.lines) (fun w t ht => ⟨?_, ?_⟩) _ s rfl
    case refine_2 => exact ht
    rw [State.line_of_lines ht]
  rw [hfixed]
  exact .forEach (s.runningWebs_nodup l) s fun w t _ => .onWeb t w _

/-! ### Press stop and emergency stop (R123, R124) -/

theorem Position.stopped_of (h : x.sequence ∈ [Sequence.accel, .matched, .armed]) : x.stopped = { x with
    sequence := .ready, outputs := { x.outputs with accelA := false, accelB := false }, splice := { x.splice with matchMs := none } } := by
  unfold Position.stopped
  split
  · rfl
  · rfl
  · rfl
  · simp_all

theorem Position.stopped_of_not (h : x.sequence ∉ [Sequence.accel, .matched, .armed]) : x.stopped = x := by
  unfold Position.stopped
  split
  · simp_all
  · simp_all
  · simp_all
  · rfl

/-! ### Level inputs (R131) -/

theorem inputExists_line (hl : 1 ≤ l ∧ l ≤ 2) : inputExists (.divert l) = true ∧ inputExists (.pressRunning l) = true :=
  ⟨lineOk_iff.2 hl, lineOk_iff.2 hl⟩

theorem State.acceptedLevel_changed (hexists : inputExists i = true) (h : (s.filter i).level ≠ active) :
    s.acceptedLevel i active = (s.setFilter i ⟨active, 0⟩).blockTakes i active := (if_neg h).trans (if_pos hexists)

theorem exec_divertChange (hl : 1 ≤ l ∧ l ≤ 2) (h : (s.line l).divert.level ≠ active) :
    exec (.divertChange l active) s = .next (s.setLine l { s.line l with divert := ⟨active, 0⟩ }).transmit := by
  have htaken := State.acceptedLevel_changed (i := .divert l) (inputExists_line hl).1 h
  have hblock : ∀ t : State, t.blockTakes (.divert l) active = t := fun t => by cases active <;> rfl
  exact congrArg (fun t => Host.Outcome.next (State.transmit t)) (htaken.trans (hblock _))

/-- The line with its press running input at a level (R129). -/
def State.withPress (s : State) (l : Nat) (active : Bool) : State := s.setLine l { s.line l with press := ⟨active, 0⟩ }

theorem exec_pressRunningRise (hl : 1 ≤ l ∧ l ≤ 2) (h : (s.line l).press.level = false) :
    exec (.pressRunningRise l) s = .next ((s.withPress l true).pressStarts l).transmit := by
  have htaken := State.acceptedLevel_changed (i := .pressRunning l) (active := true) (inputExists_line hl).2
    (fun k => Bool.false_ne_true (h.symm.trans k))
  exact congrArg (fun t => Host.Outcome.next (State.transmit t)) htaken

theorem exec_pressRunningFall (hl : 1 ≤ l ∧ l ≤ 2) (h : (s.line l).press.level = true) :
    exec (.pressRunningFall l) s = .next ((s.withPress l false).pressStops l).transmit := by
  have htaken := State.acceptedLevel_changed (i := .pressRunning l) (active := false) (inputExists_line hl).2
    (fun k => Bool.false_ne_true (k.symm.trans h))
  exact congrArg (fun t => Host.Outcome.next (State.transmit t)) htaken

theorem State.withPress_line (s : State) (l : Nat) (active : Bool) :
    (s.withPress l active).line l = { s.line l with press := ⟨active, 0⟩ } := State.line_setLine_same _ _ _

theorem State.clearToDrive_withPress (hl : l ∈ [1, 2]) (hp : p ∈ positionsOfLine l) (hestop : s.estop.level = false) :
    (s.withPress l true).clearToDrive p = true := by
  unfold State.clearToDrive State.pressRunning
  rw [State.Keeps.lineOfPosition_of_mem hl hp, State.withPress_line]
  show (true && !s.estop.level) = true
  rw [hestop]
  rfl

/-! ### The filter of an input (R129) -/

theorem exec_inputFilterSample (hexists : inputExists i = true) : exec (.inputFilterSample i high) s =
    .next (if ((s.filter i).step (s.filterCount i) (inputActive i high)).2 then s.accepted i (inputActive i high)
      else s.setFilter i ((s.filter i).step (s.filterCount i) (inputActive i high)).1).transmit :=
  congrArg (fun t => Host.Outcome.next (State.transmit t)) (if_pos hexists)

theorem Filter.step_same {f : Filter} (n : Nat) (h : f.level = active) : f.step n active = (⟨f.level, 0⟩, false) := if_pos h.symm

theorem Filter.step_counts {f : Filter} (h : f.level ≠ active) (hn : f.run + 1 < n) : f.step n active = (⟨f.level, f.run + 1⟩, false) :=
  (if_neg (Ne.symm h)).trans (if_neg (not_le.2 hn))

theorem Filter.step_accepts {f : Filter} (h : f.level ≠ active) (hn : n ≤ f.run + 1) : f.step n active = (⟨active, 0⟩, true) :=
  (if_neg (Ne.symm h)).trans (if_pos hn)

/-- The sample that reaches the filter's count is the accepted change (R129). -/
theorem exec_inputFilterSample_accepts (hexists : inputExists i = true) (h : (s.filter i).level ≠ inputActive i high)
    (hn : s.filterCount i ≤ (s.filter i).run + 1) :
    exec (.inputFilterSample i high) s = .next (s.accepted i (inputActive i high)).transmit := by
  rw [exec_inputFilterSample hexists, Filter.step_accepts h hn]
  rfl

/-- The accepted change of a level input is the change its own command makes. -/
theorem State.acceptedLevel_of_ne (h : (s.filter i).level ≠ active) : s.acceptedLevel i active = s.accepted i active := if_neg h

/-- Settles O51: the filter by its count, and each level input by what its accepted change does to the webs and positions of the line. -/
theorem levelInputs : Obligations.LevelInputs := by
  have hline : ∀ {l : Nat}, 1 ≤ l → l ≤ 2 → l ∈ [1, 2] := fun h h' => by simp; omega
  refine ⟨fun s l b h1 h2 h => exec_divertChange ⟨h1, h2⟩ h, fun s l h1 h2 h => ?_, fun s l h1 h2 h => ?_, fun s i high hexists => ?_,
    fun i => ?_, fun l => ⟨rfl, rfl⟩, fun i high h => ?_⟩
  · have hopened := (s.withPress l true).websChanged_openStart l
    obtain ⟨hrest, hpos⟩ := ((s.withPress l true).openStart l).settle_each (positionsOfLine_nodup l)
    have hwebs : ∀ w, ((s.withPress l true).pressStarts l).web w = ((s.withPress l true).openStart l).web w := fun w =>
      State.web_of_webs (by rw [State.pressStarts, hrest]) w
    have hposStart : ∀ p, ((s.withPress l true).openStart l).pos p = s.pos p := fun p =>
      State.pos_of_positions (by rw [hopened.rest]; rfl) p
    have hclear : ∀ p, ((s.withPress l true).openStart l).clearToDrive p = (s.withPress l true).clearToDrive p := fun p => by
      rw [hopened.rest]
      rfl
    refine ⟨_, exec_pressRunningRise ⟨h1, h2⟩ h, ?_, fun w hw hweb => ?_, fun w hw => ?_, fun p hp hready hlength hestop => ?_,
      fun p hp => ?_, ?_, ?_, ?_⟩
    · rw [State.pressStarts, hrest, hopened.rest]
      exact s.withPress_line l true
    · have hstart : ((s.withPress l true).line l).startSlot = (s.line l).startSlot := by rw [s.withPress_line l true]
      rw [hwebs, hopened.inside w (State.mem_runningWebs.2 ⟨hw, hweb⟩), hstart]
      rfl
    · rw [hwebs, hopened.outside w fun k => ?_]
      · rfl
      · obtain ⟨hmem, hweb⟩ := State.mem_runningWebs.1 k
        exact hw.elim (fun hw => hw hmem) fun hw => Bool.false_ne_true (hw.symm.trans hweb)
    · have hturn : ((s.withPress l true).pressStarts l).pos p = (s.pos p).accelerating := by
        refine (hpos p).trans ?_
        rw [if_pos hp, hposStart, hclear, State.clearToDrive_withPress (hline h1 h2) hp hestop, Position.settled_drives hready hlength rfl]
      rw [hturn]
      exact ⟨rfl, Position.accelerating_accel _⟩
    · exact (hpos p).trans ((if_neg hp).trans (hposStart p))
    all_goals
      rw [State.pressStarts, hrest, hopened.rest]
      rfl
  · obtain ⟨hrest, hpos⟩ := (s.withPress l false).onPos_each Position.stopped (positionsOfLine_nodup l)
    refine ⟨_, exec_pressRunningFall ⟨h1, h2⟩ h, ?_, ?_, fun p hp hs => ?_, fun p hp => ?_, ?_, ?_, ?_⟩
    · rw [State.pressStops, hrest]
      exact s.withPress_line l false
    · rw [State.pressStops, hrest]
      rfl
    · exact ((hpos p).trans (if_pos hp)).trans (Position.stopped_of hs)
    · refine (hpos p).trans ?_
      by_cases hmem : p ∈ positionsOfLine l
      · rw [if_pos hmem]
        exact Position.stopped_of_not (hp.resolve_left fun k => k hmem)
      · rw [if_neg hmem]
        rfl
    all_goals
      rw [State.pressStops, hrest]
      rfl
  · refine ⟨fun hsame => ?_, fun hne hcount => ?_, fun hlevel hactive hcount => ?_, fun hlevel hactive hcount => ?_⟩
    · rw [exec_inputFilterSample hexists, Filter.step_same _ hsame]
      rfl
    · rw [exec_inputFilterSample hexists, Filter.step_counts hne hcount]
      rfl
    · have hne : (s.filter i).level ≠ true := fun k => Bool.false_ne_true (hlevel.symm.trans k)
      have hlevel' := State.acceptedLevel_of_ne hne
      rw [exec_inputFilterSample_accepts hexists (by rw [hactive]; exact hne) hcount, hactive]
      cases i with
      | copy l => rfl
      | divert l => exact congrArg (fun t => Host.Outcome.next (State.transmit t)) hlevel'.symm
      | pressRunning l => exact congrArg (fun t => Host.Outcome.next (State.transmit t)) hlevel'.symm
      | revolutionMark p => rfl
      | spliceConfirm p => rfl
      | emergencyStop => exact congrArg (fun t => Host.Outcome.next (State.transmit t)) hlevel'.symm
    · have hne : (s.filter i).level ≠ false := fun k => Bool.false_ne_true (k.symm.trans hlevel)
      have hlevel' := State.acceptedLevel_of_ne hne
      have htaken : s.accepted i false = (s.setFilter i ⟨false, 0⟩).blockTakes i false := if_pos hexists
      rw [exec_inputFilterSample_accepts hexists (by rw [hactive]; exact hne) hcount, hactive]
      cases i with
      | copy l => exact congrArg (fun t => Host.Outcome.next (State.transmit t)) htaken
      | divert l => exact congrArg (fun t => Host.Outcome.next (State.transmit t)) hlevel'.symm
      | pressRunning l => exact congrArg (fun t => Host.Outcome.next (State.transmit t)) hlevel'.symm
      | revolutionMark p => exact congrArg (fun t => Host.Outcome.next (State.transmit t)) htaken
      | spliceConfirm p => exact congrArg (fun t => Host.Outcome.next (State.transmit t)) htaken
      | emergencyStop => exact congrArg (fun t => Host.Outcome.next (State.transmit t)) hlevel'.symm
  · cases i with
    | copy l => exact .inr ⟨l, rfl, rfl⟩
    | _ => exact .inl rfl
  · cases i with
    | copy l => exact absurd rfl (h l)
    | _ => rfl

end Sys2Proof.Machine
end

section
/-!
PROOF. What a HALT-ALL put into a full queue does not disturb: the splice sequences and the HALTs queued; and the emergency stop (O52).
-/

namespace Sys2Proof.Machine

open Sys2Proof

variable {s t u : State} {p k l n v w r : Nat} {a : Arm} {x y : Position} {o : Order} {f : VehicleFrame} {q : List VehicleFrame}

/-! ### What a displaced GO does not disturb -/

/-- The splice sequences stand, and so do the HALTs in the outbound queue. -/
structure State.Undisturbed (s u : State) : Prop where
  sequence : ∀ p, (u.pos p).sequence = (s.pos p).sequence
  halts : ∀ f ∈ s.vlink.queue, f.isHalt = true → f ∈ u.vlink.queue

theorem State.Undisturbed.of_eq (hpos : u.positions = s.positions) (hqueue : u.vlink = s.vlink) : s.Undisturbed u :=
  ⟨fun p => by rw [State.pos_of_positions hpos], fun f hf _ => by rw [hqueue]; exact hf⟩

theorem State.Undisturbed.refl (s : State) : s.Undisturbed s := .of_eq rfl rfl

theorem State.Undisturbed.trans (h : s.Undisturbed t) (g : t.Undisturbed u) : s.Undisturbed u :=
  ⟨fun p => (g.sequence p).trans (h.sequence p), fun f hf hhalt => g.halts f (h.halts f hf hhalt) hhalt⟩

theorem State.onPos_undisturbed (s : State) (p : Nat) {g : Position → Position} (hg : ∀ x : Position, (g x).sequence = x.sequence) :
    s.Undisturbed (s.onPos p g) := by
  refine ⟨fun k => ?_, fun f hf _ => hf⟩
  by_cases hk : k = p
  · subst hk
    rw [State.onPos_pos_same, hg]
  · rw [State.onPos_pos_other _ hk]

theorem Position.setDisposal_sequence (a : Arm) (d : Option Disposal) (x : Position) : (x.setDisposal a d).sequence = x.sequence := by
  cases a <;> rfl

theorem mem_refillFrom (hf : f ∈ q) (w : List VehicleFrame) : f ∈ (refillFrom q w).1 := by
  obtain ⟨moved, hq, -⟩ := refillFrom_spec q w
  rw [hq]
  exact List.mem_append_left _ hf

/-- A queue that holds every HALT of the one before it. -/
theorem State.setFrames_undisturbed (hq : ∀ f ∈ s.vlink.queue, f.isHalt = true → f ∈ q) (w : List VehicleFrame) :
    s.Undisturbed (s.setFrames q w) :=
  ⟨fun _ => rfl, fun f hf hhalt => mem_refillFrom (hq f hf hhalt) w⟩

theorem State.enqueue_undisturbed (s : State) (f : VehicleFrame) : s.Undisturbed (s.enqueue f) := by
  unfold State.enqueue
  split
  · exact .refl s
  · exact State.setFrames_undisturbed (fun _ hf _ => hf) _

theorem VehicleFrame.not_go_of_halt (h : f.isHalt = true) : f.isGo = false := by
  cases f with
  | halt _ => rfl
  | _ => exact nomatch h

theorem State.withdraw_undisturbed {g : VehicleFrame → Bool} (hg : ∀ f, f.isHalt = true → g f = false) : s.Undisturbed (s.withdraw g) :=
  State.setFrames_undisturbed (fun f hf hhalt => List.mem_filter.2 ⟨hf, by rw [hg f hhalt]; rfl⟩) _

theorem State.withdrawOrderGo_undisturbed (s : State) (n : Nat) : s.Undisturbed (s.withdrawOrderGo n) := by
  refine State.withdraw_undisturbed fun f hhalt => ?_
  rw [VehicleFrame.not_go_of_halt hhalt]
  rfl

theorem State.raise_undisturbed (s : State) (c : Subjects) : s.Undisturbed (s.raise c) := .of_eq (by simp) (by simp)

/-! ### Legs -/

theorem State.routeLeg_undisturbed (s : State) (n : Nat) (o : Order) (v : Nat) : s.Undisturbed (s.routeLeg n o v) := by
  have hask (target : Nat) (zs : List Nat) : s.Undisturbed (s.askZones n o v target zs) := by
    unfold State.askZones
    split
    · unfold State.offerLeg
      refine State.Undisturbed.trans ?_ (State.enqueue_undisturbed _ _)
      exact .of_eq rfl rfl
    · exact .of_eq rfl rfl
  unfold State.routeLeg
  split
  · exact .refl s
  split
  · exact hask _ _
  split
  · exact hask _ _
  · refine State.Undisturbed.trans ?_ (State.raise_undisturbed _ _)
    exact .of_eq rfl rfl

theorem State.requestLeg_undisturbed (s : State) (n : Nat) : s.Undisturbed (s.requestLeg n) := by
  unfold State.requestLeg
  split
  · exact .refl s
  split
  · exact .refl s
  split
  · split
    · dsimp only
      split
      · exact s.routeLeg_undisturbed n _ _
      · exact .of_eq rfl rfl
    · exact s.routeLeg_undisturbed n _ _
  · exact .refl s

theorem State.recallLeg_undisturbed (s : State) (n : Nat) (o : Order) : s.Undisturbed (s.recallLeg n o) := by
  refine (s.withdrawOrderGo_undisturbed n).trans (.of_eq ?_ ?_) <;> rw [State.recallLeg_eq]
  rfl

/-! ### Orders made from the backlog -/

theorem State.createOrder_undisturbed (s : State) (d : NewOrder) : s.Undisturbed (s.createOrder d) := by
  rw [State.createOrder_eq]
  exact .of_eq rfl rfl

theorem State.makeDeliver_undisturbed (s : State) (p r : Nat) (q : Priority) : s.Undisturbed (s.makeDeliver p r q) := by
  have hmade := s.createOrder_undisturbed (s.deliverOrder p r q)
  have hleft : s.Undisturbed ((s.createOrder (s.deliverOrder p r q)).leaveQueue p) := hmade.trans (.of_eq rfl rfl)
  have hordered := hleft.trans (State.onPos_undisturbed _ p (g := fun x => { x with
    callOff := { x.callOff with state := .ordered, ordersFull := false } }) fun _ => rfl)
  unfold State.makeDeliver
  dsimp only
  split
  · exact hordered.trans (.of_eq rfl rfl)
  · exact hordered

theorem State.makeDisposal_undisturbed (s : State) (p : Nat) (a : Arm) (d : DisposalKind) (q : Priority) :
    s.Undisturbed (s.makeDisposal p a d q) := by
  have hset (u : State) (c : Disposal) : u.Undisturbed (u.onPos p fun x => x.setDisposal a (some c)) :=
    u.onPos_undisturbed p (Position.setDisposal_sequence a _)
  unfold State.makeDisposal
  split
  · exact .refl s
  split
  · exact .refl s
  · split
    · exact (s.createOrder_undisturbed _).trans (hset _ _)
    · exact hset _ _
  · split
    · exact (s.createOrder_undisturbed _).trans (hset _ _)
    · exact hset _ _

theorem State.makeItem_undisturbed (s : State) (i : BacklogItem) : s.Undisturbed (s.makeItem i) := by
  cases i with
  | delivery p r q => exact s.makeDeliver_undisturbed p r q
  | disposal p a d q => exact s.makeDisposal_undisturbed p a d q

theorem fillUpTo_undisturbed : ∀ (m : Nat) (s : State), s.Undisturbed (fillUpTo m s)
  | 0, s => .refl s
  | m + 1, s => by
    unfold fillUpTo
    split
    · exact .refl s
    case h_2 i is _ =>
      split
      · exact .refl s
      · have hset : s.Undisturbed (s.setBacklog is) := .of_eq rfl rfl
        exact (hset.trans (State.makeItem_undisturbed _ i)).trans (fillUpTo_undisturbed m _)

/-! ### Removal, conversion and HALT -/

theorem State.freeReel_undisturbed (s : State) (r : Nat) : s.Undisturbed (s.freeReel r) := by
  unfold State.freeReel
  split
  · exact .refl s
  split
  · refine .of_eq ?_ ?_ <;> rw [State.release_eq]
  · dsimp only
    split
    · refine State.Undisturbed.trans ?_ (State.onPos_undisturbed _ _ (Position.setDisposal_sequence _ _))
      exact .of_eq rfl rfl
    · exact .of_eq rfl rfl

theorem State.callOffEnds_undisturbed (s : State) (o : Order) : s.Undisturbed (s.callOffEnds o) := by
  unfold State.callOffEnds State.whenSome
  split
  · split
    · exact State.onPos_undisturbed _ _ fun _ => rfl
    · exact .refl s
  · exact .refl s

theorem State.orderGone_undisturbed (s : State) (n : Nat) (o : Order) : s.Undisturbed (s.orderGone n o) := by
  have hgone : s.Undisturbed ((s.withdrawOrderGo n).delOrder n) := (s.withdrawOrderGo_undisturbed n).trans (.of_eq rfl rfl)
  have hfreed : s.Undisturbed (((s.withdrawOrderGo n).delOrder n).whenSome o.reel State.freeReel) := by
    cases o.reel with
    | none => exact hgone
    | some r => exact hgone.trans (State.freeReel_undisturbed _ r)
  have hunpromised := hfreed.trans (u := (((s.withdrawOrderGo n).delOrder n).whenSome o.reel State.freeReel).whenSome
    o.destination.bay? State.unpromise) (by rw [State.unpromised_eq]; exact .of_eq rfl rfl)
  exact hunpromised.trans (State.callOffEnds_undisturbed _ o)

theorem State.removeOrder_undisturbed (s : State) (n : Nat) : s.Undisturbed (s.removeOrder n) := by
  unfold State.removeOrder
  split
  case h_2 => exact .refl s
  case h_1 o _ =>
    have hfreed : (s.orderGone n o).Undisturbed (s.dropOrder n o) := by
      rw [State.dropOrder_eq, State.freeVehicleOf_eq]
      exact .of_eq rfl rfl
    exact ((s.orderGone_undisturbed n o).trans hfreed).trans (fillUpTo_undisturbed _ _)

theorem State.rebooked_undisturbed (s : State) (n : Nat) (o : Order) (b : Nat) : s.Undisturbed (s.rebooked n o b) := by
  refine State.Undisturbed.trans ?_ (State.callOffEnds_undisturbed _ o)
  rw [State.reelConverted_eq, State.promise_eq, State.unpromised_eq]
  exact .of_eq rfl rfl

theorem State.convert_undisturbed (s : State) (n : Nat) : s.Undisturbed (s.convert n) := by
  cases ho : s.order n with
  | none =>
    have hsame : s.convert n = s := by simp only [State.convert, ho]
    rw [hsame]
    exact .refl s
  | some o =>
    cases hb : s.conversionBay o with
    | some b =>
      rw [State.convert_some ho hb]
      exact ((s.rebooked_undisturbed n o b).trans (State.recallLeg_undisturbed _ n o)).trans (State.requestLeg_undisturbed _ n)
    | none =>
      rw [State.convert_none ho hb, State.noSpace_eq]
      have hset : s.Undisturbed (s.setOrder n o.withoutSpace) := .of_eq rfl rfl
      exact (hset.trans (State.recallLeg_undisturbed _ n o)).trans (State.raise_undisturbed _ _)

theorem State.displaced_undisturbed (s : State) (n : Nat) : s.Undisturbed (s.displaced n) := by
  have hkeep (v : Nat) (z : Option Nat) : s.Undisturbed (s.keepZone v z) := .of_eq rfl rfl
  unfold State.displaced
  split
  · exact .refl s
  split
  · exact .refl s
  · dsimp only
    split
    · split
      · exact (hkeep _ _).trans (State.convert_undisturbed _ n)
      · exact (hkeep _ _).trans (State.removeOrder_undisturbed _ n)
    · split
      · exact (hkeep _ _).trans (State.requestLeg_undisturbed _ n)
      · exact .of_eq rfl rfl

/-- A HALT put into a queue is there, and no splice sequence has changed (R80). -/
theorem State.putHalt_undisturbed (s : State) (f : VehicleFrame) (hf : f.isHalt = true) (q : List VehicleFrame) :
    f ∈ (s.putHalt f q).vlink.queue ∧ ∀ p, ((s.putHalt f q).pos p).sequence = (s.pos p).sequence := by
  have hset (q w : List VehicleFrame) : f ∈ (s.setFrames (insertHalt f q) w).vlink.queue := mem_refillFrom (mem_insertHalt f q) w
  unfold State.putHalt
  split
  · exact ⟨hset _ _, fun _ => rfl⟩
  split
  case h_1 g rest _ =>
    have hdisplaced := (s.setFrames (insertHalt f rest) s.vlink.waiting).displaced_undisturbed g.goTag
    exact ⟨hdisplaced.halts f (hset _ _) hf, hdisplaced.sequence⟩
  case h_2 =>
    split
    · exact ⟨hset _ _, fun _ => rfl⟩
    · exact ⟨hset _ _, fun _ => rfl⟩

/-! ### The emergency stop (R79, R124) -/

theorem State.estopVehicle_eq (s : State) (v : Nat) : s.estopVehicle v = { s with vehicles := (s.estopVehicle v).vehicles } := by
  unfold State.estopVehicle
  split <;> rfl

theorem State.estopVehicle_other (h : k ≠ v) : (s.estopVehicle v).veh k = s.veh k := by
  unfold State.estopVehicle
  split
  · exact State.onVeh_veh_other _ h _
  · exact State.onVeh_veh_other _ h _
  · rfl

/-- A vehicle under way becomes STOPPED with its prior state (R79). -/
theorem State.estopVehicle_same (s : State) (v : Nat) :
    ((s.veh v).state = .offered → ((s.estopVehicle v).veh v).state = .stopped ∧ ((s.estopVehicle v).veh v).prior = some .offered) ∧
    ((s.veh v).state = .driving → ((s.estopVehicle v).veh v).state = .stopped ∧ ((s.estopVehicle v).veh v).prior = some .driving) ∧
    ((s.veh v).state = .stopped → (s.estopVehicle v).veh v = s.veh v) := by
  unfold State.estopVehicle
  refine ⟨fun h => ?_, fun h => ?_, fun h => ?_⟩
  · rw [h]
    dsimp only
    rw [State.onVeh_veh_same]
    exact ⟨rfl, rfl⟩
  · rw [h]
    dsimp only
    rw [State.onVeh_veh_same]
    exact ⟨rfl, rfl⟩
  · rw [h]

/-- The part after its vehicles are stopped (R79). -/
def State.vehiclesStopped (s : State) : State := forEach allVehicles (fun v s => s.estopVehicle v) s

theorem State.vehiclesStopped_eq (s : State) : s.vehiclesStopped = { s with vehicles := s.vehiclesStopped.vehicles } := by
  refine forEach_keeps (P := fun t => t = { s with vehicles := t.vehicles }) (fun k t h => ?_) allVehicles s rfl
  refine (t.estopVehicle_eq k).trans ?_
  rw [h]

theorem State.vehiclesStopped_veh (hv : v ∈ allVehicles) :
    ((s.veh v).state = .offered → (s.vehiclesStopped.veh v).state = .stopped ∧ (s.vehiclesStopped.veh v).prior = some .offered) ∧
    ((s.veh v).state = .driving → (s.vehiclesStopped.veh v).state = .stopped ∧ (s.vehiclesStopped.veh v).prior = some .driving) := by
  have hstays (q : PriorState) (k : Nat) (t : State) (h : (t.veh v).state = .stopped ∧ (t.veh v).prior = some q) :
      ((t.estopVehicle k).veh v).state = .stopped ∧ ((t.estopVehicle k).veh v).prior = some q := by
    have hsame : (t.estopVehicle k).veh v = t.veh v := by
      by_cases hk : v = k
      · subst hk
        exact (t.estopVehicle_same v).2.2 h.1
      · exact State.estopVehicle_other hk
    rw [hsame]
    exact h
  refine ⟨fun h => ?_, fun h => ?_⟩
  · exact forEach_reaches (P := fun t => (t.veh v).state = .offered) (Q := fun t => (t.veh v).state = .stopped ∧ (t.veh v).prior = some .offered)
      (fun k t hk h => by rw [State.estopVehicle_other hk.symm]; exact h) (fun t => (t.estopVehicle_same v).1) (hstays _) hv s h
  · exact forEach_reaches (P := fun t => (t.veh v).state = .driving) (Q := fun t => (t.veh v).state = .stopped ∧ (t.veh v).prior = some .driving)
      (fun k t hk h => by rw [State.estopVehicle_other hk.symm]; exact h) (fun t => (t.estopVehicle_same v).2.1) (hstays _) hv s h

/-- The part with its emergency stop input at a level (R129). -/
def State.withEstop (s : State) (active : Bool) : State := { s with estop := ⟨active, 0⟩ }

theorem exec_estopAsserted (h : s.estop.level = false) :
    exec .estopAsserted s = .next ((s.withEstop true).estopStarts.close s false).transmit := by
  have htaken : s.acceptedLevel .emergencyStop true = (s.withEstop true).estopStarts.close (s.withEstop true) false :=
    State.acceptedLevel_changed (i := .emergencyStop) rfl fun k => Bool.false_ne_true (h.symm.trans k)
  exact congrArg (fun t => Host.Outcome.next (State.transmit t)) (htaken.trans (State.close_congr rfl rfl _ _))

theorem exec_estopReleased (h : s.estop.level = true) :
    exec .estopReleased s = .next ((s.withEstop false).estopEnds.close s false).transmit := by
  have htaken : s.acceptedLevel .emergencyStop false = (s.withEstop false).estopEnds.close (s.withEstop false) false :=
    State.acceptedLevel_changed (i := .emergencyStop) rfl fun k => Bool.false_ne_true (k.symm.trans h)
  exact congrArg (fun t => Host.Outcome.next (State.transmit t)) (htaken.trans (State.close_congr rfl rfl _ _))

/-- The part with its vehicles stopped and no RESUME left, before its positions are (R79). -/
def State.fleetStopped (s : State) : State := s.queueHaltAll.vehiclesStopped.withdraw VehicleFrame.isResume

/-- The part before the ESTOP of an emergency stop asserted (R79, R124). -/
def State.allHalted (s : State) : State := forEach allPositions (fun p s => s.onPos p Position.stopped) s.fleetStopped

theorem State.estopStarts_eq (s : State) : s.estopStarts = s.allHalted.raise (.estop true) := rfl

theorem State.fleetStopped_eq (s : State) : s.fleetStopped = { s.queueHaltAll with
    vehicles := s.queueHaltAll.vehiclesStopped.vehicles, vlink := s.fleetStopped.vlink } := by
  have hstopped := s.queueHaltAll.vehiclesStopped_eq
  unfold State.fleetStopped
  rw [State.withdraw_eq, hstopped]

theorem allPositions_nodup : allPositions.Nodup := by decide

theorem State.allHalted_spec (s : State) : s.fleetStopped.OnPositions s.allHalted ∧
    ∀ k, s.allHalted.pos k = if k ∈ allPositions then (s.queueHaltAll.pos k).stopped else s.queueHaltAll.pos k := by
  obtain ⟨hrest, hpos⟩ := s.fleetStopped.onPos_each Position.stopped allPositions_nodup
  have hsame : ∀ k, s.fleetStopped.pos k = s.queueHaltAll.pos k := fun k => State.pos_of_positions (by rw [State.fleetStopped_eq]) k
  refine ⟨hrest, fun k => (hpos k).trans ?_⟩
  rw [hsame]

theorem State.fleetStopped_halt (s : State) : VehicleFrame.halt 0 ∈ s.fleetStopped.vlink.queue := by
  have hqueued : VehicleFrame.halt 0 ∈ s.queueHaltAll.vlink.queue := (s.putHalt_undisturbed (.halt 0) rfl _).1
  have hvehicles : s.queueHaltAll.vehiclesStopped.vlink = s.queueHaltAll.vlink := by rw [State.vehiclesStopped_eq]
  refine (State.withdraw_undisturbed fun f hf => ?_).halts _ (by rw [hvehicles]; exact hqueued) rfl
  cases f with
  | halt _ => rfl
  | _ => exact nomatch hf

theorem mem_allPositions : p ∈ allPositions ↔ 1 ≤ p ∧ p ≤ 8 := by
  unfold allPositions
  simp
  omega

/-- What the HALT-ALL and the stops change of the part. -/
theorem State.allHalted_eq (s : State) : s.allHalted = { s.queueHaltAll with
    vehicles := s.queueHaltAll.vehiclesStopped.vehicles, vlink := s.fleetStopped.vlink, positions := s.allHalted.positions } := by
  have hrest := s.allHalted_spec.1
  unfold State.OnPositions at hrest
  refine hrest.trans ?_
  rw [s.fleetStopped_eq]

theorem State.queueHaltAll_apart (s : State) :
    s.queueHaltAll.estop = s.estop ∧ s.queueHaltAll.lines = s.lines ∧ s.queueHaltAll.webs = s.webs := by
  have hapart : s.queueHaltAll.apart = s.apart := Moves.apart (Moves.queueHaltAll .refl)
  exact ⟨congrArg Apart.estop hapart, congrArg Apart.lines hapart, congrArg Apart.webs hapart⟩

/-- With room behind the HALTs, a HALT-ALL raises nothing (R80). -/
theorem State.queueHaltAll_room (h : (s.vlink.queue.filter fun f => !f.isHalt).length < 16) :
    s.queueHaltAll.notices = s.notices ∧ s.queueHaltAll.clock = s.clock := by
  unfold State.queueHaltAll
  rw [State.putHalt_room h]
  exact ⟨rfl, rfl⟩

theorem State.allHalted_veh (s : State) (hv : v ∈ allVehicles) :
    ((s.veh v).state = .offered → (s.allHalted.veh v).state = .stopped ∧ (s.allHalted.veh v).prior = some .offered) ∧
    ((s.veh v).state = .driving → (s.allHalted.veh v).state = .stopped ∧ (s.allHalted.veh v).prior = some .driving) := by
  have hstays : s.Stays s.queueHaltAll v := s.putHalt_stays _ _ v
  have hveh : s.allHalted.veh v = s.queueHaltAll.vehiclesStopped.veh v := State.veh_of_vehicles (by rw [State.allHalted_eq]) v
  obtain ⟨hoffered, hdriving⟩ := State.vehiclesStopped_veh (s := s.queueHaltAll) hv
  rw [hveh]
  refine ⟨fun hs => hoffered ?_, fun hs => hdriving ?_⟩
  · exact (hstays.state (by rw [hs]; simp)).trans hs
  · exact (hstays.state (by rw [hs]; simp)).trans hs

theorem State.allHalted_sequence (s : State) (hp : 1 ≤ p ∧ p ≤ 8) :
    ((s.pos p).sequence ∈ [Sequence.accel, .matched, .armed] → (s.allHalted.pos p).sequence = .ready ∧
      (s.allHalted.pos p).outputs.accelA = false ∧ (s.allHalted.pos p).outputs.accelB = false) ∧
    ((s.pos p).sequence ∉ [Sequence.accel, .matched, .armed] → (s.allHalted.pos p).sequence = (s.pos p).sequence ∧
      (s.allHalted.pos p).outputs = (s.pos p).outputs) := by
  have hsequence : (s.queueHaltAll.pos p).sequence = (s.pos p).sequence := (s.putHalt_undisturbed (.halt 0) rfl _).2 p
  have houtputs : (s.queueHaltAll.pos p).outputs = (s.pos p).outputs := ((Moves.queueHaltAll .refl).calm p).outputs
  rw [s.allHalted_spec.2, if_pos (mem_allPositions.2 hp)]
  refine ⟨fun hs => ?_, fun hs => ?_⟩
  · rw [Position.stopped_of (by rw [hsequence]; exact hs)]
    exact ⟨rfl, rfl, rfl⟩
  · rw [Position.stopped_of_not (by rw [hsequence]; exact hs)]
    exact ⟨hsequence, houtputs⟩

theorem State.allHalted_frames (s : State) : VehicleFrame.halt 0 ∈ s.allHalted.vlink.queue ∧
    ∀ f ∈ s.allHalted.vlink.queue ++ s.allHalted.vlink.waiting, f.isResume = false := by
  have hframes : s.allHalted.vlink = s.fleetStopped.vlink := by rw [State.allHalted_eq]
  rw [hframes]
  exact ⟨s.fleetStopped_halt, fun f hf => (State.mem_withdraw.1 hf).2⟩

theorem State.allHalted_apart (s : State) : s.allHalted.estop = s.estop ∧ s.allHalted.lines = s.lines ∧ s.allHalted.webs = s.webs ∧
    s.allHalted.notices = s.queueHaltAll.notices ∧ s.allHalted.clock = s.queueHaltAll.clock := by
  obtain ⟨hestop, hlines, hwebs⟩ := s.queueHaltAll_apart
  rw [State.allHalted_eq]
  exact ⟨hestop, hlines, hwebs, rfl, rfl⟩

/-- The stop released: the ESTOP, and the positions that may go on (R79, R124). -/
theorem State.estopEnds_spec (s : State) : s.estopEnds = { s with positions := s.estopEnds.positions, notices := (s.raise (.estop false)).notices } ∧
    ∀ k ∈ allPositions, s.estopEnds.pos k = (s.pos k).settled (s.clearToDrive k) := by
  obtain ⟨hrest, hpos⟩ := (s.raise (.estop false)).settle_each allPositions_nodup
  unfold State.OnPositions at hrest
  have hclear : ∀ k, (s.raise (.estop false)).clearToDrive k = s.clearToDrive k := fun k => by
    rw [State.raise_eq]
    rfl
  refine ⟨?_, fun k hk => ?_⟩
  · unfold State.estopEnds
    refine hrest.trans ?_
    rw [State.raise_eq]
  · refine (hpos k).trans ?_
    rw [if_pos hk, hclear, State.raise_pos]

/-- Settles O52: what HALT-ALL leaves undisturbed, then each vehicle and each position at its turn. -/
theorem emergencyStop : Obligations.EmergencyStop := by
  refine ⟨fun s h => ?_, fun s h => ?_⟩
  · have hexec := exec_estopAsserted h
    rw [State.estopStarts_eq] at hexec
    have hraise : ((s.withEstop true).allHalted.raise (.estop true)).veh = (s.withEstop true).allHalted.veh := funext fun v => State.raise_veh _ _ v
    have hpos : ((s.withEstop true).allHalted.raise (.estop true)).pos = (s.withEstop true).allHalted.pos := funext fun v => State.raise_pos _ _ v
    obtain ⟨hestop, hlines, hwebs, hnotices, hclock⟩ := (s.withEstop true).allHalted_apart
    obtain ⟨hhalt, hresume⟩ := (s.withEstop true).allHalted_frames
    refine ⟨_, _, hexec, rfl, hnotices, fun hroom => ?_, ?_, ?_, ?_, fun v h1 h12 => ?_, fun p h1 h8 hs => ?_, fun p h1 h8 hs => ?_, ?_, ?_⟩
    · obtain ⟨hn, hc⟩ := State.queueHaltAll_room (s := s.withEstop true) hroom
      exact State.raise_notices_congr (t := s) (hnotices.trans hn) (hclock.trans hc) _
    · rw [State.raise_estop, hestop]
      rfl
    · rw [State.raise_vlink, List.contains_iff_mem]
      exact hhalt
    · rw [State.raise_vlink]
      exact hresume
    · rw [hraise]
      exact (s.withEstop true).allHalted_veh (mem_allVehicles.2 ⟨h1, h12⟩)
    · rw [hpos]
      exact ((s.withEstop true).allHalted_sequence ⟨h1, h8⟩).1 hs
    · rw [hpos]
      exact ((s.withEstop true).allHalted_sequence ⟨h1, h8⟩).2 hs
    · rw [State.raise_lines, hlines]
      rfl
    · rw [State.raise_webs, hwebs]
      rfl
  · obtain ⟨hrest, hpos⟩ := (s.withEstop false).estopEnds_spec
    refine ⟨_, exec_estopReleased h, ?_, ?_, ?_, ?_, fun p h1 h8 hs hlength hpress => ?_⟩
    · rw [hrest]
      rfl
    · rw [hrest]
      exact State.raise_notices_congr (by rfl) (by rfl) _
    · rw [hrest]
      rfl
    · rw [hrest]
      rfl
    · have hclear : (s.withEstop false).clearToDrive p = true := Bool.and_eq_true_iff.2 ⟨hpress, rfl⟩
      have hsame : (s.withEstop false).pos p = s.pos p := rfl
      rw [hpos p (mem_allPositions.2 ⟨h1, h8⟩), hclear, hsame, Position.settled_drives hs hlength rfl]
      exact ⟨rfl, Position.accelerating_accel _⟩

end Sys2Proof.Machine
end

section
/-!
PROOF. The splice requests (O46).
-/

namespace Sys2Proof.Machine

open Sys2Proof

variable {s t u : State} {p k l n v w r tag arm : Nat} {a : Arm} {x y : Position} {z : Reel}

/-! ### The position and the arm a request names -/

theorem State.positionFault_enabled (hp : 1 ≤ p ∧ p ≤ 8) (h : (s.pos p).enabled = true) : s.positionFault p = none := by
  unfold State.positionFault
  rw [positionOk_iff.2 hp, h]
  rfl

theorem State.positionFault_disabled (hp : 1 ≤ p ∧ p ≤ 8) (h : (s.pos p).enabled = false) : s.positionFault p = some .state := by
  unfold State.positionFault
  rw [positionOk_iff.2 hp, h]
  rfl

theorem State.positionFault_range (hp : p = 0 ∨ 8 < p) : s.positionFault p = some .range := by
  have hbad : positionOk p = false := by
    rw [Bool.eq_false_iff]
    intro h
    have := positionOk_iff.1 h
    omega
  unfold State.positionFault
  rw [hbad]
  rfl

theorem State.armState_of (hr : (s.pos p).arm a = some r) (hz : s.reel r = some z) : s.armState p a = some z.state := by
  unfold State.armState
  rw [hr]
  show (s.reel r).map (·.state) = _
  rw [hz]
  rfl

/-! ### PREPARED (R126) -/

theorem State.preparable_of (hstaged : s.armState p a = some .staged) (hstill : (s.pos p).running ≠ some a) :
    s.preparable p a = (s.pos p).arm a := if_pos ⟨hstaged, hstill⟩

theorem State.preparable_none (h : s.armState p a ≠ some .staged ∨ (s.pos p).running = some a) : s.preparable p a = none :=
  if_neg fun k => h.elim (fun h => h k.1) fun h => k.2 h

theorem State.perform_prepared_refuse (hfault : s.positionFault p = none) (harm : armOf arm = some a) (h : s.preparable p a = none) :
    s.reqPrepared p arm = s.refuse .state := by
  unfold State.reqPrepared
  rw [hfault, harm]
  dsimp only
  rw [h]

theorem State.perform_prepared (hfault : s.positionFault p = none) (harm : armOf arm = some a) (h : s.preparable p a = some r) :
    s.reqPrepared p arm = (s.prepareReel p r).grant (be4 r ++ be1 ((s.prepareReel p r).pos p).sequence.code) := by
  unfold State.reqPrepared
  rw [hfault, harm]
  dsimp only
  rw [h]

/-- A position READY, its transitions taken (R113, R126). -/
theorem State.prepareReel_spec (hz : s.reel r = some z) (p : Nat) :
    (s.prepareReel p r).reel r = some { z with state := .prepared } ∧ (∀ k, k ≠ r → (s.prepareReel p r).reel k = s.reel k) ∧
      (∀ k, k ≠ p → (s.prepareReel p r).pos k = s.pos k) ∧ (s.prepareReel p r).orders = s.orders ∧
      (s.prepareReel p r).notices = s.notices ∧
      (s.prepareReel p r).pos p = if (s.pos p).isWeb = true ∧ (s.pos p).sequence = .standby then
        Position.settled { s.pos p with sequence := .ready } (s.clearToDrive p) else s.pos p := by
  unfold State.prepareReel
  rw [State.onReel_of _ hz]
  dsimp only
  have hsame : ∀ k, (s.setReel r { z with state := .prepared }).pos k = s.pos k := fun _ => rfl
  have hreel : ∀ t : State, t.reels = s.reels.insert r { z with state := .prepared } →
      t.reel r = some { z with state := .prepared } ∧ ∀ k, k ≠ r → t.reel k = s.reel k := fun t ht => by
    unfold State.reel
    rw [ht]
    exact ⟨Table.find_insert_same _ _ _, fun k hk => Table.find_insert_other _ hk _⟩
  rw [hsame]
  by_cases h : (s.pos p).isWeb = true ∧ (s.pos p).sequence = .standby
  · rw [if_pos h, if_pos h]
    unfold State.onPos
    rw [State.settle_setPos]
    obtain ⟨hr, hk⟩ := hreel ((s.setReel r { z with state := .prepared }).setPos p
      (Position.settled { s.pos p with sequence := .ready } ((s.setReel r { z with state := .prepared }).clearToDrive p))) rfl
    exact ⟨hr, hk, fun k hk => State.pos_setPos_other _ hk _, rfl, rfl, State.pos_setPos_same _ _ _⟩
  · rw [if_neg h, if_neg h]
    obtain ⟨hr, hk⟩ := hreel (s.setReel r { z with state := .prepared }) rfl
    exact ⟨hr, hk, fun _ _ => rfl, rfl, rfl, rfl⟩

/-! ### SPLICENOW and SPLICEFIX (R127, R128) -/

theorem State.perform_splicenow (hfault : s.positionFault p = none) : s.reqSplicenow p =
    if (s.pos p).sequence = .matched then (s.setPos p (s.pos p).fired).grant (be4 (s.pos p).gauge.remaining) else s.refuse .state := by
  unfold State.reqSplicenow
  rw [hfault]
  dsimp only
  rw [Position.enterFiring_eq]
  rfl

theorem State.perform_splicefix_refuse (hfault : s.positionFault p = none) (h : (s.pos p).sequence ≠ .failed) :
    s.reqSplicefix p arm = s.refuse .state := by
  unfold State.reqSplicefix
  rw [hfault]
  exact if_pos h

theorem State.perform_splicefix_old (hfault : s.positionFault p = none) (h : (s.pos p).sequence = .failed) (harm : armOf arm = some a)
    (ha : (s.pos p).running = some a) : s.reqSplicefix p arm =
      (s.keepOldWeb p).grant (be1 (armCode ((s.keepOldWeb p).pos p).running) ++ be1 ((s.keepOldWeb p).pos p).sequence.code) := by
  unfold State.reqSplicefix
  rw [hfault]
  dsimp only
  rw [if_neg (not_not.2 h), harm]
  exact if_pos ha

theorem State.perform_splicefix_new (hfault : s.positionFault p = none) (h : (s.pos p).sequence = .failed) (harm : armOf arm = some a)
    (ha : (s.pos p).running ≠ some a) : s.reqSplicefix p arm =
      ((s.fixSwap p).close s false).grant (be1 (armCode (((s.fixSwap p).close s false).pos p).running) ++
        be1 (((s.fixSwap p).close s false).pos p).sequence.code ++ be2 (s.pos p).gauge.diameter ++
        be1 (optCode Disposal.code (((s.fixSwap p).pos p).disposal (otherArm a)))) := by
  unfold State.reqSplicefix
  rw [hfault]
  dsimp only
  rw [if_neg (not_not.2 h), harm]
  exact if_neg ha

/-- A FAILED position that keeps its old web, before its transitions (R90, R128). -/
def Position.kept (x : Position) (q : Sequence) : Position := { x with sequence := q, splice := { x.splice with cause := none } }

theorem State.keepOldWeb_eq (hx : x = s.pos p) : s.keepOldWeb p = s.setPos p ((x.kept (s.restingState p)).settled (s.clearToDrive p)) := by
  subst hx
  exact State.settle_setPos _ _ _

theorem State.restingState_of (hx : x = s.pos p) :
    (s.armState p x.standbyArm = some .staged → s.restingState p = .standby) ∧
      (s.armState p x.standbyArm = some .prepared → s.restingState p = .ready) ∧
      (s.armState p x.standbyArm ∉ [some .staged, some .prepared] → s.restingState p = .noStandby) := by
  subst hx
  unfold State.restingState
  refine ⟨fun h => by rw [h], fun h => by rw [h], fun h => ?_⟩
  split
  · simp [*] at h
  · simp [*] at h
  · rfl

/-- The transitions of a resting position: it stands, or READY goes on to ACCEL (R112, R113). -/
theorem Position.kept_settled (x : Position) {q : Sequence} (hq : q = .standby ∨ q = .ready ∨ q = .noStandby) (clear : Bool) :
    ((x.kept q).settled clear = x.kept q ∧ (q = .ready → ¬(x.gauge.remaining ≤ x.params.accelLength ∧ clear = true))) ∨
      (q = .ready ∧ x.gauge.remaining ≤ x.params.accelLength ∧ clear = true ∧ (x.kept q).settled clear = (x.kept q).accelerating) := by
  by_cases hready : q = .ready
  · by_cases hgo : x.gauge.remaining ≤ x.params.accelLength ∧ clear = true
    · exact .inr ⟨hready, hgo.1, hgo.2, Position.settled_drives hready hgo.1 hgo.2⟩
    · exact .inl ⟨Position.settled_waits hready hgo, fun _ => hgo⟩
  · refine .inl ⟨Position.settled_of_rest fun h => ?_, fun h => absurd h hready⟩
    have hmem : q ∈ [Sequence.ready, .matched, .armed] := h
    rcases hq with rfl | rfl | rfl
    · simp at hmem
    · exact hready rfl
    · simp at hmem

/-- What keeping the old web leaves of a FAILED position, and where its standby arm takes it (R90, R128). -/
theorem State.keepOldWeb_spec (hx : x = s.pos p) : ∃ y : Position, s.keepOldWeb p = s.setPos p y ∧ y.running = x.running ∧
    y.splice.cause = none ∧ y.gauge = x.gauge ∧ y.callOff = x.callOff ∧ y.outputs.webEnd = x.outputs.webEnd ∧
    (y.sequence ≠ .accel → y = x.kept y.sequence) ∧
    (s.armState p x.standbyArm = some .prepared → s.mayDrive p x.gauge.remaining = true → y.sequence = .accel ∧
      y.outputs.accel x.standbyArm = true ∧ y.splice.matchMs = none) ∧
    (s.armState p x.standbyArm = some .staged → y.sequence = .standby) ∧
    (s.armState p x.standbyArm = some .prepared → s.mayDrive p x.gauge.remaining = false → y.sequence = .ready) ∧
    (s.armState p x.standbyArm ∉ [some .staged, some .prepared] → y.sequence = .noStandby) := by
  obtain ⟨hstaged, hprepared, hother⟩ := State.restingState_of hx
  have hq : s.restingState p = .standby ∨ s.restingState p = .ready ∨ s.restingState p = .noStandby := by
    by_cases h1 : s.armState p x.standbyArm = some .staged
    · exact .inl (hstaged h1)
    by_cases h2 : s.armState p x.standbyArm = some .prepared
    · exact .inr (.inl (hprepared h2))
    · exact .inr (.inr (hother (by simp [h1, h2])))
  refine ⟨_, State.keepOldWeb_eq hx, ?_⟩
  rw [State.mayDrive_eq hx]
  rcases Position.kept_settled x hq (s.clearToDrive p) with ⟨hkept, hwaits⟩ | ⟨hready, hlength, hclear, hgone⟩
  · rw [hkept]
    refine ⟨rfl, rfl, rfl, rfl, rfl, fun _ => rfl, fun h hdrive => ?_, hstaged, fun h _ => hprepared h, hother⟩
    obtain ⟨hlength, hclear⟩ := Bool.and_eq_true_iff.1 hdrive
    exact absurd ⟨of_decide_eq_true hlength, hclear⟩ (hwaits (hprepared h))
  · rw [hgone]
    have hwebEnd : (x.kept (s.restingState p)).accelerating.outputs.webEnd = x.outputs.webEnd := by
      unfold Position.accelerating Position.setAccel
      split <;> rfl
    have hsame : (x.kept (s.restingState p)).accelerating.running = x.running ∧ (x.kept (s.restingState p)).accelerating.gauge = x.gauge ∧
        (x.kept (s.restingState p)).accelerating.callOff = x.callOff ∧ (x.kept (s.restingState p)).accelerating.splice.cause = none := by
      unfold Position.accelerating Position.setAccel
      split <;> exact ⟨rfl, rfl, rfl, rfl⟩
    obtain ⟨hrunning, hgauge, hcallOff, hcause⟩ := hsame
    refine ⟨hrunning, hcause, hgauge, hcallOff, hwebEnd, fun h => absurd rfl h, fun _ _ => ⟨rfl, Position.accelerating_accel _, rfl⟩,
      fun h => ?_, fun _ hdrive => ?_, fun h => ?_⟩
    · exact absurd (hready.symm.trans (hstaged h)) (by decide)
    · rw [decide_eq_true hlength, hclear] at hdrive
      cases hdrive
    · exact absurd (hready.symm.trans (hother h)) (by decide)

/-- Settles O46: each request by its own change of the position, and the transitions that this makes true. -/
theorem spliceRequests : Obligations.SpliceRequests := by
  intro s tag p arm a x htakes hp1 hp8 hx henabled harm
  subst hx
  have hfault : s.positionFault p = none := State.positionFault_enabled ⟨hp1, hp8⟩ henabled
  refine ⟨fun r y hr hy hstaged hstill => ?_, fun h => ?_, fun hs => ?_, fun hs => ?_, fun hs => ?_, fun hs ha => ?_, fun hs ha => ?_⟩
  · have hpreparable : s.preparable p a = some r :=
      (State.preparable_of (by rw [State.armState_of hr hy, hstaged]) hstill).trans hr
    obtain ⟨hreel, hreels, hothers, horders, hnotices, hpos⟩ := State.prepareReel_spec hy p
    refine ⟨s.prepareReel p r, answered_in_run rfl htakes rfl rfl (State.perform_prepared hfault harm hpreparable), hreel, hreels, hothers,
      horders, hnotices, fun hweb hstandby hdrive => ?_, fun hweb hstandby hdrive => ?_, fun h => ?_⟩
    · rw [hpos, if_pos ⟨hweb, hstandby⟩, (Position.settled_ready (s := s) (x := s.pos p) (y := { s.pos p with sequence := .ready }) rfl rfl rfl).2 hdrive]
    · rw [hpos, if_pos ⟨hweb, hstandby⟩, (Position.settled_ready (s := s) (x := s.pos p) (y := { s.pos p with sequence := .ready }) rfl rfl rfl).1 hdrive]
      exact ⟨rfl, Position.accelerating_accel { s.pos p with sequence := .ready }⟩
    · rw [hpos, if_neg]
      rintro ⟨hweb, hstandby⟩
      exact h.elim (fun h => Bool.false_ne_true (h.symm.trans hweb)) fun h => h hstandby
  · exact refused_in_run (e := .state) rfl htakes rfl rfl (State.perform_prepared_refuse hfault harm (State.preparable_none h)) rfl
  · exact answered_in_run rfl htakes rfl rfl ((State.perform_splicenow hfault).trans (if_pos hs))
  · exact refused_in_run (e := .state) rfl htakes rfl rfl ((State.perform_splicenow hfault).trans (if_neg hs)) rfl
  · exact refused_in_run (e := .state) rfl htakes rfl rfl (State.perform_splicefix_refuse hfault hs) rfl
  · obtain ⟨y, hkept, hrunning, hcause, hgauge, hcallOff, hwebEnd, hstands, hdrives, hstaged, hready, hother⟩ :=
      State.keepOldWeb_spec (s := s) (p := p) rfl
    have hanswer := State.perform_splicefix_old hfault hs harm ha
    have hpos : (s.keepOldWeb p).pos p = y := by rw [hkept, State.pos_setPos_same]
    rw [hpos, hrunning] at hanswer
    refine ⟨s.keepOldWeb p, answered_in_run rfl htakes rfl rfl (hpos ▸ hanswer), ?_⟩
    rw [hpos]
    refine ⟨hrunning.trans ha, hcause, ?_, ?_, ?_, ?_, fun k hk => ?_, hgauge, hcallOff, hwebEnd, hstands, hdrives, hstaged, hready, hother⟩
    case refine_5 =>
      rw [hkept]
      exact State.pos_setPos_other _ hk _
    all_goals
      rw [hkept]
      rfl
  · have hne : (s.pos p).running ≠ some a := by
      rw [ha]
      cases a <;> decide
    exact ⟨s.fixSwap p, _, rfl, answered_in_run rfl htakes rfl rfl (State.perform_splicefix_new hfault hs harm hne), rfl⟩

end Sys2Proof.Machine
end

section
/-!
PROOF. THREAD (O48).
-/

namespace Sys2Proof.Machine

open Sys2Proof

variable {s t u : State} {p k l n v w r tag arm : Nat} {a : Arm} {x y : Position} {z : Reel}

theorem State.threadable_of (h : s.armState p a = some .staged ∨ s.armState p a = some .prepared) : s.threadable p a = (s.pos p).arm a :=
  if_pos h

theorem State.threadable_none (h : ¬(s.armState p a = some .staged ∨ s.armState p a = some .prepared)) : s.threadable p a = none := if_neg h

theorem State.perform_thread_running (hfault : s.positionFault p = none) (harm : armOf arm = some a)
    (h : (s.pos p).isWeb = true ∨ s.pressRunning (lineOfPosition p) = true) : s.reqThread p arm = s.refuse .state := by
  unfold State.reqThread
  rw [hfault, harm]
  exact if_pos (Bool.or_eq_true_iff.2 h)

theorem State.perform_thread_bare (hfault : s.positionFault p = none) (harm : armOf arm = some a) (hweb : (s.pos p).isWeb = false)
    (hpress : s.pressRunning (lineOfPosition p) = false) (h : s.threadable p a = none) : s.reqThread p arm = s.refuse .state := by
  unfold State.reqThread
  rw [hfault, harm]
  dsimp only
  rw [hweb, hpress, h]
  rfl

theorem State.perform_thread (hfault : s.positionFault p = none) (harm : armOf arm = some a) (hweb : (s.pos p).isWeb = false)
    (hpress : s.pressRunning (lineOfPosition p) = false) (h : s.threadable p a = some r) :
    ∃ data, s.reqThread p arm = ((s.startWeb p a r).close s false).grant data := by
  unfold State.reqThread
  rw [hfault, harm]
  dsimp only
  rw [hweb, hpress, h]
  exact ⟨_, rfl⟩

/-- A position as a reel begins to run on an arm, before it is judged (R90, R92, R106). -/
def Position.threaded (x : Position) (a : Arm) (z : Reel) (q : Sequence) : Position :=
  { ({ x with running := some a } : Position).measureStart z.diameter z.caliper with sequence := q }

/-- The part as a web starts, but for its positions and notices (R106, R134, R146). -/
def State.withWeb (s : State) (p r : Nat) (z : Reel) : State :=
  (s.setReel r { z with state := .running }).setWeb p { Web.blank with kind := .steady }

theorem State.startWeb_eq (hz : s.reel r = some z) (hx : x = s.pos p) (hother : x.arm (otherArm a) ≠ some r) :
    ∃ q, s.startWeb p a r = (((s.withWeb p r z).setPos p (x.threaded a z q)).judgeLate p 1).settle p ∧
      (s.armState p (otherArm a) = some .staged → q = .standby) ∧ (s.armState p (otherArm a) = some .prepared → q = .ready) ∧
      (s.armState p (otherArm a) ∉ [some .staged, some .prepared] → q = .noStandby) := by
  subst hx
  obtain ⟨y, hy⟩ : ∃ y, y = ({ s.pos p with running := some a } : Position).measureStart z.diameter z.caliper := ⟨_, rfl⟩
  have hstart : (((s.setReel r { z with state := .running }).onPos p fun x => { x with running := some a }).startGauge p r) =
      (s.setReel r { z with state := .running }).setPos p y := by
    have hreel : ((s.setReel r { z with state := .running }).onPos p fun x => { x with running := some a }).reel r =
        some { z with state := .running } := State.reel_setReel_same _ _ _
    unfold State.startGauge
    rw [hreel]
    unfold State.onPos
    dsimp only
    rw [State.pos_setPos_same, State.setPos_setPos, hy]
    rfl
  have hypos : ((s.setReel r { z with state := .running }).setPos p y).pos p = y := State.pos_setPos_same _ _ _
  have hstandby : y.standbyArm = otherArm a := by rw [hy]; rfl
  have hyarm : y.arm (otherArm a) = (s.pos p).arm (otherArm a) := by
    rw [hy]
    cases a <;> rfl
  have hstate : ((s.setReel r { z with state := .running }).setPos p y).armState p y.standbyArm = s.armState p (otherArm a) := by
    unfold State.armState
    rw [hypos, hstandby, hyarm]
    cases hold : (s.pos p).arm (otherArm a) with
    | none => rfl
    | some k =>
      have hk : k ≠ r := fun h => hother (hold.trans (congrArg some h))
      show ((s.setReel r _).reel k).map _ = _
      rw [State.reel_setReel_other _ hk]
      rfl
  obtain ⟨hstaged, hprepared, hneither⟩ := State.restingState_of hypos.symm
  rw [hstate] at hstaged hprepared hneither
  refine ⟨_, ?_, hstaged, hprepared, hneither⟩
  unfold State.startWeb
  rw [State.onReel_of _ hz]
  dsimp only
  rw [hstart]
  generalize ((s.setReel r { z with state := .running }).setPos p y).restingState p = q
  unfold State.onPos
  rw [hypos, State.setPos_setPos, hy]
  rfl

theorem Position.threaded_settled (x : Position) (a : Arm) (z : Reel) {q : Sequence} (hq : q = .standby ∨ q = .ready ∨ q = .noStandby)
    (before : Nat) : ((x.threaded a z q).lateJudged before).settled false = (x.threaded a z q).lateJudged before := by
  by_cases hready : q = .ready
  · exact Position.settled_waits hready fun h => Bool.false_ne_true h.2
  · refine Position.settled_of_rest fun h => ?_
    have hmem : q ∈ [Sequence.ready, .matched, .armed] := h
    rcases hq with rfl | rfl | rfl
    · simp at hmem
    · exact hready rfl
    · simp at hmem

/-- Settles O48: the checks in their order, and the web started by its reel, its gauge and its resting state. -/
theorem threadStartsAWeb : Obligations.ThreadStartsAWeb := by
  intro s tag p arm r a x y htakes hp1 hp8 hx henabled harm hr hother hy
  have hfault : s.positionFault p = none := State.positionFault_enabled ⟨hp1, hp8⟩ (hx ▸ henabled)
  have hstate : s.armState p a = some y.state := State.armState_of (hx ▸ hr) hy
  have hidle : x.running = none → (s.pos p).isWeb = false := fun h => by
    unfold Position.isWeb
    rw [← hx, h]
    rfl
  refine ⟨fun h => ?_, fun hrunning hpress hbare => ?_, fun hrunning hpress hreel => ?_⟩
  · refine refused_in_run (e := .state) rfl htakes rfl rfl (State.perform_thread_running hfault harm (h.imp (fun h => ?_) id)) rfl
    rw [← hx]
    exact Option.isSome_iff_ne_none.2 h
  · refine refused_in_run (e := .state) rfl htakes rfl rfl
      (State.perform_thread_bare hfault harm (hidle hrunning) hpress (State.threadable_none fun h => hbare ?_)) rfl
    rw [hstate] at h
    simpa using h
  · have hthreadable : s.threadable p a = some r := by
      rw [State.threadable_of, ← hx, hr]
      rw [hstate]
      simpa using hreel
    obtain ⟨data, hperform⟩ := State.perform_thread hfault harm (hidle hrunning) hpress hthreadable
    obtain ⟨q, hweb, hstaged, hprepared, hneither⟩ := State.startWeb_eq hy hx hother
    have hq : q = .standby ∨ q = .ready ∨ q = .noStandby := by
      by_cases h1 : s.armState p (otherArm a) = some .staged
      · exact .inl (hstaged h1)
      by_cases h2 : s.armState p (otherArm a) = some .prepared
      · exact .inr (.inl (hprepared h2))
      · exact .inr (.inr (hneither (by simp [h1, h2])))
    have hclear : (s.withWeb p r y).clearToDrive p = false := Bool.and_eq_false_iff.2 (.inl hpress)
    rw [State.judged_settled, hclear, Position.threaded_settled x a y hq] at hweb
    have hparts := (s.withWeb p r y).lateRaised_eq p (x.threaded a y q) 1
    have hpos : (s.startWeb p a r).pos p = (x.threaded a y q).lateJudged 1 := by rw [hweb, State.pos_setPos_same]
    refine ⟨data, s.startWeb p a r, answered_in_run rfl htakes rfl rfl hperform, ?_, ?_, ?_, ?_, ?_, ?_, ?_, ?_, ?_, ?_, fun k hk => ?_, ?_, ?_⟩
    · rw [hweb, hparts]
      exact State.reel_setReel_same s r _
    · rw [hpos]
      rfl
    · rw [hpos]
      rfl
    · rw [hpos]
      rfl
    · rw [hpos]
      rfl
    · rw [hpos]
      rfl
    · rw [hweb, hparts]
      exact State.web_setWeb_same _ _ _
    · rw [hpos]
      exact hstaged
    · rw [hpos]
      exact hprepared
    · rw [hpos]
      exact hneither
    · rw [hweb, State.pos_setPos_other _ hk, hparts]
      exact ⟨rfl, State.web_setWeb_other _ hk _⟩
    · rw [hweb, hparts]
      rfl
    · rw [hweb, hparts]
      rfl

end Sys2Proof.Machine
end

section
/-!
PROOF. POSCFG and DEMAND (O47).
-/

namespace Sys2Proof.Machine

open Sys2Proof

variable {s t u : State} {p k l n v w g r tag arm : Nat} {a : Arm} {x y : Position} {z : Reel} {q raw : Params} {d : Option Demand}

/-! ### POSCFG (R104) -/

theorem Sequence.resting_iff {c : Sequence} : c.resting = true ↔ c ∈ [Sequence.noWeb, .noStandby, .standby, .ready] := by
  cases c <;> decide

/-- The first check of R104 that fails, or none. -/
theorem Position.paramFault_of (x : Position) (q : Params) :
    (∀ n, ((n = 1 ∧ q.spliceDiameter < q.coreDiameter + 20) ∨
        (n = 2 ∧ q.coreDiameter + 20 ≤ q.spliceDiameter ∧ q.armLength < q.fireLength) ∨
        (n = 3 ∧ q.coreDiameter + 20 ≤ q.spliceDiameter ∧ q.fireLength ≤ q.armLength ∧ q.accelLength < q.armLength) ∨
        (n = 4 ∧ q.coreDiameter + 20 ≤ q.spliceDiameter ∧ q.fireLength ≤ q.armLength ∧ q.armLength ≤ q.accelLength ∧
          q.leadTime < q.urgentMargin) ∨
        (n = 5 ∧ q.coreDiameter + 20 ≤ q.spliceDiameter ∧ q.fireLength ≤ q.armLength ∧ q.armLength ≤ q.accelLength ∧
          q.urgentMargin ≤ q.leadTime ∧ x.isWeb = true ∧ ∃ e, x.gauge.estimate = some e ∧ e < 16 * q.coreDiameter)) →
      x.paramFault q = some n) ∧
    (q.coreDiameter + 20 ≤ q.spliceDiameter → q.fireLength ≤ q.armLength → q.armLength ≤ q.accelLength → q.urgentMargin ≤ q.leadTime →
      (∀ e, x.isWeb = true → x.gauge.estimate = some e → 16 * q.coreDiameter ≤ e) → x.paramFault q = none) := by
  unfold Position.paramFault
  refine ⟨fun n h => ?_, fun h1 h2 h3 h4 h5 => ?_⟩
  · rcases h with ⟨rfl, h1⟩ | ⟨rfl, h1, h2⟩ | ⟨rfl, h1, h2, h3⟩ | ⟨rfl, h1, h2, h3, h4⟩ | ⟨rfl, h1, h2, h3, h4, hweb, e, he, h5⟩
    · rw [if_pos h1]
    · rw [if_neg (not_lt.2 h1), if_pos h2]
    · rw [if_neg (not_lt.2 h1), if_neg (not_lt.2 h2), if_pos h3]
    · rw [if_neg (not_lt.2 h1), if_neg (not_lt.2 h2), if_neg (not_lt.2 h3), if_pos h4]
    · rw [if_neg (not_lt.2 h1), if_neg (not_lt.2 h2), if_neg (not_lt.2 h3), if_neg (not_lt.2 h4), hweb, he]
      exact if_pos h5
  · rw [if_neg (not_lt.2 h1), if_neg (not_lt.2 h2), if_neg (not_lt.2 h3), if_neg (not_lt.2 h4)]
    split
    · exact if_neg (not_lt.2 (h5 _ ‹_› ‹_›))
    · rfl

theorem State.perform_poscfg_busy (hfault : s.positionFault p = none) (h : (s.pos p).sequence.resting = false) :
    s.reqPoscfg p raw = s.refuse .state := by
  unfold State.reqPoscfg
  rw [hfault]
  exact if_pos h

theorem State.perform_poscfg_conflict (hfault : s.positionFault p = none) (h : (s.pos p).sequence.resting = true)
    (hn : (s.pos p).paramFault (clampParams raw) = some n) :
    s.reqPoscfg p raw = (s, ⟨.conflict, paramBytes (clampParams raw) ++ be1 n⟩) := by
  unfold State.reqPoscfg
  rw [hfault]
  dsimp only
  rw [if_neg (by rw [h]; decide), hn]

/-- The part a POSCFG leaves: the parameters, L_rem, and what the new length calls for (R96, R104, R112, R122). -/
def State.reconfigured (s : State) (p : Nat) (q : Params) : State :=
  ((s.setPos p ((s.pos p).configured q)).judgeLate p (s.pos p).gauge.remaining).settle p

theorem State.perform_poscfg (hfault : s.positionFault p = none) (h : (s.pos p).sequence.resting = true)
    (hn : (s.pos p).paramFault (clampParams raw) = none) :
    s.reqPoscfg p raw = (s.reconfigured p (clampParams raw)).grant (paramBytes (clampParams raw)) := by
  unfold State.reqPoscfg
  rw [hfault]
  dsimp only
  rw [if_neg (by rw [h]; decide), hn]
  rfl

theorem Position.configured_params (x : Position) (q : Params) : (x.configured q).params = q := by
  unfold Position.configured
  dsimp only
  split <;> rfl

theorem Position.configured_gauge (x : Position) (q : Params) :
    (x.isWeb = true → (x.configured q).gauge.remaining = paperLength x.gauge.diameter q.spliceDiameter x.gauge.caliper) ∧
      (x.isWeb = false → (x.configured q).gauge = x.gauge) := by
  unfold Position.configured
  refine ⟨fun h => ?_, fun h => ?_⟩
  · rw [if_pos h]
    rfl
  · rw [if_neg (by rw [h]; decide)]

/-! ### DEMAND (R36, R105) -/

theorem demandOf_some (h : 1 ≤ g ∧ g ≤ 15 ∧ 1 ≤ w ∧ w ≤ 4) : demandOf g w = some (some ⟨g, w⟩) := by
  obtain ⟨h1, h15, h1', h4⟩ := h
  have hok : (gradeOk g && widthOk w) = true := by
    simp only [gradeOk, widthOk, Bool.and_eq_true, decide_eq_true_eq]
    exact ⟨⟨h1, h15⟩, h1', h4⟩
  unfold demandOf
  rw [if_neg (by omega), if_pos hok]

theorem demandOf_none (h : (g = 0 ∧ w ≠ 0) ∨ 15 < g ∨ (g ≠ 0 ∧ w = 0) ∨ 4 < w) : demandOf g w = none := by
  unfold demandOf
  rw [if_neg (by omega), if_neg]
  simp only [gradeOk, widthOk, Bool.and_eq_true, decide_eq_true_eq]
  omega

/-- The part with a position's demand set or cleared, before the store's part (R105). -/
def State.withDemand (s : State) (p : Nat) (d : Option Demand) : State := s.onPos p fun x => { x with demand := d }

theorem State.perform_demand (hfault : s.positionFault p = none) (hd : demandOf g w = some d) :
    s.reqDemand p g w = (((s.withDemand p d).demandStore p d).close s false).grant
      (be1 (optCode (·.grade) d) ++ be1 (optCode (·.width) d) ++
        be1 ((((s.withDemand p d).demandStore p d).close s false).pos p).callOff.state.code ++
        flagByte ((((s.withDemand p d).demandStore p d).close s false).pos p).callOff.ordersFull ++
        be1 ((((s.withDemand p d).demandStore p d).close s false).queuePlace p)) := by
  unfold State.reqDemand
  rw [hfault, hd]
  rfl

theorem State.demandEntry_none_iff : s.demandEntry p = none ↔ ∀ e ∈ s.demands, e.position ≠ p := by
  unfold State.demandEntry
  rw [List.find?_eq_none]
  exact forall₂_congr fun e _ => by rw [decide_eq_true_eq]

theorem State.withdrawCallOff_of_some (h : s.openReservation p = some r) :
    s.withdrawCallOff p = (((s.leaveQueue p).release r).dropDelivery p).setCallOff p .none false := by
  have hopen : (s.leaveQueue p).openReservation p = some r := h
  unfold State.withdrawCallOff
  dsimp only
  rw [hopen]
  rfl

/-- What withdrawing a call-off with a reservation changes of the part (R29, R36, R49). -/
theorem State.withdrawCallOff_reserved (h : s.openReservation p = some r) :
    (s.withdrawCallOff p).pos p = { s.pos p with callOff := { (s.pos p).callOff with state := .none, ordersFull := false } } ∧
      (∀ k, k ≠ p → (s.withdrawCallOff p).pos k = s.pos k) ∧
      s.withdrawCallOff p = { s with
        reels := (s.withdrawCallOff p).reels, rest := (s.withdrawCallOff p).rest, positions := (s.withdrawCallOff p).positions
        orders := { s.orders with backlog := s.orders.backlog.filter fun i => !(i.isDeliveryOf p) }
        demands := s.demands.filter fun e => decide (e.position ≠ p) } := by
  have hrelease : ((s.leaveQueue p).release r).pos = s.pos := funext fun k => State.pos_of_positions (by rw [State.release_eq]; rfl) k
  rw [State.withdrawCallOff_of_some h]
  refine ⟨?_, fun k hk => ?_, ?_⟩
  · refine (State.onPos_pos_same _ _ _).trans ?_
    rw [show (((s.leaveQueue p).release r).dropDelivery p).pos p = s.pos p from congrFun hrelease p]
  · exact (State.onPos_pos_other _ hk _).trans (congrFun hrelease k)
  · rw [State.release_eq]
    rfl

/-- The reel of a reservation withdrawn is STORED again (R36). -/
theorem State.withdrawCallOff_reel (h : s.openReservation p = some r) (hz : s.reel r = some z) :
    (s.withdrawCallOff p).reel r = some { z with state := .stored, reservation := none, tag := none } ∧
      ∀ k, k ≠ r → (s.withdrawCallOff p).reel k = s.reel k := by
  have hz' : (s.leaveQueue p).reel r = some z := hz
  have hrelease : (s.leaveQueue p).release r =
      ((s.leaveQueue p).setReel r { z with state := .stored, reservation := none, tag := none }).rewatch := by
    unfold State.release
    rw [State.onReel_of _ hz']
  rw [State.withdrawCallOff_of_some h, hrelease]
  exact ⟨State.reel_setReel_same _ _ _, fun k hk => State.reel_setReel_other _ hk _⟩

theorem State.withdrawCallOff_open (h : s.openReservation p = none) :
    (s.withdrawCallOff p).pos p = { s.pos p with callOff := { (s.pos p).callOff with state := .none, ordersFull := false } } ∧
      (∀ k, k ≠ p → (s.withdrawCallOff p).pos k = s.pos k) ∧
      s.withdrawCallOff p = { s with
        positions := (s.withdrawCallOff p).positions, demands := s.demands.filter fun e => decide (e.position ≠ p) } := by
  have hopen : (s.leaveQueue p).openReservation p = none := h
  have heq : s.withdrawCallOff p = (s.leaveQueue p).setCallOff p .none false := by
    unfold State.withdrawCallOff
    dsimp only
    rw [hopen]
    rfl
  rw [heq]
  exact ⟨State.pos_setPos_same _ _ _, fun k hk => State.pos_setPos_other _ hk _, rfl⟩

/-- With no waiting entry, the queue without the position's is the queue, and so is the queue with it rewritten. -/
theorem State.demands_of_no_entry (h : s.demandEntry p = none) (d : Demand) :
    s.demands.filter (fun e => decide (e.position ≠ p)) = s.demands ∧
      s.demands.map (fun e => if e.position = p then { e with grade := d.grade, width := d.width } else e) = s.demands := by
  have hall := State.demandEntry_none_iff.1 h
  refine ⟨List.filter_eq_self.2 fun e he => decide_eq_true (hall e he), ?_⟩
  exact (List.map_congr_left fun e he => if_neg (hall e he)).trans (List.map_id' _)

/-! ### The store's part of a DEMAND -/

theorem State.demandStore_delivering (h : s.deliverOf p ≠ none) (d : Option Demand) : s.demandStore p d = s := by
  unfold State.demandStore
  cases ht : s.deliverOf p with
  | none => exact absurd ht h
  | some _ => rfl

theorem State.demandStore_reserved (h : s.deliverOf p = none) (hr : s.openReservation p = some r) (d : Option Demand) :
    s.demandStore p d = s.withdrawCallOff p := by
  unfold State.demandStore
  rw [h, hr]

theorem State.demandStore_set (h : s.deliverOf p = none) (hr : s.openReservation p = none) (d : Demand) :
    s.demandStore p (some d) = { s with
      demands := s.demands.map fun e => if e.position = p then { e with grade := d.grade, width := d.width } else e } := by
  unfold State.demandStore
  rw [h, hr]
  cases he : s.demandEntry p with
  | none =>
    dsimp only
    rw [(State.demands_of_no_entry he d).2]
  | some e => rfl

theorem State.demandStore_clear (h : s.deliverOf p = none) (hr : s.openReservation p = none) :
    s.demandStore p none = { s with
      positions := (s.demandStore p none).positions, demands := s.demands.filter fun e => decide (e.position ≠ p) } ∧
    (s.demandStore p none).pos p = { s.pos p with callOff := { (s.pos p).callOff with state := .none, ordersFull := false } } ∧
      ∀ k, k ≠ p → (s.demandStore p none).pos k = s.pos k := by
  have hcases : s.demandStore p none = s.withdrawCallOff p ∨
      (s.demandEntry p = none ∧ s.demandStore p none = s.setCallOff p .none false) := by
    unfold State.demandStore
    rw [h, hr]
    cases he : s.demandEntry p with
    | none => exact .inr ⟨rfl, rfl⟩
    | some e => exact .inl rfl
  rcases hcases with heq | ⟨he, heq⟩
  · obtain ⟨hpos, hothers, hrest⟩ := State.withdrawCallOff_open hr
    rw [heq]
    exact ⟨hrest, hpos, hothers⟩
  · rw [heq, (State.demands_of_no_entry he ⟨0, 0⟩).1]
    exact ⟨rfl, State.pos_setPos_same _ _ _, fun k hk => State.pos_setPos_other _ hk _⟩

/-! ### The statement -/

theorem State.reconfigured_spec (s : State) (p : Nat) (q : Params) : ((s.reconfigured p q).pos p).params = q ∧
    ((s.reconfigured p q).pos p).gauge = ((s.pos p).configured q).gauge ∧ (∀ k, k ≠ p → (s.reconfigured p q).pos k = s.pos k) ∧
      (s.reconfigured p q).reels = s.reels ∧ (s.reconfigured p q).orders = s.orders := by
  have heq : s.reconfigured p q = (s.lateRaised p ((s.pos p).configured q) (s.pos p).gauge.remaining).setPos p
      ((((s.pos p).configured q).lateJudged (s.pos p).gauge.remaining).settled (s.clearToDrive p)) := State.judged_settled _ _ _ _
  have hparts := s.lateRaised_eq p ((s.pos p).configured q) (s.pos p).gauge.remaining
  obtain ⟨-, hparams, hgauge, -⟩ := ((s.pos p).configured q).ended_same (s.pos p).gauge.remaining (s.clearToDrive p)
  refine ⟨?_, ?_, fun k hk => ?_, ?_, ?_⟩
  · rw [heq, State.pos_setPos_same, hparams]
    exact Position.configured_params _ _
  · rw [heq, State.pos_setPos_same, hgauge]
  · rw [heq, State.pos_setPos_other _ hk, hparts]
    rfl
  · rw [heq, hparts]
    rfl
  · rw [heq, hparts]
    rfl

/-- What a DEMAND that clears or sets a demand changes of its position and of the store, by where the call-off stands (R36, R105). -/
theorem State.demandStore_spec (s : State) (p : Nat) (d : Option Demand) {u : State} (hu : u = (s.withDemand p d).demandStore p d) :
    (u.pos p).demand = d ∧ (u.pos p).core = { (s.pos p).core with demand := d } ∧ (∀ k, k ≠ p → u.pos k = s.pos k) ∧
    (s.deliverOf p ≠ none → (u.pos p).callOff = (s.pos p).callOff ∧ u.reels = s.reels ∧ u.demands = s.demands ∧ u.orders = s.orders) ∧
    (∀ r y, s.deliverOf p = none → s.openReservation p = some r → s.reel r = some y →
      u.reel r = some { y with state := .stored, reservation := none, tag := none } ∧
      (∀ k, k ≠ r → u.reel k = s.reel k) ∧ (u.pos p).callOff.state = .none ∧
      u.orders = { s.orders with backlog := s.orders.backlog.filter fun i => !(i.isDeliveryOf p) } ∧
      u.demands = s.demands.filter fun e => decide (e.position ≠ p)) ∧
    (s.deliverOf p = none → s.openReservation p = none → u.reels = s.reels ∧ u.orders = s.orders ∧
      (∀ c, d = some c → (u.pos p).callOff = (s.pos p).callOff ∧
        u.demands = s.demands.map fun e => if e.position = p then { e with grade := c.grade, width := c.width } else e) ∧
      (d = none → (u.pos p).callOff.state = .none ∧ u.demands = s.demands.filter fun e => decide (e.position ≠ p))) := by
  subst hu
  have hpos : (s.withDemand p d).pos p = { s.pos p with demand := d } := State.onPos_pos_same _ _ _
  have hother : ∀ k, k ≠ p → (s.withDemand p d).pos k = s.pos k := fun k hk => State.onPos_pos_other _ hk _
  have hdeliver : (s.withDemand p d).deliverOf p = s.deliverOf p := rfl
  have hopen : (s.withDemand p d).openReservation p = s.openReservation p := rfl
  by_cases ht : s.deliverOf p = none
  case neg =>
    rw [State.demandStore_delivering (hdeliver ▸ ht), hpos]
    exact ⟨rfl, rfl, hother, fun _ => ⟨rfl, rfl, rfl, rfl⟩, fun _ _ h => absurd h ht, fun h => absurd h ht⟩
  cases hr : s.openReservation p with
  | some r =>
    rw [State.demandStore_reserved (hdeliver.trans ht) (hopen.trans hr)]
    obtain ⟨hposition, hothers, hrest⟩ := State.withdrawCallOff_reserved (s := s.withDemand p d) (hopen.trans hr)
    rw [hpos] at hposition
    refine ⟨by rw [hposition], by rw [hposition]; rfl, fun k hk => (hothers k hk).trans (hother k hk), fun h => absurd ht h,
      fun r' y _ hr' hy => ?_, fun _ h => (by cases h)⟩
    obtain rfl : r = r' := Option.some.inj hr'
    obtain ⟨hreel, hreels⟩ := State.withdrawCallOff_reel (s := s.withDemand p d) (hopen.trans hr) hy
    refine ⟨hreel, hreels, by rw [hposition], ?_, ?_⟩
    · rw [hrest]
      rfl
    · rw [hrest]
      rfl
  | none =>
    cases d with
    | some c =>
      rw [State.demandStore_set (hdeliver.trans ht) (hopen.trans hr)]
      refine ⟨?_, ?_, hother, fun h => absurd ht h, fun _ _ _ h => (by cases h), fun _ _ => ⟨rfl, rfl, fun c' hc => ?_, fun h => (by cases h)⟩⟩
      · exact congrArg Position.demand hpos
      · exact congrArg Position.core hpos
      · obtain rfl : c = c' := Option.some.inj hc
        refine ⟨?_, rfl⟩
        show ((s.withDemand p (some c)).pos p).callOff = _
        rw [hpos]
    | none =>
      obtain ⟨hrest, hposition, hothers⟩ := State.demandStore_clear (s := s.withDemand p none) (hdeliver.trans ht) (hopen.trans hr)
      rw [hpos] at hposition
      refine ⟨by rw [hposition], by rw [hposition]; rfl, fun k hk => (hothers k hk).trans (hother k hk), fun h => absurd ht h,
        fun _ _ _ h => (by cases h), fun _ _ => ⟨?_, ?_, fun _ h => (by cases h), fun _ => ⟨by rw [hposition], ?_⟩⟩⟩
      all_goals
        rw [hrest]
        rfl

theorem State.perform_faulted {e : Status} (h : s.positionFault p = some e) :
    s.reqPoscfg p raw = s.refuse e ∧ s.reqDemand p g w = s.refuse e := by
  unfold State.reqPoscfg State.reqDemand
  rw [h]
  exact ⟨rfl, rfl⟩

theorem State.perform_demand_range (hfault : s.positionFault p = none) (hd : demandOf g w = none) : s.reqDemand p g w = s.refuse .range := by
  unfold State.reqDemand
  rw [hfault, hd]

/-- Settles O47: POSCFG by its checks in order, and DEMAND by where the call-off stands. -/
theorem poscfgAndDemand : Obligations.PoscfgAndDemand := by
  refine ⟨fun s tag p raw q x htakes hp1 hp8 hx henabled hq => ?_, fun s tag p g w raw htakes => ⟨fun hp => ?_, fun hp1 hp8 hdisabled => ?_⟩,
    fun raw => ?_, fun s tag p g w d htakes hp1 hp8 henabled hd => ?_, fun s tag p g w htakes hp1 hp8 henabled hbad => ?_⟩
  · subst hx hq
    have hfault : s.positionFault p = none := State.positionFault_enabled ⟨hp1, hp8⟩ henabled
    obtain ⟨hconflict, hnone⟩ := (s.pos p).paramFault_of (clampParams raw)
    refine ⟨fun hs => ?_, fun hs => ⟨fun n hn => ?_, fun h1 h2 h3 h4 h5 => ?_⟩⟩
    · have hresting : (s.pos p).sequence.resting = false := by
        rw [Bool.eq_false_iff]
        exact fun h => hs (Sequence.resting_iff.1 h)
      exact refused_in_run (e := .state) rfl htakes rfl rfl (State.perform_poscfg_busy hfault hresting) rfl
    · obtain ⟨hphase, hroom⟩ := State.takes_iff.1 htakes
      have hperform := State.perform_poscfg_conflict hfault (Sequence.resting_iff.2 hs) (hconflict n hn)
      have hserve := State.serve_of_allowed (s := s) (r := .poscfg p raw) tag hroom (by rw [hphase]; rfl)
      rw [show s.perform (.poscfg p raw) = s.reqPoscfg p raw from rfl, hperform] at hserve
      exact congrArg Host.Outcome.next hserve
    · obtain ⟨hparams, hgauge, hothers, hreels, horders⟩ := s.reconfigured_spec p (clampParams raw)
      obtain ⟨hweb, hbare⟩ := (s.pos p).configured_gauge (clampParams raw)
      refine ⟨s.reconfigured p (clampParams raw), answered_in_run rfl htakes rfl rfl
        (State.perform_poscfg hfault (Sequence.resting_iff.2 hs) (hnone h1 h2 h3 h4 h5)), hparams, hothers, hreels, horders, fun h => ?_, fun h => ?_⟩
      · rw [hgauge, hweb h]
      · rw [hgauge, hbare h]
  · obtain ⟨hposcfg, hdemand⟩ := State.perform_faulted (raw := raw) (g := g) (w := w) (State.positionFault_range (s := s) hp)
    exact ⟨refused_in_run (e := .range) rfl htakes rfl rfl hposcfg rfl, refused_in_run (e := .range) rfl htakes rfl rfl hdemand rfl⟩
  · obtain ⟨hposcfg, hdemand⟩ := State.perform_faulted (raw := raw) (g := g) (w := w) (State.positionFault_disabled ⟨hp1, hp8⟩ hdisabled)
    exact ⟨refused_in_run (e := .state) rfl htakes rfl rfl hposcfg rfl, refused_in_run (e := .state) rfl htakes rfl rfl hdemand rfl⟩
  · simp [clampParams, clampTo]
  · have hfault : s.positionFault p = none := State.positionFault_enabled ⟨hp1, hp8⟩ henabled
    have hof : demandOf g w = some d := by
      rcases hd with ⟨h1, h15, h1', h4, rfl⟩ | ⟨rfl, rfl, rfl⟩
      · exact demandOf_some ⟨h1, h15, h1', h4⟩
      · rfl
    obtain ⟨hg, hw⟩ : optCode (·.grade) d = g ∧ optCode (·.width) d = w := by
      rcases hd with ⟨-, -, -, -, rfl⟩ | ⟨rfl, rfl, rfl⟩ <;> exact ⟨rfl, rfl⟩
    have hperform := State.perform_demand hfault hof
    rw [hg, hw] at hperform
    obtain ⟨hdemand, hcore, hothers, hdelivering, hreserved, hneither⟩ := s.demandStore_spec p d rfl
    refine ⟨_, _, rfl, answered_in_run rfl htakes rfl rfl hperform, hdemand, hcore, hothers, hdelivering, hreserved, fun h h' => ?_⟩
    obtain ⟨hreels, horders, hset, hclear⟩ := hneither h h'
    refine ⟨hreels, horders, fun hne => ?_, hclear⟩
    rcases hd with ⟨-, -, -, -, hd⟩ | ⟨-, -, hd⟩
    · exact hset _ hd
    · exact absurd hd hne
  · have hfault : s.positionFault p = none := State.positionFault_enabled ⟨hp1, hp8⟩ henabled
    exact refused_in_run (e := .range) rfl htakes rfl rfl (State.perform_demand_range hfault (demandOf_none hbad)) rfl

end Sys2Proof.Machine
end

section
/-!
PROOF. The queries (O11): each is granted with its bytes from the state as it stands.
-/

namespace Sys2Proof.Machine

open Sys2Proof

variable {s : State} {b k l n r t v tag : Nat}

theorem slotOk_iff : slotOk k = true ↔ 1 ≤ k ∧ k ≤ 4 := by simp [slotOk]

theorem queryModeOf_zero : queryModeOf 0 = some .exact := rfl

/-- The EXACT mode of a query names the entry under the number given (R17, R37, R62). -/
theorem queried_exact {α : Type} {t : Table α} {x : α} (hx : t.find k = some x) : queried t .exact k = some (k, x) :=
  congrArg (Option.map fun x => (k, x)) hx

theorem State.perform_reelinfo {x : Reel} (hr : r ≤ reelIdMax) (hx : s.reel r = some x) :
    s.perform (.reelinfo r 0) = s.grant (s.reelRecord r x) := by
  change s.reqReelinfo r 0 = _
  unfold State.reqReelinfo
  rw [queryModeOf_zero]
  dsimp only
  rw [if_neg (fun h => absurd h.2 (not_lt.2 hr)), queried_exact hx]

theorem State.perform_bayinfo {x : Bay} (hb : bayOk b = true) (hx : s.bay b = some x) :
    s.perform (.bayinfo b 0) = s.grant (be1 b ++ be1 x.node ++ be1 x.height ++ listBytes (x.stack.map s.stackItem) ++
      openField1 .bayinfoInbound x.inbound ++ openField1 .bayinfoFree (x.height - x.stack.length - x.inbound) ++
      flagByte (s.hasRoom x) ++ flagByte (s.topEligible x) ++ openField1 .bayinfoBays s.bays.count) := by
  change s.reqBayinfo b 0 = _
  unfold State.reqBayinfo
  rw [queryModeOf_zero]
  dsimp only
  rw [if_neg (fun h => absurd (hb.symm.trans h.2) (by decide)), queried_exact hx]

theorem State.perform_orderinfo {o : Order} (ht : t ≠ 0) (ho : s.order t = some o) :
    s.perform (.orderinfo t 0) = s.grant (s.orderRecord t o) := by
  change s.reqOrderinfo t 0 = _
  unfold State.reqOrderinfo
  rw [queryModeOf_zero]
  dsimp only
  rw [if_neg (fun h => ht h.2), queried_exact ho]

theorem State.perform_envinfo_empty (hk : slotOk k = true) (hslot : s.slot k = none) :
    s.perform (.envinfo k n) = s.grant (be1 0 ++ be2 0) := by
  change s.reqEnvinfo k n = _
  unfold State.reqEnvinfo
  rw [if_pos hk, hslot]

theorem State.perform_envinfo {e : Envelope} (n : Nat) (hk : slotOk k = true) (hslot : s.slot k = some e) :
    ∃ rest, s.perform (.envinfo k n) = s.grant (be1 1 ++ e.bytes ++ be2 e.signature ++ (e.boundaries.map be2).flatten ++
      e.probeBytes n ++ rest) := by
  refine ⟨be1 (s.selectionBits k) ++ listBytes (s.websOpened k) ++ be1 (s.refusingCheck k), ?_⟩
  change s.reqEnvinfo k n = _
  unfold State.reqEnvinfo
  rw [if_pos hk, hslot]
  simp only [List.append_assoc]

theorem State.perform_lineinfo (s : State) (hl : lineOk l = true) :
    ∃ rest, s.perform (.lineinfo l) = s.grant (be1 (s.line l).filterCount ++ be1 (s.line l).steady ++ rest) := by
  have hbytes (x y c d e f g h i j m z q : Bytes) : x ++ y ++ c ++ d ++ e ++ f ++ g ++ h ++ i ++ j ++ m ++ z ++ q =
      x ++ y ++ (c ++ d ++ e ++ f ++ g ++ h ++ i ++ j ++ m ++ z ++ q) := by simp only [List.append_assoc]
  exact ⟨_, (if_pos hl).trans (congrArg s.grant (hbytes ..))⟩

/-- IDENT is allowed in both phases (R173). -/
theorem allowedIn_ident (f : Phase) : allowedIn f .ident = true := by cases f <;> rfl

/-- Settles O11: a query of a number in range is granted on the state as it stands, and so changes only the reply queue. -/
theorem queriesChangeNothing : Obligations.QueriesChangeNothing := by
  refine ⟨fun s tag hroom => ?_, fun s tag r x htakes hr hx => ?_, fun s tag b x htakes h1 h120 hx => ?_,
    fun s tag t o htakes ht ho => ?_, fun s tag v htakes h1 h12 => ?_, fun s tag p htakes h1 h8 => ?_,
    fun s tag l htakes h1 h2 => ?_, fun s tag k n e htakes h1 h4 => ⟨fun hslot => ?_, fun hslot => ?_⟩,
    fun s tag l htakes h1 h2 => ?_, fun s tag l n htakes h1 h2 hn h64 => ?_⟩
  · exact answered_of_grant (exec_request (r := .ident) rfl s) rfl hroom (allowedIn_ident _) rfl
  · exact answered_in_run (r := .reelinfo r 0) rfl htakes rfl rfl (State.perform_reelinfo hr hx)
  · exact answered_in_run (r := .bayinfo b 0) rfl htakes rfl rfl (State.perform_bayinfo (bayOk_iff.2 ⟨h1, h120⟩) hx)
  · exact answered_in_run (r := .orderinfo t 0) rfl htakes rfl rfl (State.perform_orderinfo ht ho)
  · exact answered_in_run (r := .vehinfo v) rfl htakes rfl rfl (if_pos (vehicleOk_iff.2 ⟨h1, h12⟩))
  · exact answered_in_run (r := .posinfo p) rfl htakes rfl rfl (if_pos (positionOk_iff.2 ⟨h1, h8⟩))
  · obtain ⟨rest, hrest⟩ := s.perform_lineinfo (lineOk_iff.2 ⟨h1, h2⟩)
    exact ⟨rest, answered_in_run (r := .lineinfo l) rfl htakes rfl rfl hrest⟩
  · exact answered_in_run (r := .envinfo k n) rfl htakes rfl rfl (State.perform_envinfo_empty (slotOk_iff.2 ⟨h1, h4⟩) hslot)
  · obtain ⟨rest, hrest⟩ := State.perform_envinfo n (slotOk_iff.2 ⟨h1, h4⟩) hslot
    exact ⟨rest, answered_in_run (r := .envinfo k n) rfl htakes rfl rfl hrest⟩
  · exact answered_in_run (r := .runinfo l) rfl htakes rfl rfl (if_pos (lineOk_iff.2 ⟨h1, h2⟩))
  · exact answered_in_run (r := .splicelist l n) rfl htakes rfl rfl (if_pos (by simp [lineOk_iff, h1, h2, hn, h64]))

end Sys2Proof.Machine
end

section
/-!
PROOF. UNLOAD on a reel table that holds a number twice (O49): the statement asks no canonical table of it.
-/

namespace Sys2Proof.Machine

open Sys2Proof

/-- A reel of grade 1 at a place, with a reservation for position `p`. -/
def reservedAt (c : ReelState) (l : Location) (p : Nat) : Reel := ⟨1, 1, 1000, 70, 0, 0, 0, .intake, c, l, some p, none, none⟩

/-- Position 1 runs reel 7 on arm A, at 600 mm and below its return diameter. -/
def runningPosition : Position :=
  { Position.reset with
    armA := some 7, running := some .A, sequence := .noStandby, enabled := true
    params := { Position.reset.params with returnDiameter := 1500 }
    gauge := { Gauge.reset with estimate := some 9600, remaining := 700000, caliper := 70 } }

/-- The reel table holds number 7 twice: the reel that runs, RESERVED once for position 2, and a reel RESERVED for position 1. -/
def twiceListed : State :=
  { State.reset with
    link := { State.reset.link with phase := .run }
    nodes := ⟨[(4, ⟨4, .waste⟩)]⟩
    reels := ⟨[(7, reservedAt .running (.onArm 1 .A) 2), (7, reservedAt .reserved (.inBay 1 1) 1)]⟩
    positions := State.reset.positions.insert 1 runningPosition }

/-- The reservation of reel `r` after a command. -/
def reservationAfter (c : Instr) (s : State) (r : Nat) : Option (Option Nat) :=
  match exec c s with
  | .next t => (t.reel r).map (·.reservation)
  | _ => none

/-- UNLOAD releases the reservation that it finds under number 7, and with it that of the reel on the arm. -/
theorem twiceListed_unload : reservationAfter (.unload 1 1) twiceListed 7 = some none := by decide +kernel

theorem State.ordersFull_of_table {s t : State} (h : t.orders.table = s.orders.table) : t.ordersFull = s.ordersFull := by
  unfold State.ordersFull State.orderCount
  rw [h]

theorem State.handling_of_notices {s t : State} (h : t.notices = s.notices) (k : Nat) : t.handling k = s.handling k := by
  unfold State.handling
  rw [h]

theorem State.nodeOfKind_of_nodes {s t : State} (h : t.nodes = s.nodes) (kind : NodeKind) : t.nodeOfKind kind = s.nodeOfKind kind := by
  unfold State.nodeOfKind
  rw [h]

/-- Refutes O49: after an UNLOAD of `twiceListed` the butt would have to keep a reservation that the event has released. -/
theorem not_loadUnloadButtoff : ¬ Obligations.LoadUnloadButtoff := by
  intro h
  obtain ⟨-, hunload⟩ := h.2.1 twiceListed 1 1 7 .A (twiceListed.pos 1) (reservedAt .running (.onArm 1 .A) 2)
    (by decide) (by decide) (by decide) rfl (by decide) (by decide)
    (by decide) rfl
  obtain ⟨status, order, u, w, hanswered, -, -, -, -, hbutt, -, -, horders, -, -, hnodes, -, hnotices, -⟩ :=
    hunload (by decide) (by decide) (by decide) _ _ rfl rfl
  have hmode : (w.handling 9).mode = .both := (congrArg Handling.mode (State.handling_of_notices hnotices 9)).trans (by decide)
  have htable : w.orders.table = twiceListed.orders.table := by rw [horders]
  have hroom : w.ordersFull = false := (State.ordersFull_of_table htable).trans (by decide)
  have hwaste : w.nodeOfKind .waste = some 4 := (State.nodeOfKind_of_nodes hnodes .waste).trans (by decide)
  obtain ⟨-, -, -, -, hreel⟩ := hbutt.clear (.inr hmode) hroom (if_neg (by decide)) 4 hwaste
  have hkept := State.close_reel twiceListed false hreel (fun hstored => by cases hstored)
  have hreserved := twiceListed_unload
  unfold reservationAfter at hreserved
  rw [hanswered] at hreserved
  simp only [State.reel, State.transmit_reels, State.pushReply_reels] at hreserved
  rw [show (u.close twiceListed false).reels.find 7 = _ from hkept] at hreserved
  cases hreserved

end Sys2Proof.Machine
end

section
/-!
PROOF. The envelopes (O55): ENVSET and ENVSEL, and the segment, level and threshold at an index.
-/

namespace Sys2Proof.Machine

open Sys2Proof

variable {s : State} {k l n b tag action a sa sb : Nat} {e : Envelope} {g : Segment} {codes levels : List Nat} {offset : Int}

/-! ### Segments (R142) -/

/-- Within the length of a list of codes, an index lies in the segment of one code, which starts at the sum of those before. -/
theorem segmentAt_of_lt : ∀ {cs : List Nat} {b : Nat} (k : Nat), b ≤ n → n < b + (cs.map durationOf).sum →
    ∃ i, i < cs.length ∧ segmentAt n k b cs = some ⟨k + i, b + ((cs.take i).map durationOf).sum, durationOf (cs.getD i 0)⟩ ∧
      b + ((cs.take i).map durationOf).sum ≤ n ∧ n < b + ((cs.take i).map durationOf).sum + durationOf (cs.getD i 0)
  | [], b, k, hb, hn => absurd hn (not_lt.2 hb)
  | c :: cs, b, k, hb, hn => by
    unfold segmentAt
    by_cases hin : n < b + durationOf c
    · exact ⟨0, Nat.succ_pos _, if_pos hin, hb, hin⟩
    · rw [if_neg hin]
      obtain ⟨i, hi, hsegment, hlow, hhigh⟩ := segmentAt_of_lt (cs := cs) (k + 1) (not_lt.1 hin)
        (by simpa [Nat.add_assoc] using hn)
      have hsum : b + (((c :: cs).take (i + 1)).map durationOf).sum = b + durationOf c + ((cs.take i).map durationOf).sum := by
        simp [Nat.add_assoc]
      refine ⟨i + 1, Nat.succ_lt_succ hi, ?_, ?_, ?_⟩
      · rw [hsegment, hsum, List.getD_cons_succ, Nat.add_assoc, Nat.add_comm 1 i]
      · rwa [hsum]
      · rwa [hsum, List.getD_cons_succ]

/-- R142: within a slot's length the covering segment is among the twelve, and starts at the sum of the durations before it. -/
theorem Envelope.segment_of_lt (hcodes : e.codes.length = 12) (hn : n < e.length) :
    ∃ g, e.segment n = some g ∧ 1 ≤ g.number ∧ g.number ≤ 12 ∧ g.start ≤ n ∧ n < g.start + g.duration ∧
      g.start = ((e.codes.take (g.number - 1)).map durationOf).sum ∧ g.duration = durationOf (e.codes.getD (g.number - 1) 0) := by
  obtain ⟨i, hi, hsegment, hlow, hhigh⟩ := segmentAt_of_lt (cs := e.codes) 1 (Nat.zero_le n) (by simpa [Envelope.length] using hn)
  simp only [Nat.zero_add] at hsegment hlow hhigh
  refine ⟨_, hsegment, Nat.le_add_right 1 i, by dsimp only; omega, hlow, hhigh, ?_, ?_⟩ <;> dsimp only <;> rw [Nat.add_sub_cancel_left]

/-! ### Levels and thresholds (R143) -/

theorem Envelope.levelIn_first (e : Envelope) (n : Nat) (h : g.number = 1) : e.levelIn g n = e.levelNumber 1 := if_pos h

theorem Envelope.levelIn_later (e : Envelope) (n : Nat) (h : g.number ≠ 1) :
    e.levelIn g n = (e.levelNumber (g.number - 1) : Int) +
      Int.tdiv (((e.levelNumber g.number : Int) - e.levelNumber (g.number - 1)) * ((n : Int) - g.start)) g.duration := if_neg h

/-- A rise taken in proportion, truncated, stays between nothing and the whole rise. -/
theorem tdiv_proportion {r m d : Int} (hr : 0 ≤ r) (hm : 0 ≤ m) (hmd : m ≤ d) : 0 ≤ (r * m).tdiv d ∧ (r * m).tdiv d ≤ r := by
  have hd : 0 ≤ d := hm.trans hmd
  have hrm : 0 ≤ r * m := mul_nonneg hr hm
  rw [Int.tdiv_eq_ediv_of_nonneg hrm]
  refine ⟨Int.ediv_nonneg hrm hd, ?_⟩
  rcases hd.eq_or_lt with rfl | hpos
  · simpa using hr
  · exact (Int.ediv_le_ediv hpos (mul_le_mul_of_nonneg_left hmd hr)).trans (Int.mul_ediv_cancel r hpos.ne').le

/-- R143: within its segment a level runs between the two level numbers, up or down. -/
theorem level_between {x y m d : Int} (hm : 0 ≤ m) (hmd : m ≤ d) :
    min x y ≤ x + ((y - x) * m).tdiv d ∧ x + ((y - x) * m).tdiv d ≤ max x y := by
  rcases le_total x y with h | h
  · obtain ⟨hlow, hhigh⟩ := tdiv_proportion (sub_nonneg.2 h) hm hmd
    rw [min_eq_left h, max_eq_right h]
    omega
  · obtain ⟨hlow, hhigh⟩ := tdiv_proportion (sub_nonneg.2 h) hm hmd
    have hneg : ((y - x) * m).tdiv d = -((x - y) * m).tdiv d := by rw [← Int.neg_tdiv, ← neg_mul, neg_sub]
    rw [min_eq_right h, max_eq_left h, hneg]
    omega

theorem Envelope.thresholdAt_of (h : e.segment n = some g) : (e.thresholdAt n : Int) = max 0 (min 31 (e.levelIn g n + e.offset)) := by
  unfold Envelope.thresholdAt
  rw [h]
  exact Int.toNat_of_nonneg (le_max_left _ _)

/-! ### ENVSET (R151) -/

theorem envsetContent_write (hcodes : e.codes.length = 12) (hlevels : e.levels.length = 12) (hcode : ∀ c ∈ e.codes, c ≤ 15)
    (hlevel : ∀ c ∈ e.levels, c ≤ 31) (hoffset : e.offset = max (-8) (min offset 7)) :
    envsetContent 1 e.codes e.levels offset = some (some e) := by
  have hclamp : clampOffset offset = e.offset := hoffset.symm
  unfold envsetContent
  rw [if_neg (by decide), if_pos ⟨rfl, hcodes, hlevels, by simpa using hcode, by simpa using hlevel⟩, hclamp]

theorem envsetContent_clear : envsetContent 2 [] [] 0 = some none := rfl

theorem envsetContent_none (h : (action ≠ 1 ∧ action ≠ 2) ∨ (action = 1 ∧ ((∃ c ∈ codes, 15 < c) ∨ ∃ c ∈ levels, 31 < c))) :
    envsetContent action codes levels offset = none := by
  unfold envsetContent
  rcases h with ⟨h1, h2⟩ | ⟨rfl, ⟨c, hc, hover⟩ | ⟨c, hc, hover⟩⟩
  · rw [if_neg h2, if_neg (fun h => h1 h.1)]
  · rw [if_neg (by decide), if_neg]
    rintro ⟨-, -, -, hall, -⟩
    exact absurd (of_decide_eq_true (List.all_eq_true.1 hall c hc)) (not_le.2 hover)
  · rw [if_neg (by decide), if_neg]
    rintro ⟨-, -, -, -, hall⟩
    exact absurd (of_decide_eq_true (List.all_eq_true.1 hall c hc)) (not_le.2 hover)

theorem State.perform_envset_range (h : slotOk k = false ∨ envsetContent action codes levels offset = none) :
    s.perform (.envset k action codes levels offset) = s.refuse .range := by
  change s.reqEnvset k action codes levels offset = _
  unfold State.reqEnvset
  rcases h with h | h
  · rw [h]
  · rw [h]
    cases slotOk k <;> rfl

theorem State.perform_envset_used {c : Option Envelope} (hk : slotOk k = true) (hc : envsetContent action codes levels offset = some c)
    (h : s.slotSelected k = true ∨ s.slotOpened k = true) :
    s.perform (.envset k action codes levels offset) = s.refuse .state := by
  change s.reqEnvset k action codes levels offset = _
  unfold State.reqEnvset
  rw [hk, hc]
  exact if_pos (by simpa using h)

theorem State.perform_envset {c : Option Envelope} (hk : slotOk k = true) (hc : envsetContent action codes levels offset = some c)
    (hselected : s.slotSelected k = false) (hopened : s.slotOpened k = false) :
    s.perform (.envset k action codes levels offset) =
      (s.writeSlot k c).grant (slotBytes c ++ listBytes (if s.slot k = c then [] else s.selectionsOf k)) := by
  change s.reqEnvset k action codes levels offset = _
  unfold State.reqEnvset
  rw [hk, hc]
  exact if_neg (by simp [hselected, hopened])

/-! ### ENVSEL (R152) -/

/-- A selection passes its check: none, or a FULL slot with the signature given (R152). -/
theorem State.selectionFault_none (h : k = 0 ∨ ∃ e, s.slot k = some e ∧ e.signature = n) : s.selectionFault k n = none := by
  unfold State.selectionFault
  rcases h with rfl | ⟨e, hslot, hsignature⟩
  · exact if_pos rfl
  · rw [hslot]
    split
    · rfl
    · exact if_pos hsignature

theorem State.selectionFault_empty (hk : k ≠ 0) (hslot : s.slot k = none) : s.selectionFault k n = some .state := by
  unfold State.selectionFault
  rw [if_neg hk, hslot]

theorem State.selectionFault_signature (hk : k ≠ 0) (hslot : s.slot k = some e) (h : e.signature ≠ n) :
    s.selectionFault k n = some .signature := by
  unfold State.selectionFault
  rw [if_neg hk, hslot]
  exact if_neg h

theorem State.perform_envsel_range (h : lineOk l = false ∨ 4 < a ∨ 4 < b) : s.perform (.envsel l a sa b sb) = s.refuse .range :=
  if_pos (by rcases h with h | h | h <;> simp [h])

/-- ENVSEL with its numbers in range: the START selection is checked before the SPLICE selection. -/
theorem State.perform_envsel (s : State) (hl : lineOk l = true) (ha : a ≤ 4) (hb : b ≤ 4) :
    (∀ c, s.selectionFault a sa = some c → s.perform (.envsel l a sa b sb) = s.refuse c) ∧
    (∀ c, s.selectionFault a sa = none → s.selectionFault b sb = some c → s.perform (.envsel l a sa b sb) = s.refuse c) ∧
    (s.selectionFault a sa = none → s.selectionFault b sb = none → s.perform (.envsel l a sa b sb) =
      (s.setLine l { s.line l with startSlot := a, spliceSlot := b }).grant
        (be1 a ++ be2 (s.signatureOf a) ++ be1 b ++ be2 (s.signatureOf b))) := by
  have hrange : ¬(!(lineOk l && decide (a ≤ 4) && decide (b ≤ 4))) = true := by simp [hl, ha, hb]
  refine ⟨fun c hfault => ?_, fun c hnone hfault => ?_, fun hnone hfine => ?_⟩
  all_goals
    change s.reqEnvsel l a sa b sb = _
    unfold State.reqEnvsel
    rw [if_neg hrange]
  · rw [hfault]
  · rw [hnone, hfault]
  · rw [hnone, hfine]
    rfl

/-! ### O55 -/

/-- Settles O55: the requests from the checks in their order, the level from `level_between`. -/
theorem envelopes : Obligations.Envelopes := by
  refine ⟨fun s tag k offset e htakes h1 h4 hcodes hlevels hcode hlevel hoffset => ?_, fun s tag k action codes levels offset htakes h => ?_,
    fun s tag l a sa b sb htakes h => ?_, fun s tag l a sa b sb fine htakes h1 h2 ha hb hfine => ?_,
    fun e n hcodes hlevels hcode hn => ?_⟩
  · have hk : slotOk k = true := slotOk_iff.2 ⟨h1, h4⟩
    have hwrite := envsetContent_write hcodes hlevels hcode hlevel hoffset
    refine ⟨fun hused => ?_, fun hselected hopened dropped hdropped => ?_⟩
    · exact ⟨refused_in_run (r := .envset k 1 e.codes e.levels offset) rfl htakes rfl rfl (State.perform_envset_used hk hwrite hused) rfl,
        refused_in_run (r := .envset k 2 [] [] 0) rfl htakes rfl rfl (State.perform_envset_used hk envsetContent_clear hused) rfl⟩
    · subst hdropped
      exact ⟨⟨_, answered_in_run (r := .envset k 1 e.codes e.levels offset) rfl htakes rfl rfl
          (State.perform_envset hk hwrite hselected hopened), s.writeSlot_changed k _⟩,
        _, _, _, answered_in_run (r := .envset k 2 [] [] 0) rfl htakes rfl rfl
          (State.perform_envset hk envsetContent_clear hselected hopened), s.writeSlot_changed k _⟩
  · refine refused_in_run (r := .envset k action codes levels offset) rfl htakes rfl rfl (State.perform_envset_range ?_) rfl
    rcases h with h | h | h | h
    · exact .inl (by simp [slotOk, h])
    · exact .inl (by simp [slotOk, h])
    · exact .inr (envsetContent_none (.inl h))
    · exact .inr (envsetContent_none (.inr h))
  · refine refused_in_run (r := .envsel l a sa b sb) rfl htakes rfl rfl (State.perform_envsel_range ?_) rfl
    rcases h with h | h | h
    · exact .inl (by simp [lineOk, h])
    · exact .inl (by simp [lineOk, h])
    · exact .inr h
  · obtain ⟨hstart, hsplice, hgrant⟩ := s.perform_envsel (sa := sa) (sb := sb) (lineOk_iff.2 ⟨h1, h2⟩) ha hb
    have hpasses (k n) (h : fine k n) : s.selectionFault k n = none := State.selectionFault_none ((hfine k n).1 h)
    have hrefused (k n c) (h : (k = a ∧ n = sa) ∨ (fine a sa ∧ k = b ∧ n = sb)) (hfault : s.selectionFault k n = some c) :
        s.perform (.envsel l a sa b sb) = s.refuse c := by
      rcases h with ⟨rfl, rfl⟩ | ⟨hfirst, rfl, rfl⟩
      · exact hstart c hfault
      · exact hsplice c (hpasses _ _ hfirst) hfault
    refine ⟨fun hfirst hsecond => ⟨_, answered_in_run (r := .envsel l a sa b sb) rfl htakes rfl rfl
      (hgrant (hpasses _ _ hfirst) (hpasses _ _ hsecond))⟩, fun k n h hk => ⟨fun hslot => ?_, fun e hslot hsignature => ?_⟩⟩
    · exact refused_in_run (r := .envsel l a sa b sb) rfl htakes rfl rfl (hrefused k n _ h (State.selectionFault_empty hk hslot)) rfl
    · exact refused_in_run (r := .envsel l a sa b sb) rfl htakes rfl rfl
        (hrefused k n _ h (State.selectionFault_signature hk hslot hsignature)) rfl
  · obtain ⟨g, hsegment, h1, h12, hlow, hhigh, hstart, hduration⟩ := Envelope.segment_of_lt hcodes hn
    refine ⟨g, hsegment, h1, h12, hlow, hhigh, hstart, hduration, e.levelIn_first n, e.levelIn_later n, fun hlater => ?_,
      Envelope.thresholdAt_of hsegment⟩
    rw [e.levelIn_later n hlater]
    exact level_between (by omega) (by omega)

end Sys2Proof.Machine
end

section
/-!
PROOF. The call-off of a speed window (O41): the DELIVER of a position among the orders, and what the CALLOFF source does with the
demand.
-/

namespace Sys2Proof.Machine

open Sys2Proof

variable {s t u v w : State} {p k r n tag : Nat} {d : Demand} {x : Position} {c : CallOffState} {full : Bool} {o : Order}

/-! ### The first order of a kind -/

theorem firstOrder_eq_none_iff {f : Order → Bool} : ∀ {es : List (Nat × Order)}, firstOrder f es = none ↔ ∀ e ∈ es, f e.2 = false
  | [] => by simp [firstOrder]
  | e :: es => by
    unfold firstOrder
    split
    case isTrue h => simp [h]
    case isFalse h => simpa [h] using firstOrder_eq_none_iff (es := es)

/-- Of orders whose tags rise, the first that satisfies `f` is the one of the lowest tag. -/
theorem firstOrder_of_least {f : Order → Bool} : ∀ {es : List (Nat × Order)}, es.Pairwise (fun d e => d.1 < e.1) → (k, o) ∈ es →
    f o = true → (∀ e ∈ es, f e.2 = true → k ≤ e.1) → firstOrder f es = some k
  | [], _, ho, _, _ => by cases ho
  | e :: es, hasc, ho, hf, hleast => by
    obtain ⟨hhead, htail⟩ := List.pairwise_cons.1 hasc
    unfold firstOrder
    rcases List.mem_cons.1 ho with rfl | ho
    · exact if_pos hf
    · rw [if_neg fun he => absurd (hhead _ ho) (not_lt.2 (hleast e List.mem_cons_self he))]
      exact firstOrder_of_least htail ho hf fun d hd => hleast d (List.mem_cons_of_mem _ hd)

theorem firstOrder_least {f : Order → Bool} : ∀ {es : List (Nat × Order)}, es.Pairwise (fun d e => d.1 < e.1) → firstOrder f es = some k →
    (∃ o, (k, o) ∈ es ∧ f o = true) ∧ ∀ e ∈ es, f e.2 = true → k ≤ e.1
  | [], _, h => by cases h
  | e :: es, hasc, h => by
    obtain ⟨hhead, htail⟩ := List.pairwise_cons.1 hasc
    unfold firstOrder at h
    split at h
    case isTrue he =>
      cases h
      refine ⟨⟨e.2, List.mem_cons_self, he⟩, fun d hd _ => ?_⟩
      rcases List.mem_cons.1 hd with rfl | hd
      · exact le_rfl
      · exact (hhead d hd).le
    case isFalse he =>
      obtain ⟨⟨o, ho, hf⟩, hleast⟩ := firstOrder_least htail h
      refine ⟨⟨o, List.mem_cons_of_mem _ ho, hf⟩, fun d hd hfd => ?_⟩
      rcases List.mem_cons.1 hd with rfl | hd
      · exact absurd hfd he
      · exact hleast d hd hfd

/-! ### The DELIVER of a position -/

/-- The order delivers to position `p`. -/
def Order.delivers (o : Order) (p : Nat) : Bool := o.kind = .deliver && o.position = some p

theorem State.deliverOf_eq (s : State) (p : Nat) : s.deliverOf p = firstOrder (·.delivers p) s.orders.table.entries := rfl

theorem State.deliverOf_eq_none_iff (hwf : s.orders.table.wf = true) :
    s.deliverOf p = none ↔ ∀ k o, s.order k = some o → o.delivers p = false := by
  rw [State.deliverOf_eq, firstOrder_eq_none_iff]
  exact ⟨fun h k o ho => h (k, o) ((Table.mem_entries_iff hwf).2 ho), fun h e he => h e.1 e.2 ((Table.mem_entries_iff hwf).1 he)⟩

/-- In a table in order, the DELIVER of a position is the one of the lowest tag. -/
theorem State.deliverOf_eq_some_iff (hwf : s.orders.table.wf = true) : s.deliverOf p = some k ↔
    (∃ o, s.order k = some o ∧ o.delivers p = true) ∧ ∀ j o, s.order j = some o → o.delivers p = true → k ≤ j := by
  rw [State.deliverOf_eq]
  refine ⟨fun h => ?_, fun ⟨⟨o, ho, hdelivers⟩, hleast⟩ => ?_⟩
  · obtain ⟨⟨o, ho, hdelivers⟩, hleast⟩ := firstOrder_least (Table.keys_ascending hwf) h
    exact ⟨⟨o, (Table.mem_entries_iff hwf).1 ho, hdelivers⟩, fun j o ho => hleast (j, o) ((Table.mem_entries_iff hwf).2 ho)⟩
  · exact firstOrder_of_least (Table.keys_ascending hwf) ((Table.mem_entries_iff hwf).2 ho) hdelivers fun e he =>
      hleast e.1 e.2 ((Table.mem_entries_iff hwf).1 he)

/-- The DELIVER of a position stays while the orders that deliver to it do. -/
theorem State.deliverOf_congr (hs : s.orders.table.wf = true) (ht : t.orders.table.wf = true)
    (h : ∀ k, (∃ o, t.order k = some o ∧ o.delivers p = true) ↔ ∃ o, s.order k = some o ∧ o.delivers p = true) :
    t.deliverOf p = s.deliverOf p := by
  cases hp : s.deliverOf p with
  | none =>
    rw [State.deliverOf_eq_none_iff hs] at hp
    refine (State.deliverOf_eq_none_iff ht).2 fun k o ho => ?_
    by_contra hdelivers
    obtain ⟨o', ho', hdelivers'⟩ := (h k).1 ⟨o, ho, by simpa using hdelivers⟩
    exact absurd (hp k o' ho') (by simp [hdelivers'])
  | some k =>
    obtain ⟨hk, hleast⟩ := (State.deliverOf_eq_some_iff hs).1 hp
    refine (State.deliverOf_eq_some_iff ht).2 ⟨(h k).2 hk, fun j o ho hdelivers => ?_⟩
    obtain ⟨o', ho', hdelivers'⟩ := (h j).1 ⟨o, ho, hdelivers⟩
    exact hleast j o' ho' hdelivers'

theorem BacklogItem.isDeliveryOf_iff {i : BacklogItem} : i.isDeliveryOf p = true ↔ ∃ r q, i = .delivery p r q := by
  cases i with
  | delivery k r q =>
    simp only [BacklogItem.isDeliveryOf, decide_eq_true_eq, BacklogItem.delivery.injEq]
    exact ⟨fun h => ⟨r, q, h, rfl, rfl⟩, fun ⟨_, _, h, _, _⟩ => h⟩
  | disposal => simp [BacklogItem.isDeliveryOf]

/-! ### The four ways of a call-off (R98, R99) -/

/-- A position whose call-off has just been raised and has reached a state. -/
def Position.called (x : Position) (c : CallOffState) (full : Bool) : Position := { x with callOff := ⟨c, full, false⟩ }

/-- What the CALLOFF source has done with the demand of position `p`, before its notice (R98, R99). -/
def State.callOffAnswered (s : State) (p : Nat) (d : Demand) : State :=
  if s.reacts 7 then (s.clearUrgency p).answerCallOff p d else (s.clearUrgency p).setCallOff p .raised false

/-- `w` is `t` with the call-off of position `p` raised: its state, its reason, and the tag of its DELIVER. -/
structure State.Called (t w : State) (p : Nat) (d : Demand) (c : CallOffState) (full : Bool) (tag : Nat) : Prop where
  others : ∀ k, k ≠ p → w.pos k = t.pos k
  pos : w.pos p = (t.pos p).called c full
  notices : w.notices = (if c = .waitStock ∧ full = false then t.raise (.noStock p d.grade d.width) else t).notices
  clock : w.clock = t.clock
  wf : t.orders.table.wf = true → w.orders.table.wf = true
  found : c = .ordered ∨ full = true → ∃ r, t.select d.grade d.width = some r
  made : ∀ r, c = .ordered → t.select d.grade d.width = some r →
    w.order tag = some (t.newOrder ⟨.deliver, .normal, some r, t.bayPlace r, .arm p none, some p, none⟩)
  kept : ∀ k, (c = .ordered → k ≠ tag) → w.order k = t.order k
  queued : full = true → ∀ r, t.select d.grade d.width = some r → w.orders = (t.joinBacklog (.delivery p r .normal)).orders
  unqueued : full = false → w.orders.backlog = t.orders.backlog
  reels : c = .raised ∨ (c = .waitStock ∧ full = false) → w.reels = t.reels
  reel : ∀ r, c ≠ .raised → t.select d.grade d.width = some r → ∀ k, w.reel k = if k = r then (t.reel r).map fun y =>
    { y with state := .reserved, reservation := some p, tag := if c = .ordered then some tag else y.tag } else t.reel k
  demands : c = .raised → w.demands = t.demands
  waiting : c = .waitStock → full = false → w.demands = (t.addDemand p d).demands

theorem State.clearUrgency_setCallOff (s : State) (p : Nat) (c : CallOffState) (full : Bool) :
    (s.clearUrgency p).setCallOff p c full = s.setPos p ((s.pos p).called c full) := by
  unfold State.clearUrgency State.setCallOff State.onPos
  rw [State.pos_setPos_same, State.setPos_setPos]
  rfl

/-- In REPORT and OFF the call-off is RAISED and waits for a DELIVER request. -/
theorem State.called_raised (hreacts : t.reacts 7 = false) (p : Nat) (d : Demand) (tag : Nat) :
    t.Called (t.callOffAnswered p d) p d .raised false tag := by
  have hw : t.callOffAnswered p d = t.setPos p ((t.pos p).called .raised false) := by
    rw [State.callOffAnswered, hreacts, if_neg (by decide), State.clearUrgency_setCallOff]
  rw [hw]
  exact {
    others := fun k hk => State.pos_setPos_other _ hk _
    pos := State.pos_setPos_same _ _ _
    notices := rfl, clock := rfl, wf := id, found := fun h => by rcases h with h | h <;> cases h
    made := fun _ h => by cases h
    kept := fun _ _ => rfl, queued := fun h => by cases h
    unqueued := fun _ => rfl, reels := fun _ => rfl, reel := fun _ h => absurd rfl h
    demands := fun _ => rfl, waiting := fun h => by cases h }

theorem State.select_clearUrgency (s : State) (p g n : Nat) : (s.clearUrgency p).select g n = s.select g n := by
  rw [State.select_eq, State.select_eq]
  rfl

theorem State.addDemand_eq (s : State) (p : Nat) (d : Demand) : s.addDemand p d = { s with demands := (s.addDemand p d).demands } := by
  unfold State.addDemand
  split <;> rfl

theorem State.addDemand_clearUrgency (s : State) (p : Nat) (d : Demand) :
    (s.clearUrgency p).addDemand p d = (s.addDemand p d).clearUrgency p := by
  have hentry : (s.clearUrgency p).demandEntry p = s.demandEntry p := rfl
  unfold State.addDemand
  rw [hentry]
  split <;> rfl

/-- With no reel for it the demand waits, and NOSTOCK is raised before the call-off's own notice (R32). -/
theorem State.called_noStock (hreacts : t.reacts 7 = true) (hselect : t.select d.grade d.width = none) (tag : Nat) :
    t.Called (t.callOffAnswered p d) p d .waitStock false tag := by
  have hselect' : (t.clearUrgency p).select d.grade d.width = none := (t.select_clearUrgency ..).trans hselect
  have hw : t.callOffAnswered p d =
      ((t.addDemand p d).setPos p (((t.addDemand p d).pos p).called .waitStock false)).raise (.noStock p d.grade d.width) := by
    rw [State.callOffAnswered, hreacts, if_pos rfl, State.answerCallOff, hselect']
    dsimp only
    rw [State.joinQueue, State.addDemand_clearUrgency, State.clearUrgency_setCallOff]
  have hadd := t.addDemand_eq p d
  have hpos : (t.addDemand p d).pos = t.pos := by rw [hadd]; rfl
  have hclock : (t.addDemand p d).clock = t.clock := by rw [hadd]
  have hnotices : (t.addDemand p d).notices = t.notices := by rw [hadd]
  have horders : (t.addDemand p d).orders = t.orders := by rw [hadd]
  have hreels : (t.addDemand p d).reels = t.reels := by rw [hadd]
  rw [hw]
  exact {
    others := fun k hk => by rw [State.raise_pos, State.pos_setPos_other _ hk, hpos]
    pos := by rw [State.raise_pos, State.pos_setPos_same, hpos]
    notices := by
      rw [if_pos ⟨rfl, rfl⟩]
      exact State.raise_notices_congr (s := (t.addDemand p d).setPos p _) hnotices hclock _
    clock := (State.raise_clock _ _).trans hclock
    wf := fun h => by
      rw [State.raise_orders]
      exact horders ▸ h
    found := fun h => by rcases h with h | h <;> cases h
    made := fun _ h => by cases h
    kept := fun k _ => by
      unfold State.order
      rw [State.raise_orders]
      exact congrArg (fun l : OrderList => l.table.find k) horders
    queued := fun h => by cases h
    unqueued := fun _ => by
      rw [State.raise_orders]
      exact congrArg OrderList.backlog horders
    reels := fun _ => (State.raise_reels _ _).trans hreels
    reel := fun r _ h => by rw [hselect] at h; cases h
    demands := fun h => by cases h
    waiting := fun _ _ => State.raise_demands _ _ }

theorem State.reserve_eq (s : State) (r p : Nat) : s.reserve r p = { s with
    reels := (s.reserve r p).reels, rest := { s.rest with watch := (s.reserve r p).rest.watch } } := by
  unfold State.reserve State.rewatch
  rw [State.onReel_eq]

theorem State.reserve_clearUrgency (s : State) (r p q : Nat) : (s.clearUrgency q).reserve r p = (s.reserve r p).clearUrgency q := by
  have hreel : (s.clearUrgency q).reel r = s.reel r := rfl
  unfold State.reserve State.onReel
  rw [hreel]
  split <;> rfl

theorem State.joinBacklog_clearUrgency (s : State) (q : Nat) (i : BacklogItem) :
    (s.clearUrgency q).joinBacklog i = (s.joinBacklog i).clearUrgency q := by
  have horders : (s.clearUrgency q).orders = s.orders := rfl
  unfold State.joinBacklog
  rw [horders]
  split <;> rfl

/-- The reel the rule selects, once reserved, where no tag is given to it. -/
theorem State.reserve_reel_map (s : State) (r p k : Nat) : (s.reserve r p).reel k = if k = r then (s.reel r).map fun y =>
    { y with state := .reserved, reservation := some p, tag := y.tag } else s.reel k := s.reserve_reel r p k

/-- With the list full the DELIVER joins the backlog (R49, R99). -/
theorem State.called_backlog (hreacts : t.reacts 7 = true) (hselect : t.select d.grade d.width = some r) (hfull : t.ordersFull = true)
    (tag : Nat) : t.Called (t.callOffAnswered p d) p d .waitStock true tag := by
  have hselect' : (t.clearUrgency p).select d.grade d.width = some r := (t.select_clearUrgency ..).trans hselect
  have hfull' : ((t.reserve r p).clearUrgency p).ordersFull = true := by
    rw [State.reserve_eq]
    exact hfull
  have hw : t.callOffAnswered p d = ((t.reserve r p).joinBacklog (.delivery p r .normal)).setPos p
      ((((t.reserve r p).joinBacklog (.delivery p r .normal)).pos p).called .waitStock true) := by
    rw [State.callOffAnswered, hreacts, if_pos rfl, State.answerCallOff, hselect']
    dsimp only
    rw [State.reserve_clearUrgency, State.deliverOrBacklog, if_pos hfull', State.joinBacklog_clearUrgency, State.clearUrgency_setCallOff]
  have hjoin : (t.reserve r p).joinBacklog (.delivery p r .normal) =
      { t.reserve r p with orders := (t.joinBacklog (.delivery p r .normal)).orders } := by
    rw [State.reserve_eq]
    unfold State.joinBacklog
    dsimp only
    split <;> rfl
  have hpos : (t.reserve r p).pos = t.pos := by rw [State.reserve_eq]; rfl
  have hnotices : (t.reserve r p).notices = t.notices := by rw [State.reserve_eq]
  have hclock : (t.reserve r p).clock = t.clock := by rw [State.reserve_eq]
  have htable : (t.joinBacklog (.delivery p r .normal)).orders.table = t.orders.table := by rw [State.joinBacklog_eq]
  rw [hw, hjoin]
  exact {
    others := fun k hk => (State.pos_setPos_other _ hk _).trans (congrFun hpos k)
    pos := (State.pos_setPos_same _ _ _).trans (congrArg (fun f => (f p).called .waitStock true) hpos)
    notices := by
      rw [if_neg (by simp)]
      exact hnotices
    clock := hclock
    wf := fun h => htable ▸ h
    found := fun _ => ⟨r, hselect⟩
    made := fun _ h => by cases h
    kept := fun k _ => congrArg (fun l : Table Order => l.find k) htable
    queued := fun _ q hq => by
      rw [hselect] at hq
      cases hq
      rfl
    unqueued := fun h => by cases h
    reels := fun h => by rcases h with h | ⟨-, h⟩ <;> cases h
    reel := fun q _ hq k => by
      rw [hselect] at hq
      cases hq
      exact t.reserve_reel_map r p k
    demands := fun h => by cases h
    waiting := fun _ h => by cases h }

theorem State.reserve_bayPlace (s : State) (r p k : Nat) : (s.reserve r p).bayPlace k = s.bayPlace k := s.servedFrom_bayPlace r p k

/-- With room in the list the DELIVER is made, and the reel takes its tag (R40, R99). -/
theorem State.called_ordered (hreacts : t.reacts 7 = true) (hselect : t.select d.grade d.width = some r) (hfull : t.ordersFull = false) :
    t.Called (t.callOffAnswered p d) p d .ordered false t.nextTag := by
  have hselect' : (t.clearUrgency p).select d.grade d.width = some r := (t.select_clearUrgency ..).trans hselect
  have hfull' : ¬((t.reserve r p).clearUrgency p).ordersFull = true := by
    rw [State.reserve_eq]
    exact (Bool.eq_false_iff.1 hfull)
  have hw : t.callOffAnswered p d = ((t.reserve r p).clearUrgency p).makeDeliver p r .normal := by
    rw [State.callOffAnswered, hreacts, if_pos rfl, State.answerCallOff, hselect']
    dsimp only
    rw [State.reserve_clearUrgency, State.deliverOrBacklog, if_neg hfull']
  have hpos : (t.reserve r p).pos = t.pos := by rw [State.reserve_eq]; rfl
  have hnotices : (t.reserve r p).notices = t.notices := by rw [State.reserve_eq]
  have hclock : (t.reserve r p).clock = t.clock := by rw [State.reserve_eq]
  have horders : ((t.reserve r p).clearUrgency p).orders = t.orders := by rw [State.reserve_eq]; rfl
  have htag : ((t.reserve r p).clearUrgency p).nextTag = t.nextTag := by rw [State.reserve_eq]; rfl
  have hnew (m : NewOrder) : ((t.reserve r p).clearUrgency p).newOrder m = t.newOrder m := by rw [State.reserve_eq]; rfl
  have hplace : ((t.reserve r p).clearUrgency p).bayPlace r = t.bayPlace r := t.reserve_bayPlace r p r
  have hmade := State.makeDeliver_eq ((t.reserve r p).clearUrgency p) p r .normal
  rw [hw]
  exact {
    others := fun k hk => by
      refine (State.pos_of_insert (by rw [hmade]) k).trans ((if_neg hk).trans ?_)
      exact (State.onPos_pos_other _ hk _).trans (congrFun hpos k)
    pos := by
      refine (State.pos_of_insert (by rw [hmade]) p).trans ((if_pos rfl).trans ?_)
      rw [State.clearUrgency, State.onPos_pos_same, hpos]
      rfl
    notices := by
      rw [if_neg (by simp)]
      exact (congrArg State.notices hmade).trans hnotices
    clock := (congrArg State.clock hmade).trans hclock
    wf := fun h => by
      rw [State.makeDeliver_normal_orders, State.createOrder_eq]
      exact Table.wf_insert _ _ _ (horders ▸ h)
    found := fun _ => ⟨r, hselect⟩
    made := fun q _ hq => by
      rw [hselect] at hq
      cases hq
      have horder := State.makeDeliver_order_same ((t.reserve r p).clearUrgency p) p r .normal
      rw [htag, hnew, State.deliverOrder, hplace] at horder
      exact horder
    kept := fun k hk => by
      unfold State.order
      rw [State.makeDeliver_normal_orders]
      refine ((created_createOrder _ _).others k (htag ▸ hk rfl)).trans ?_
      exact congrArg (fun l : OrderList => l.table.find k) horders
    queued := fun h => by cases h
    unqueued := fun _ => by
      rw [State.makeDeliver_normal_orders, State.createOrder_backlog]
      exact congrArg OrderList.backlog horders
    reels := fun h => by rcases h with h | ⟨h, -⟩ <;> cases h
    reel := fun q _ hq k => by
      rw [hselect] at hq
      cases hq
      unfold State.reel
      rw [hmade]
      refine (taggedReels_find _ _ k).trans ?_
      rw [htag]
      change (if some r = some k then ((t.reserve r p).reel k).map _ else (t.reserve r p).reel k) = _
      rw [State.reserve_reel]
      by_cases hk : k = r
      · subst hk
        rw [if_pos rfl, if_pos rfl, if_pos rfl, Option.map_map]
        rfl
      · rw [if_neg (by simpa using Ne.symm hk), if_neg hk, if_neg hk]
        rfl
    demands := fun h => by cases h
    waiting := fun h => by cases h }

/-- What a call-off reaches: its state, its reason, and the tag of the DELIVER made for it (R98, R99). -/
theorem State.called_of (t : State) (p : Nat) (d : Demand)
    (h : (c, full, tag) = (if (t.handling 7).mode = .report ∨ (t.handling 7).mode = .off then (.raised, false, 0)
      else if t.select d.grade d.width = none then (.waitStock, false, 0)
      else if t.ordersFull = true then (.waitStock, true, 0) else (.ordered, false, t.nextTag))) :
    t.Called (t.callOffAnswered p d) p d c full tag := by
  split at h
  case isTrue hmode =>
    cases h
    exact State.called_raised ((State.reacts_false_iff t 7).2 hmode) p d 0
  case isFalse hmode =>
    have hreacts : t.reacts 7 = true := by
      rw [← State.reacts_false_iff] at hmode
      simpa using hmode
    split at h
    case isTrue hselect =>
      cases h
      exact State.called_noStock hreacts hselect 0
    case isFalse hselect =>
      obtain ⟨r, hr⟩ := Option.ne_none_iff_exists'.1 hselect
      split at h
      case isTrue hfull =>
        cases h
        exact State.called_backlog hreacts hr hfull 0
      case isFalse hfull =>
        cases h
        exact State.called_ordered hreacts hr (by simpa using hfull)

end Sys2Proof.Machine
end

section
/-!
PROOF. The urgency of a delivery (R55, R101), and the match test (R115).
-/

namespace Sys2Proof.Machine

open Sys2Proof

variable {s t u v w : State} {p k r n tag : Nat} {d : Demand} {x : Position} {c : CallOffState} {full : Bool} {o : Order}

/-! ### The orders a short time to splice raises (R55) -/

theorem Order.disposesAt_iff : o.disposesAt p = true ↔ o.position = some p ∧ o.progress = 1 ∧ (o.kind = .ret ∨ o.kind = .clear) := by
  simp only [Order.disposesAt, Bool.and_eq_true, Bool.or_eq_true, decide_eq_true_eq]
  tauto

theorem State.raiseUrgency_eq (s : State) (p : Nat) : s.raiseUrgency p = { s with orders := (s.raiseUrgency p).orders } := by
  unfold State.raiseUrgency
  cases s.deliverOf p with
  | none => rfl
  | some k =>
    dsimp only [State.whenSome]
    rw [State.onOrder_eq]
    rfl

theorem State.raiseUrgency_order (s : State) (p k : Nat) : (s.raiseUrgency p).order k = (s.order k).map fun o => { o with
    priority := if s.deliverOf p = some k ∨ (o.position = some p ∧ o.progress = 1 ∧ (o.kind = .ret ∨ o.kind = .clear)) then .urgent
      else o.priority } := by
  have hdisposes (o : Order) : (if o.disposesAt p then { o with priority := .urgent } else o) = { o with
      priority := if o.position = some p ∧ o.progress = 1 ∧ (o.kind = .ret ∨ o.kind = .clear) then .urgent else o.priority } := by
    simp only [Order.disposesAt_iff]
    split <;> rfl
  have hraised : (s.raiseUrgency p).order k = ((s.whenSome (s.deliverOf p) fun s t =>
      s.onOrder t fun o => { o with priority := .urgent }).order k).map fun o =>
        if o.disposesAt p then { o with priority := .urgent } else o := State.raiseDisposals_order _ p k
  rw [hraised, funext hdisposes]
  cases hp : s.deliverOf p with
  | none => simp [State.whenSome]
  | some j =>
    dsimp only [State.whenSome]
    rw [State.order_onOrder]
    by_cases hk : k = j
    · subst hk
      rw [if_pos rfl, Option.map_map]
      refine congrArg (fun f => Option.map f (s.order k)) (funext fun o => ?_)
      dsimp only [Function.comp]
      rw [ite_self, if_pos (.inl rfl)]
    · rw [if_neg hk]
      simp [Ne.symm hk]

theorem State.raiseUrgency_backlog (s : State) (p : Nat) : (s.raiseUrgency p).orders.backlog = s.orders.backlog.map (fun
    | .delivery k r q => .delivery k r (if k = p then .urgent else q)
    | .disposal k a c q => .disposal k a c (if k = p then .urgent else q)) := by
  have hbacklog : (s.whenSome (s.deliverOf p) fun s t => s.onOrder t fun o => { o with priority := .urgent }).orders.backlog =
      s.orders.backlog := by
    cases s.deliverOf p with
    | none => rfl
    | some k =>
      change (s.onOrder k _).orders.backlog = _
      unfold State.onOrder
      split <;> rfl
  change List.map _ (List.map _ (State.orders _).backlog) = _
  rw [hbacklog, List.map_map]
  refine List.map_congr_left fun i _ => ?_
  cases i with
  | delivery k r q => by_cases hk : k = p <;> simp [BacklogItem.isDeliveryOf, BacklogItem.disposesAt, BacklogItem.raised, hk]
  | disposal k a c q => by_cases hk : k = p <;> simp [BacklogItem.isDeliveryOf, BacklogItem.disposesAt, BacklogItem.raised, hk]

theorem State.raiseUrgency_wf (h : s.orders.table.wf = true) (p : Nat) : (s.raiseUrgency p).orders.table.wf = true := by
  refine Table.wf_mapEntries _ _ ?_
  cases s.deliverOf p with
  | none => exact h
  | some k =>
    change (s.onOrder k _).orders.table.wf = true
    unfold State.onOrder
    split
    · exact Table.wf_insert _ _ _ h
    · exact h

/-- No priority changes what an order delivers. -/
theorem State.raiseUrgency_deliverOf (h : s.orders.table.wf = true) (p : Nat) : (s.raiseUrgency p).deliverOf p = s.deliverOf p := by
  refine State.deliverOf_congr h (State.raiseUrgency_wf h p) fun k => ?_
  rw [State.raiseUrgency_order]
  cases s.order k with
  | none => simp
  | some o => simp [Order.delivers]

/-! ### The urgency test (R101) -/

/-- A position whose urgency has been reported. -/
def Position.reported (x : Position) : Position := { x with callOff := { x.callOff with urgencyReported := true } }

/-- What the URGENT source does at a short time to splice, before its notice (R101). -/
def State.urgencyAnswered (s : State) (p : Nat) : State :=
  if s.reacts 6 then (s.onPos p Position.reported).raiseUrgency p else s.onPos p Position.reported

theorem State.urgencyDue_iff : s.urgencyDue p = true ↔ (s.pos p).isWeb = true ∧
    (s.pos p).gauge.timeToSplice ≤ (s.pos p).params.urgentMargin ∧ (s.pos p).callOff.urgencyReported = false ∧
    (s.deliverOf p ≠ none ∨ ∃ r q, .delivery p r q ∈ s.orders.backlog) := by
  have hitem : s.orders.backlog.any (fun i => i.isDeliveryOf p) = true ↔ ∃ r q, .delivery p r q ∈ s.orders.backlog := by
    simp only [List.any_eq_true, BacklogItem.isDeliveryOf_iff]
    exact ⟨fun ⟨_, hi, r, q, h⟩ => ⟨r, q, h ▸ hi⟩, fun ⟨r, q, hi⟩ => ⟨_, hi, r, q, rfl⟩⟩
  simp only [State.urgencyDue, Bool.and_eq_true, Bool.or_eq_true, decide_eq_true_eq, Bool.not_eq_true', hitem, Option.isSome_iff_ne_none,
    and_assoc]

theorem State.testUrgency_of_not (h : ¬s.urgencyDue p = true) : s.testUrgency p = s := if_neg h

/-- `u` is `v` with a short time to splice reported for position `p`, and with the reaction of its source (R55, R101). -/
structure State.Hurried (v u : State) (p : Nat) : Prop where
  rest : u = { v with positions := u.positions, orders := u.orders }
  others : ∀ k, k ≠ p → u.pos k = v.pos k
  pos : u.pos p = (v.pos p).reported
  silent : v.reacts 6 = false → u.orders = v.orders
  order : v.reacts 6 = true → ∀ k, u.order k = (v.order k).map fun o => { o with
    priority := if v.deliverOf p = some k ∨ (o.position = some p ∧ o.progress = 1 ∧ (o.kind = .ret ∨ o.kind = .clear)) then .urgent
      else o.priority }
  backlog : v.reacts 6 = true → u.orders.backlog = v.orders.backlog.map (fun
    | .delivery k r q => .delivery k r (if k = p then .urgent else q)
    | .disposal k a c q => .disposal k a c (if k = p then .urgent else q))
  deliverOf : v.orders.table.wf = true → u.deliverOf p = v.deliverOf p

theorem State.hurried_answered (v : State) (p : Nat) : v.Hurried (v.urgencyAnswered p) p := by
  have hothers (k) (hk : k ≠ p) : (v.onPos p Position.reported).pos k = v.pos k := State.onPos_pos_other _ hk _
  have hpos : (v.onPos p Position.reported).pos p = (v.pos p).reported := State.onPos_pos_same _ p _
  unfold State.urgencyAnswered
  split
  case isTrue hreacts =>
    have hraise := (v.onPos p Position.reported).raiseUrgency_eq p
    have hkept : ((v.onPos p Position.reported).raiseUrgency p).pos = (v.onPos p Position.reported).pos := by
      rw [hraise]
      rfl
    exact {
      rest := by rw [hraise]; rfl
      others := fun k hk => by rw [hkept, hothers k hk]
      pos := by rw [hkept, hpos]
      silent := fun h => by rw [hreacts] at h; cases h
      order := fun _ k => State.raiseUrgency_order _ p k
      backlog := fun _ => State.raiseUrgency_backlog _ p
      deliverOf := fun h => State.raiseUrgency_deliverOf (s := v.onPos p Position.reported) h p }
  case isFalse hreacts =>
    exact {
      rest := rfl
      others := hothers
      pos := hpos
      silent := fun _ => rfl
      order := fun h => absurd h hreacts
      backlog := fun h => absurd h hreacts
      deliverOf := fun _ => rfl }

theorem State.testUrgency_of_due (h : s.urgencyDue p = true) : s.testUrgency p = (s.urgencyAnswered p).raise
    (.urgent p ((s.urgencyAnswered p).pos p).gauge.timeToSplice (((s.urgencyAnswered p).deliverOf p).getD 0)) := by
  have hreacts : (s.onPos p Position.reported).reacts 6 = s.reacts 6 := rfl
  unfold State.testUrgency State.urgencyAnswered
  rw [if_pos h, ← hreacts]
  rfl

/-- A short time to splice reported: the notice names the DELIVER as it stood (R101). -/
theorem State.testUrgency_notices (hwf : s.orders.table.wf = true) (h : s.urgencyDue p = true) : (s.testUrgency p).notices =
    (s.raise (.urgent p (s.pos p).gauge.timeToSplice ((s.deliverOf p).getD 0))).notices := by
  have hanswered := s.hurried_answered p
  rw [State.testUrgency_of_due h, hanswered.deliverOf hwf, hanswered.pos]
  have hnotices : (s.urgencyAnswered p).notices = s.notices := by rw [hanswered.rest]
  have hclock : (s.urgencyAnswered p).clock = s.clock := by rw [hanswered.rest]
  exact State.raise_notices_congr hnotices hclock _

/-! ### The match test (R115) -/

theorem Position.matches_iff : x.matches = true ↔ 100 ≤ x.gauge.speed ∧
    (max x.gauge.standbySpeed x.gauge.speed - min x.gauge.standbySpeed x.gauge.speed) * 1000 ≤ x.params.matchTolerance * x.gauge.speed := by
  simp [Position.matches]

theorem Position.matchTest_accel (h : x.sequence = .accel) : x.matchTest = { x with
    splice := { x.splice with matchMs := if x.matches then some (x.splice.matchMs.getD 0) else none } } := by
  unfold Position.matchTest
  rw [h]
  dsimp only
  split <;> rfl

theorem Position.matchTest_matched (h : x.sequence = .matched ∨ x.sequence = .armed) (hfits : x.matches = true) : x.matchTest = x := by
  unfold Position.matchTest
  rcases h with h | h <;> (rw [h]; exact if_pos hfits)

theorem Position.matchTest_lost (h : x.sequence = .matched ∨ x.sequence = .armed) (hfits : ¬x.matches = true) :
    x.matchTest = { x with sequence := .accel, splice := { x.splice with matchMs := none } } := by
  unfold Position.matchTest
  rcases h with h | h <;> (rw [h]; exact if_neg hfits)

theorem Position.matchTest_other (h : x.sequence ∉ [Sequence.accel, .matched, .armed]) : x.matchTest = x := by
  unfold Position.matchTest
  split
  case h_1 hq => exact absurd (by simp [hq]) h
  case h_2 hq => exact absurd (by simp [hq]) h
  case h_3 hq => exact absurd (by simp [hq]) h
  case h_4 => rfl

theorem Position.matchTest_kept (x : Position) :
    x.matchTest.callOff = x.callOff ∧ x.matchTest.outputs = x.outputs ∧ x.matchTest.running = x.running := by
  unfold Position.matchTest
  repeat' split
  all_goals exact ⟨rfl, rfl, rfl⟩

end Sys2Proof.Machine
end

section
/-!
PROOF. A speed window (O41): both speeds, the call-off test, the urgency test and the match test, in their order.
-/

namespace Sys2Proof.Machine

open Sys2Proof

variable {s t u v w : State} {p k r n tag : Nat} {d : Demand} {x z : Position} {g : Gauge} {c : CallOffState} {full late hurried : Bool} {o : Order}

/-! ### The position at the end of a window -/

/-- The readings a window takes and those it leaves (R91, R97). -/
theorem Position.window_gauge (x : Position) (n : Nat) : (x.window n).gauge.speed = 10 * x.gauge.windowCounts ∧
    (x.window n).gauge.standbySpeed = 10 * n ∧ (x.window n).gauge.windowCounts = 0 ∧
    (x.window n).gauge.remaining = x.gauge.remaining ∧ (x.window n).gauge.estimate = x.gauge.estimate := by
  have htimed (h : Gauge) : h.timed = { h with timeToSplice := h.timed.timeToSplice, flagZ := h.timed.flagZ } := by
    unfold Gauge.timed
    split <;> rfl
  unfold Position.window
  dsimp only
  split
  · rw [htimed]
    exact ⟨rfl, rfl, rfl, rfl, rfl⟩
  · exact ⟨rfl, rfl, rfl, rfl, rfl⟩

/-- The match test of a position that differs from `x` in its readings and its call-off (R115, R116). -/
theorem Position.matchTest_of {k : CallOff} {fits : Prop} (hz : z = { x with gauge := g, callOff := k })
    (hfits : fits ↔ 100 ≤ g.speed ∧
      (max g.standbySpeed g.speed - min g.standbySpeed g.speed) * 1000 ≤ x.params.matchTolerance * g.speed) :
    z.matchTest.gauge = g ∧ z.matchTest.callOff = k ∧ z.matchTest.outputs = x.outputs ∧ z.matchTest.running = x.running ∧
    (x.sequence = .accel → z.matchTest.sequence = .accel ∧
      (fits → z.matchTest.splice.matchMs = some (x.splice.matchMs.getD 0)) ∧ (¬fits → z.matchTest.splice.matchMs = none)) ∧
    (x.sequence = .matched ∨ x.sequence = .armed → (fits → z.matchTest.sequence = x.sequence) ∧
      (¬fits → z.matchTest.sequence = .accel)) ∧
    (x.sequence ∉ [Sequence.accel, .matched, .armed] → z.matchTest.sequence = x.sequence ∧ z.matchTest.splice = x.splice) := by
  obtain ⟨hcallOff, houtputs, hrunning⟩ := z.matchTest_kept
  have hgauge := z.matchTest_gauge
  subst hz
  have hfits' : ({ x with gauge := g, callOff := k } : Position).matches = true ↔ fits := Position.matches_iff.trans hfits.symm
  refine ⟨hgauge, hcallOff, houtputs, hrunning, fun h => ?_, fun h => ?_, fun h => ?_⟩
  · rw [Position.matchTest_accel (x := { x with gauge := g, callOff := k }) h]
    exact ⟨h, fun hf => if_pos (hfits'.2 hf), fun hf => if_neg (mt hfits'.1 hf)⟩
  · refine ⟨fun hf => ?_, fun hf => ?_⟩
    · rw [Position.matchTest_matched (x := { x with gauge := g, callOff := k }) h (hfits'.2 hf)]
    · rw [Position.matchTest_lost (x := { x with gauge := g, callOff := k }) h (mt hfits'.1 hf)]
  · rw [Position.matchTest_other (x := { x with gauge := g, callOff := k }) h]
    exact ⟨rfl, rfl⟩

/-! ### What the urgency test leaves -/

theorem State.raise_handling (s : State) (b : Subjects) (k : Nat) : (s.raise b).handling k = s.handling k := by
  unfold State.raise
  dsimp only
  split
  · unfold State.handling
    dsimp only
    rw [Notices.offer_handling]
  · rfl

theorem State.testUrgency_rest (s : State) (p : Nat) : s.testUrgency p = { s with
    positions := (s.testUrgency p).positions, orders := (s.testUrgency p).orders, notices := (s.testUrgency p).notices } := by
  by_cases h : s.urgencyDue p = true
  · rw [State.testUrgency_of_due h, State.raise_eq, (s.hurried_answered p).rest]
  · rw [State.testUrgency_of_not h]

theorem State.testUrgency_pos_other (s : State) (hk : k ≠ p) : (s.testUrgency p).pos k = s.pos k := by
  by_cases h : s.urgencyDue p = true
  · rw [State.testUrgency_of_due h, State.raise_pos, (s.hurried_answered p).others k hk]
  · rw [State.testUrgency_of_not h]

theorem State.testUrgency_pos (s : State) (p : Nat) : (s.testUrgency p).pos p = { s.pos p with callOff := { (s.pos p).callOff with
    urgencyReported := s.urgencyDue p || (s.pos p).callOff.urgencyReported } } := by
  by_cases h : s.urgencyDue p = true
  · rw [State.testUrgency_of_due h, State.raise_pos, (s.hurried_answered p).pos, h]
    rfl
  · rw [State.testUrgency_of_not h, Bool.eq_false_iff.2 h]
    rfl

theorem State.testUrgency_orders_same (h : s.urgencyDue p = true → s.reacts 6 = false) : (s.testUrgency p).orders = s.orders := by
  by_cases hdue : s.urgencyDue p = true
  · rw [State.testUrgency_of_due hdue, State.raise_orders, (s.hurried_answered p).silent (h hdue)]
  · rw [State.testUrgency_of_not hdue]

/-- The orders after the urgency test: in AUTO and BOTH the DELIVER and the butt orders in its way are URGENT (R55, R101). -/
theorem State.testUrgency_order (hhurried : hurried = true ↔ s.urgencyDue p = true ∧ s.reacts 6 = true) (k : Nat) :
    (s.testUrgency p).order k = (s.order k).map fun o => { o with
      priority := if hurried = true ∧ (s.deliverOf p = some k ∨
        (o.position = some p ∧ o.progress = 1 ∧ (o.kind = .ret ∨ o.kind = .clear))) then .urgent else o.priority } := by
  by_cases h : hurried = true
  · obtain ⟨hdue, hreacts⟩ := hhurried.1 h
    have horders : (s.testUrgency p).orders = (s.urgencyAnswered p).orders := by rw [State.testUrgency_of_due hdue, State.raise_orders]
    refine (congrArg (fun l : OrderList => l.table.find k) horders).trans (((s.hurried_answered p).order hreacts k).trans ?_)
    simp only [h, true_and]
  · have horders := State.testUrgency_orders_same (s := s) (p := p) fun hdue =>
      Bool.eq_false_iff.2 fun hreacts => h (hhurried.2 ⟨hdue, hreacts⟩)
    refine (congrArg (fun l : OrderList => l.table.find k) horders).trans ?_
    change s.order k = _
    cases s.order k with
    | none => rfl
    | some o => simp [h]

/-! ### The call-off test (R98) -/

/-- The part after both speeds of a window. -/
def State.windowed (s : State) (p n : Nat) : State := s.setPos p ((s.pos p).window n)

theorem State.windowed_pos (s : State) (p n : Nat) : (s.windowed p n).pos p = (s.pos p).window n := State.pos_setPos_same _ _ _

theorem State.windowed_select (s : State) (p n i j : Nat) : (s.windowed p n).select i j = s.select i j := by
  rw [State.select_eq, State.select_eq]
  rfl

theorem State.testCallOff_of (hd : (t.pos p).demand = some d) (h : t.callOffDue p = true) : t.testCallOff p = t.raiseCallOff p d := by
  unfold State.testCallOff
  rw [hd]
  exact if_pos h

theorem State.testCallOff_of_not (h : ¬((t.pos p).demand ≠ none ∧ t.callOffDue p = true)) : t.testCallOff p = t := by
  unfold State.testCallOff
  split
  case h_1 d hd => exact if_neg fun hdue => h ⟨by simp [hd], hdue⟩
  case h_2 => rfl

/-- The tests of a window see the readings it has just taken (R98). -/
theorem State.windowed_callOffDue (s : State) (p n : Nat) : (s.windowed p n).callOffDue p = true ↔ (s.pos p).isWeb = true ∧
    s.standbyClear p = true ∧ s.deliverOf p = none ∧ (s.pos p).callOff.state = .none ∧
    (((s.pos p).window n).gauge.timeToSplice ≤ (s.pos p).params.leadTime ∨
      ((s.pos p).window n).gauge.remaining ≤ (s.pos p).params.callOffLength) := by
  have hclear : (s.windowed p n).standbyClear p = s.standbyClear p := by
    unfold State.standbyClear State.armState
    rw [State.windowed_pos]
    rfl
  have hdeliver : (s.windowed p n).deliverOf p = s.deliverOf p := rfl
  unfold State.callOffDue
  rw [hclear, hdeliver, State.windowed_pos]
  simp only [Bool.and_eq_true, Bool.or_eq_true, decide_eq_true_eq, Option.isNone_iff_eq_none, and_assoc]
  rfl

theorem State.raiseCallOff_of (h : t.Called (t.callOffAnswered p d) p d c full tag) : t.raiseCallOff p d = (t.callOffAnswered p d).raise
    (.callOff p d.grade d.width (t.pos p).gauge.remaining (t.pos p).gauge.timeToSplice c full
      (((t.callOffAnswered p d).deliverOf p).getD 0)) := by
  have hraise : t.raiseCallOff p d = (t.callOffAnswered p d).raise (.callOff p d.grade d.width
    ((t.callOffAnswered p d).pos p).gauge.remaining ((t.callOffAnswered p d).pos p).gauge.timeToSplice
    ((t.callOffAnswered p d).pos p).callOff.state ((t.callOffAnswered p d).pos p).callOff.ordersFull
    (((t.callOffAnswered p d).deliverOf p).getD 0)) := rfl
  rw [hraise, h.pos]
  rfl

/-- The position's DELIVER after a call-off is the one the call-off has made. -/
theorem State.Called.deliverOf (h : t.Called w p d c full tag) (hwf : t.orders.table.wf = true) (hnone : t.deliverOf p = none) :
    w.deliverOf p = if c = .ordered then some tag else none := by
  have hbefore := (State.deliverOf_eq_none_iff hwf).1 hnone
  split
  case isTrue hc =>
    obtain ⟨r, hr⟩ := h.found (.inl hc)
    refine (State.deliverOf_eq_some_iff (h.wf hwf)).2 ⟨⟨_, h.made r hc hr, by simp [Order.delivers, State.newOrder]⟩, fun k o ho hdelivers => ?_⟩
    by_contra hlt
    have hk : k ≠ tag := fun heq => hlt heq.ge
    rw [h.kept k fun _ => hk] at ho
    rw [hbefore k o ho] at hdelivers
    cases hdelivers
  case isFalse hc =>
    refine (State.deliverOf_eq_none_iff (h.wf hwf)).2 fun k o ho => ?_
    rw [h.kept k fun hord => absurd hord hc] at ho
    exact hbefore k o ho

theorem State.joinBacklog_delivery (s : State) (p r : Nat) :
    ∃ r' q, .delivery p r' q ∈ (s.joinBacklog (.delivery p r .normal)).orders.backlog := by
  unfold State.joinBacklog
  split
  case isTrue h =>
    obtain ⟨i, hi, hslot⟩ := List.any_eq_true.1 h
    obtain ⟨r', q, rfl⟩ := BacklogItem.isDeliveryOf_iff.1 (BacklogItem.slot_delivery_iff.1 (of_decide_eq_true hslot))
    exact ⟨r', q, hi⟩
  case isFalse => exact ⟨r, .normal, List.mem_append_right _ List.mem_cons_self⟩

/-- A delivery stands outstanding after a call-off: its own, or one in the backlog (R101). -/
theorem State.Called.outstanding (h : t.Called w p d c full tag) (hwf : t.orders.table.wf = true) (hnone : t.deliverOf p = none) :
    (w.deliverOf p ≠ none ∨ ∃ r q, .delivery p r q ∈ w.orders.backlog) ↔
      c = .ordered ∨ full = true ∨ ∃ r q, .delivery p r q ∈ t.orders.backlog := by
  have hdeliver : w.deliverOf p ≠ none ↔ c = .ordered := by
    rw [h.deliverOf hwf hnone]
    split <;> simp_all
  rw [hdeliver]
  cases hfull : full with
  | true =>
    obtain ⟨r, hr⟩ := h.found (.inr hfull)
    have hitem := t.joinBacklog_delivery p r
    rw [← h.queued hfull r hr] at hitem
    simp [hitem]
  | false =>
    rw [h.unqueued hfull]
    simp

end Sys2Proof.Machine
end

section
/-!
PROOF. A speed window's clauses assembled (O41).
-/

namespace Sys2Proof.Machine

open Sys2Proof

variable {s t u v w : State} {p k r n tag : Nat} {d : Demand} {x z : Position} {g : Gauge} {c : CallOffState} {full late hurried : Bool} {o : Order}

/-! ### The window as a whole -/

/-- The part after the call-off test of a window. -/
def State.calledOff (s : State) (p n : Nat) : State := (s.windowed p n).testCallOff p

theorem State.closeWindow_eq (s : State) (p n : Nat) : s.closeWindow p n = ((s.calledOff p n).testUrgency p).setPos p
    (((s.calledOff p n).testUrgency p).pos p).matchTest := rfl

theorem State.closeWindow_order (s : State) (p n k : Nat) : (s.closeWindow p n).order k = ((s.calledOff p n).testUrgency p).order k := rfl

theorem State.closeWindow_stores (s : State) (p n : Nat) : (s.closeWindow p n).reels = (s.calledOff p n).reels ∧
    (s.closeWindow p n).demands = (s.calledOff p n).demands ∧ (s.closeWindow p n).bays = (s.calledOff p n).bays := by
  have hrest := (s.calledOff p n).testUrgency_rest p
  rw [State.closeWindow_eq, hrest]
  exact ⟨rfl, rfl, rfl⟩

theorem State.testCallOff_called (hd : (t.pos p).demand = some d) (hdue : t.callOffDue p = true)
    (h : t.Called (t.callOffAnswered p d) p d c full tag) : t.testCallOff p = (t.callOffAnswered p d).raise
    (.callOff p d.grade d.width (t.pos p).gauge.remaining (t.pos p).gauge.timeToSplice c full
      (((t.callOffAnswered p d).deliverOf p).getD 0)) := (State.testCallOff_of hd hdue).trans (State.raiseCallOff_of h)

theorem State.called_exists (t : State) (p : Nat) (d : Demand) : ∃ c full tag, t.Called (t.callOffAnswered p d) p d c full tag :=
  ⟨_, _, _, t.called_of p d rfl⟩

/-- The call-off test touches only the call-off of its position. -/
theorem State.testCallOff_positions (t : State) (p : Nat) :
    (∀ k, k ≠ p → (t.testCallOff p).pos k = t.pos k) ∧ ∃ k, (t.testCallOff p).pos p = { t.pos p with callOff := k } := by
  by_cases hcalled : (t.pos p).demand ≠ none ∧ t.callOffDue p = true
  · obtain ⟨d, hd⟩ := Option.ne_none_iff_exists'.1 hcalled.1
    obtain ⟨c, full, tag, h⟩ := t.called_exists p d
    rw [State.testCallOff_called hd hcalled.2 h]
    exact ⟨fun k hk => (State.raise_pos _ _ k).trans (h.others k hk), _, (State.raise_pos _ _ p).trans h.pos⟩
  · rw [State.testCallOff_of_not hcalled]
    exact ⟨fun _ _ => rfl, (t.pos p).callOff, rfl⟩

/-- The position of a window: its readings, its call-off with the urgency reported, and the match test. -/
theorem State.closeWindow_positions (s : State) (p n : Nat) : (∀ k, k ≠ p → (s.closeWindow p n).pos k = s.pos k) ∧
    ∃ z, (s.closeWindow p n).pos p = z.matchTest ∧ z = { s.pos p with
      gauge := ((s.pos p).window n).gauge
      callOff := { ((s.calledOff p n).pos p).callOff with
        urgencyReported := (s.calledOff p n).urgencyDue p || ((s.calledOff p n).pos p).callOff.urgencyReported } } := by
  obtain ⟨hothers, k, hpos⟩ := (s.windowed p n).testCallOff_positions p
  refine ⟨fun j hj => ?_, ((s.calledOff p n).testUrgency p).pos p, State.pos_setPos_same _ _ _, ?_⟩
  · rw [State.closeWindow_eq, State.pos_setPos_other _ hj, State.testUrgency_pos_other _ hj]
    exact (hothers j hj).trans (State.pos_setPos_other _ hj _)
  · have hpos' : (s.calledOff p n).pos p = { s.pos p with gauge := ((s.pos p).window n).gauge, callOff := k } := by
      refine hpos.trans ?_
      rw [State.windowed_pos]
      rfl
    rw [State.testUrgency_pos, hpos']

/-- The urgency test of a window sees its readings, and the call-off as the call-off test has left it (R101). -/
theorem State.calledOff_urgencyDue_iff : (s.calledOff p n).urgencyDue p = true ↔ (s.pos p).isWeb = true ∧
    ((s.pos p).window n).gauge.timeToSplice ≤ (s.pos p).params.urgentMargin ∧
    ((s.calledOff p n).pos p).callOff.urgencyReported = false ∧
    ((s.calledOff p n).deliverOf p ≠ none ∨ ∃ r q, .delivery p r q ∈ (s.calledOff p n).orders.backlog) := by
  obtain ⟨-, k, hpos⟩ := (s.windowed p n).testCallOff_positions p
  rw [State.windowed_pos] at hpos
  have hpos' : (s.calledOff p n).pos p = { (s.pos p).window n with callOff := k } := hpos
  rw [State.urgencyDue_iff, hpos']
  rfl

theorem State.calledOff_gauge (s : State) (p n : Nat) : ((s.calledOff p n).pos p).gauge = ((s.pos p).window n).gauge := by
  obtain ⟨-, k, hpos⟩ := (s.windowed p n).testCallOff_positions p
  rw [State.windowed_pos] at hpos
  have hpos' : (s.calledOff p n).pos p = { (s.pos p).window n with callOff := k } := hpos
  rw [hpos']

/-! ### A window with a call-off -/

/-- The window's readings make the tests of `s` (R98). -/
theorem State.calledOff_of (hd : (s.pos p).demand = some d) (hdue : (s.windowed p n).callOffDue p = true)
    (h : (s.windowed p n).Called w p d c full tag) (hw : w = (s.windowed p n).callOffAnswered p d) :
    (s.closeWindow p n).reels = w.reels ∧ (s.closeWindow p n).demands = w.demands ∧ (s.calledOff p n).orders = w.orders ∧
    (s.calledOff p n).clock = s.clock ∧ ((s.calledOff p n).pos p).callOff = ⟨c, full, false⟩ ∧
    ((s.closeWindow p n).pos p).callOff = ⟨c, full, (s.calledOff p n).urgencyDue p⟩ ∧
    (s.calledOff p n).notices = (w.raise (.callOff p d.grade d.width ((s.pos p).window n).gauge.remaining
      ((s.pos p).window n).gauge.timeToSplice c full ((w.deliverOf p).getD 0))).notices := by
  subst hw
  have hd' : ((s.windowed p n).pos p).demand = some d := by rw [State.windowed_pos]; exact hd
  have hraised := State.testCallOff_called hd' hdue h
  rw [State.windowed_pos] at hraised
  have hcallOff : ((s.calledOff p n).pos p).callOff = ⟨c, full, false⟩ := by
    rw [State.calledOff, hraised, State.raise_pos, h.pos]
    rfl
  obtain ⟨hreels, hdemands, -⟩ := s.closeWindow_stores p n
  obtain ⟨-, z, hz, hz'⟩ := s.closeWindow_positions p n
  have hclosed : ((s.closeWindow p n).pos p).callOff = ⟨c, full, (s.calledOff p n).urgencyDue p⟩ := by
    rw [hz, z.matchTest_kept.1, hz', hcallOff]
    exact congrArg (CallOff.mk c full) (Bool.or_false _)
  refine ⟨hreels.trans ?_, hdemands.trans ?_, ?_, ?_, hcallOff, hclosed, congrArg State.notices hraised⟩
  · rw [State.calledOff, hraised, State.raise_reels]
  · rw [State.calledOff, hraised, State.raise_demands]
  · rw [State.calledOff, hraised, State.raise_orders]
  · rw [State.calledOff, hraised, State.raise_clock, h.clock]
    rfl

theorem State.windowed_joinBacklog (s : State) (p n : Nat) (i : BacklogItem) :
    ((s.windowed p n).joinBacklog i).orders = (s.joinBacklog i).orders := by
  have horders : (s.windowed p n).orders = s.orders := rfl
  unfold State.joinBacklog
  rw [horders]
  split <;> rfl

theorem State.addDemand_demands (s : State) (p : Nat) (d : Demand) :
    (s.demandEntry p = none → (s.addDemand p d).demands = s.demands ++ [⟨p, d.grade, d.width, s.clock.seconds⟩]) ∧
    (s.demandEntry p ≠ none → (s.addDemand p d).demands = s.demands) := by
  unfold State.addDemand
  refine ⟨fun h => ?_, fun h => ?_⟩
  · rw [if_neg (by simp [h])]
  · rw [if_pos (by simpa [Option.isSome_iff_ne_none] using h)]

/-- How a call-off is served, by the mode of its source, the reel found and the room in the list (R98, R99). -/
theorem State.closeWindow_served (hd : (s.pos p).demand = some d) (hdue : (s.windowed p n).callOffDue p = true) :
    ((s.handling 7).mode = .report ∨ (s.handling 7).mode = .off → ((s.closeWindow p n).pos p).callOff.state = .raised) ∧
    ((s.handling 7).mode = .auto ∨ (s.handling 7).mode = .both →
      (s.select d.grade d.width = none → ((s.closeWindow p n).pos p).callOff.state = .waitStock ∧
        (s.demandEntry p = none → (s.closeWindow p n).demands = s.demands ++ [⟨p, d.grade, d.width, s.clock.seconds⟩]) ∧
        (s.demandEntry p ≠ none → (s.closeWindow p n).demands = s.demands)) ∧
      (∀ r y, s.select d.grade d.width = some r → s.reel r = some y →
        (s.ordersFull = false → ((s.closeWindow p n).pos p).callOff.state = .ordered ∧ (s.closeWindow p n).reel r = some { y with
          state := .reserved, reservation := some p, tag := some s.nextTag }) ∧
        (s.ordersFull = true → ((s.closeWindow p n).pos p).callOff.state = .waitStock ∧
          ((s.closeWindow p n).pos p).callOff.ordersFull = true ∧
          (s.closeWindow p n).reel r = some { y with state := .reserved, reservation := some p } ∧
          ((s.pos p).params.urgentMargin < ((s.pos p).window n).gauge.timeToSplice →
            ((∀ i ∈ s.orders.backlog, i.isDeliveryOf p = false) → (s.closeWindow p n).orders = { s.orders with
              backlog := s.orders.backlog ++ [.delivery p r .normal] }) ∧
            ((∃ i ∈ s.orders.backlog, i.isDeliveryOf p = true) → (s.closeWindow p n).orders = s.orders))))) := by
  have hselect := s.windowed_select p n d.grade d.width
  refine ⟨fun hmode => ?_, fun hmode => ⟨fun hnone => ?_, fun r y hr hy => ⟨fun hroom => ?_, fun hfull => ?_⟩⟩⟩
  · have h := State.called_raised (t := s.windowed p n) (State.reacts_eq_false hmode) p d 0
    obtain ⟨-, -, -, -, -, hcallOff, -⟩ := State.calledOff_of hd hdue h rfl
    rw [hcallOff]
  · have h := State.called_noStock (t := s.windowed p n) (p := p) (State.reacts_eq_true hmode) (hselect.trans hnone) 0
    obtain ⟨-, hdemands, -, -, -, hcallOff, -⟩ := State.calledOff_of hd hdue h rfl
    rw [hcallOff, hdemands, h.waiting rfl rfl]
    exact ⟨rfl, (s.windowed p n).addDemand_demands p d⟩
  · have h := State.called_ordered (t := s.windowed p n) (p := p) (State.reacts_eq_true hmode) (hselect.trans hr) hroom
    obtain ⟨hreels, -, -, -, -, hcallOff, -⟩ := State.calledOff_of hd hdue h rfl
    refine ⟨by rw [hcallOff], (congrArg (fun l : Table Reel => l.find r) hreels).trans ?_⟩
    refine (h.reel r (by decide) (hselect.trans hr) r).trans ?_
    have hy' : (s.windowed p n).reel r = some y := hy
    rw [if_pos rfl, hy']
    rfl
  · have h := State.called_backlog (t := s.windowed p n) (p := p) (State.reacts_eq_true hmode) (hselect.trans hr) hfull 0
    obtain ⟨hreels, -, horders, -, hcalled, hcallOff, -⟩ := State.calledOff_of hd hdue h rfl
    refine ⟨by rw [hcallOff], by rw [hcallOff], (congrArg (fun l : Table Reel => l.find r) hreels).trans ?_, fun hlate => ?_⟩
    · refine (h.reel r (by decide) (hselect.trans hr) r).trans ?_
      have hy' : (s.windowed p n).reel r = some y := hy
      rw [if_pos rfl, hy']
      rfl
    · have hquiet : ¬(s.calledOff p n).urgencyDue p = true := fun hdue' =>
        absurd (State.calledOff_urgencyDue_iff.1 hdue').2.1 (not_le.2 hlate)
      have hkept : (s.closeWindow p n).orders = (s.joinBacklog (.delivery p r .normal)).orders := by
        refine (State.testUrgency_orders_same fun hdue' => absurd hdue' hquiet).trans (horders.trans ?_)
        exact (h.queued rfl r (hselect.trans hr)).trans (s.windowed_joinBacklog p n _)
      rw [hkept]
      refine ⟨fun hnone => ?_, fun ⟨i, hi, hdelivery⟩ => ?_⟩
      · rw [State.joinBacklog_of_none fun i hi hslot => by
          have := hnone i hi
          rw [BacklogItem.slot_delivery_iff.1 hslot] at this
          cases this]
        rfl
      · rw [State.joinBacklog_of_some ⟨i, hi, BacklogItem.slot_delivery_iff.2 hdelivery⟩]

/-- A call-off that makes no DELIVER names no tag. -/
theorem callOff_tag {a b e : Prop} [Decidable a] [Decidable b] [Decidable e] (hc : c ≠ .ordered)
    (h : (c, full, tag) = (if a then (CallOffState.raised, false, 0) else if b then (.waitStock, false, 0)
      else if e then (.waitStock, true, 0) else (.ordered, false, n))) : tag = 0 := by
  split at h
  · cases h
    rfl
  split at h
  · cases h
    rfl
  split at h
  · cases h
    rfl
  · cases h
    exact absurd rfl hc

/-- The notices and the orders of a window with a call-off (R55, R99, R101). -/
theorem State.closeWindow_reported (hd : (s.pos p).demand = some d) (hdue : (s.windowed p n).callOffDue p = true)
    (hwf : s.orders.table.wf = true)
    (htriple : (c, full, tag) = (if (s.handling 7).mode = .report ∨ (s.handling 7).mode = .off then (.raised, false, 0)
      else if s.select d.grade d.width = none then (.waitStock, false, 0)
      else if s.ordersFull = true then (.waitStock, true, 0) else (.ordered, false, s.nextTag)))
    (hlate : late = true ↔ ((s.pos p).window n).gauge.timeToSplice ≤ (s.pos p).params.urgentMargin ∧
      (c = .ordered ∨ full = true ∨ ∃ r q, .delivery p r q ∈ s.orders.backlog))
    (hhurried : hurried = true ↔ late = true ∧ ((s.handling 6).mode = .auto ∨ (s.handling 6).mode = .both))
    (hw : w = (if c = .waitStock ∧ full = false then s.raise (.noStock p d.grade d.width) else s).raise
      (.callOff p d.grade d.width ((s.pos p).window n).gauge.remaining ((s.pos p).window n).gauge.timeToSplice c full tag)) :
    ((s.closeWindow p n).pos p).callOff = ⟨c, full, late⟩ ∧
    (s.closeWindow p n).notices =
      (if late = true then w.raise (.urgent p ((s.pos p).window n).gauge.timeToSplice tag) else w).notices ∧
    (c = .raised → (s.closeWindow p n).reels = s.reels ∧ (s.closeWindow p n).demands = s.demands) ∧
    (c = .waitStock → full = false → (s.closeWindow p n).reels = s.reels) ∧
    (∀ r, c ≠ .raised → s.select d.grade d.width = some r → ∀ k, k ≠ r → (s.closeWindow p n).reel k = s.reel k) ∧
    (∀ r, c = .ordered → s.select d.grade d.width = some r → (s.closeWindow p n).order tag = some { s.newOrder
      ⟨.deliver, .normal, some r, s.bayPlace r, .arm p none, some p, none⟩ with
      priority := if hurried = true then .urgent else .normal }) ∧
    (∀ t, (c = .ordered → t ≠ tag) → (s.closeWindow p n).order t = (s.order t).map fun o => { o with
      priority := if hurried = true ∧ o.position = some p ∧ o.progress = 1 ∧ (o.kind = .ret ∨ o.kind = .clear) then .urgent
        else o.priority }) := by
  have hselect := s.windowed_select p n d.grade d.width
  have h := (s.windowed p n).called_of p d (c := c) (full := full) (tag := tag) (by rw [hselect]; exact htriple)
  obtain ⟨hisWeb, -, hnone, -, -⟩ := (s.windowed_callOffDue p n).1 hdue
  obtain ⟨hreels, hdemands, horders, hclock, hcalled, hcallOff, hnotices⟩ := State.calledOff_of hd hdue h rfl
  have htag : c ≠ .ordered → tag = 0 := fun hc => callOff_tag hc htriple
  have hdeliver : ((s.windowed p n).callOffAnswered p d).deliverOf p = if c = .ordered then some tag else none := h.deliverOf hwf hnone
  have hdeliver' : (s.calledOff p n).deliverOf p = if c = .ordered then some tag else none := by
    rw [← hdeliver, State.deliverOf_eq, horders]
    rfl
  have hgetD : (if c = CallOffState.ordered then some tag else none).getD 0 = tag := by
    split
    · rfl
    · exact (htag ‹_›).symm
  have hlate' : (s.calledOff p n).urgencyDue p = late := by
    have houtstanding := h.outstanding hwf hnone
    rw [Bool.eq_iff_iff, State.calledOff_urgencyDue_iff, hlate, hcalled, hdeliver', ← hdeliver, horders, houtstanding]
    simp only [hisWeb, true_and]
    rfl
  have hw' : w.notices = (((s.windowed p n).callOffAnswered p d).raise (.callOff p d.grade d.width
      ((s.pos p).window n).gauge.remaining ((s.pos p).window n).gauge.timeToSplice c full tag)).notices := by
    rw [hw]
    refine State.raise_notices_congr ?_ ?_ _
    · rw [h.notices]
      split
      · exact State.raise_notices_congr (by rfl) (by rfl) _
      · rfl
    · rw [h.clock]
      split
      · exact State.raise_clock _ _
      · rfl
  have hnotices' : (s.calledOff p n).notices = w.notices := by rw [hnotices, hdeliver, hgetD, hw']
  have hclock' : (s.calledOff p n).clock = w.clock := by
    rw [hclock, hw, State.raise_clock]
    split
    · exact (State.raise_clock _ _).symm
    · rfl
  have hreacts : (s.calledOff p n).reacts 6 = true ↔ (s.handling 6).mode = .auto ∨ (s.handling 6).mode = .both := by
    have hhandling : (s.calledOff p n).handling 6 = s.handling 6 := by
      rw [State.handling_of_notices hnotices', hw, State.raise_handling]
      split
      · exact State.raise_handling _ _ _
      · rfl
    rw [State.reacts_iff, hhandling]
  have hwf' : (s.calledOff p n).orders.table.wf = true := by
    rw [horders]
    exact h.wf hwf
  have horder := State.testUrgency_order (s := s.calledOff p n) (p := p) (hurried := hurried) (by rw [hhurried, hlate', hreacts])
  have hkept (k) : (s.calledOff p n).order k = ((s.windowed p n).callOffAnswered p d).order k :=
    congrArg (fun l : OrderList => l.table.find k) horders
  refine ⟨by rw [hcallOff, hlate'], ?_, fun hc => ⟨hreels.trans (h.reels (.inl hc)), hdemands.trans (h.demands hc)⟩,
    fun hc hf => hreels.trans (h.reels (.inr ⟨hc, hf⟩)), fun r hc hr k hk => ?_, fun r hc hr => ?_, fun k hk => ?_⟩
  · have hnow : (s.closeWindow p n).notices = ((s.calledOff p n).testUrgency p).notices := rfl
    rw [hnow]
    by_cases hl : late = true
    · rw [if_pos hl, State.testUrgency_notices hwf' (hlate'.trans hl), hdeliver', hgetD, State.calledOff_gauge]
      exact State.raise_notices_congr hnotices' hclock' _
    · rw [if_neg hl, State.testUrgency_of_not (hlate' ▸ hl), hnotices']
  · exact (congrArg (fun l : Table Reel => l.find k) hreels).trans ((h.reel r hc (hselect.trans hr) k).trans (if_neg hk))
  · rw [State.closeWindow_order, horder, hkept, h.made r hc (hselect.trans hr), hdeliver', if_pos hc]
    simp only [Option.map_some, true_or, and_true]
    rfl
  · rw [State.closeWindow_order, horder, hkept, h.kept k hk, hdeliver']
    have hother : (if c = CallOffState.ordered then some tag else none) ≠ some k := by
      split
      case isTrue hc => exact fun heq => hk hc (Option.some.inj heq).symm
      case isFalse => exact fun heq => by cases heq
    simp only [hother, false_or]
    rfl

/-! ### A window without a call-off -/

theorem State.calledOff_of_not (h : ¬((s.pos p).demand ≠ none ∧ (s.windowed p n).callOffDue p = true)) :
    s.calledOff p n = s.windowed p n := State.testCallOff_of_not (by rw [State.windowed_pos]; exact h)

/-- A window that raises no call-off leaves the call-off to the urgency test alone (R101). -/
theorem State.closeWindow_uncalled (h : ¬((s.pos p).demand ≠ none ∧ (s.windowed p n).callOffDue p = true)) :
    ((s.closeWindow p n).pos p).callOff = { (s.pos p).callOff with
      urgencyReported := (s.windowed p n).urgencyDue p || (s.pos p).callOff.urgencyReported } ∧
    (s.closeWindow p n).reels = s.reels ∧ (s.closeWindow p n).demands = s.demands ∧ (s.closeWindow p n).bays = s.bays ∧
    (s.closeWindow p n).orders = ((s.windowed p n).testUrgency p).orders ∧
    (s.closeWindow p n).notices = ((s.windowed p n).testUrgency p).notices := by
  have hcalled := State.calledOff_of_not h
  obtain ⟨hreels, hdemands, hbays⟩ := s.closeWindow_stores p n
  obtain ⟨-, z, hz, hz'⟩ := s.closeWindow_positions p n
  rw [hcalled, State.windowed_pos] at hz'
  rw [hcalled] at hreels hdemands hbays
  refine ⟨?_, hreels, hdemands, hbays, ?_, ?_⟩
  · rw [hz, z.matchTest_kept.1, hz']
    rfl
  · rw [← hcalled]
    rfl
  · rw [← hcalled]
    rfl

/-- The urgency reported by a window that raises no call-off, in the words of its statement (R55, R101). -/
theorem State.closeWindow_urgent {due : Prop} (h : ¬((s.pos p).demand ≠ none ∧ (s.windowed p n).callOffDue p = true))
    (hwf : s.orders.table.wf = true)
    (hdue : due ↔ (s.pos p).isWeb = true ∧ ((s.pos p).window n).gauge.timeToSplice ≤ (s.pos p).params.urgentMargin ∧
      (s.pos p).callOff.urgencyReported = false ∧ (s.deliverOf p ≠ none ∨ ∃ r q, .delivery p r q ∈ s.orders.backlog)) :
    (¬due → (s.closeWindow p n).orders = s.orders ∧ (s.closeWindow p n).notices = s.notices ∧
      ((s.closeWindow p n).pos p).callOff = (s.pos p).callOff) ∧
    (due → ((s.closeWindow p n).pos p).callOff = { (s.pos p).callOff with urgencyReported := true } ∧
      (s.closeWindow p n).notices =
        (s.raise (.urgent p ((s.pos p).window n).gauge.timeToSplice ((s.deliverOf p).getD 0))).notices ∧
      ((s.handling 6).mode = .report ∨ (s.handling 6).mode = .off → (s.closeWindow p n).orders = s.orders) ∧
      ((s.handling 6).mode = .auto ∨ (s.handling 6).mode = .both →
        (∀ t o, s.order t = some o → (s.closeWindow p n).order t = some { o with
          priority := if s.deliverOf p = some t ∨ (o.position = some p ∧ o.progress = 1 ∧ (o.kind = .ret ∨ o.kind = .clear))
            then .urgent else o.priority }) ∧
        (s.closeWindow p n).orders.backlog = s.orders.backlog.map (fun
          | .delivery k r q => .delivery k r (if k = p then .urgent else q)
          | .disposal k a c q => .disposal k a c (if k = p then .urgent else q)))) := by
  obtain ⟨hcallOff, -, -, -, horders, hnotices⟩ := State.closeWindow_uncalled h
  have hiff : (s.windowed p n).urgencyDue p = true ↔ due := by
    have hcalled := State.calledOff_of_not h
    have hiff := State.calledOff_urgencyDue_iff (s := s) (p := p) (n := n)
    rw [hcalled, State.windowed_pos] at hiff
    exact hiff.trans hdue.symm
  refine ⟨fun hno => ?_, fun hyes => ?_⟩
  · have hquiet : ¬(s.windowed p n).urgencyDue p = true := mt hiff.1 hno
    rw [horders, hnotices, hcallOff, State.testUrgency_of_not hquiet, Bool.eq_false_iff.2 hquiet]
    exact ⟨rfl, rfl, rfl⟩
  · have hdue' := hiff.2 hyes
    refine ⟨?_, ?_, fun hmode => ?_, fun hmode => ⟨fun t o ho => ?_, ?_⟩⟩
    · rw [hcallOff, hdue']
      rfl
    · rw [hnotices, State.testUrgency_notices (s := s.windowed p n) hwf hdue', State.windowed_pos]
      exact State.raise_notices_congr (by rfl) (by rfl) _
    · exact horders.trans (State.testUrgency_orders_same fun _ => State.reacts_eq_false (s := s.windowed p n) hmode)
    · have hreacts : (s.windowed p n).reacts 6 = true := State.reacts_eq_true (s := s.windowed p n) hmode
      have horder := State.testUrgency_order (s := s.windowed p n) (p := p) (hurried := true) (by simp [hdue', hreacts]) t
      have ho' : (s.windowed p n).order t = some o := ho
      refine (congrArg (fun l : OrderList => l.table.find t) horders).trans (horder.trans ?_)
      rw [ho', Option.map_some]
      simp only [true_and]
      rfl
    · have hreacts : (s.windowed p n).reacts 6 = true := State.reacts_eq_true (s := s.windowed p n) hmode
      rw [horders, State.testUrgency_of_due hdue', State.raise_orders, ((s.windowed p n).hurried_answered p).backlog hreacts]
      rfl

/-! ### O41 -/

/-- Settles O41: the window's readings, then each of its tests by its own lemma. -/
theorem speedWindow : Obligations.SpeedWindow := by
  intro s p n x g fits called h1 h8 hx henabled hg hfits hcalled
  subst hx hg
  obtain ⟨hspeed, hstandby, hcounts, hremaining, hestimate⟩ := (s.pos p).window_gauge n
  obtain ⟨hothers, z, hz, hz'⟩ := s.closeWindow_positions p n
  obtain ⟨hgauge, -, houtputs, hrunning, haccel, hmatched, hother⟩ := Position.matchTest_of hz' hfits
  rw [← hz] at hgauge houtputs hrunning haccel hmatched hother
  have hcalled' : called ↔ (s.pos p).demand ≠ none ∧ (s.windowed p n).callOffDue p = true := by
    rw [hcalled, State.windowed_callOffDue]
  refine ⟨s.closeWindow p n, exec_speedWindow_of_measures n (State.measures_iff.2 ⟨h1, h8, henabled⟩), hgauge, hspeed, hstandby, hcounts,
    hremaining, hestimate, hothers, houtputs, hrunning, haccel, hmatched, hother, fun hno => ?_, fun d hc hd => ?_,
    fun d c full late hurried tag w hc hd hwf htriple hlate hhurried hw => ?_, fun due hno hwf hdue => ?_⟩
  · obtain ⟨hcallOff, hreels, hdemands, hbays, -, -⟩ := State.closeWindow_uncalled (mt hcalled'.2 hno)
    rw [hcallOff]
    exact ⟨rfl, rfl, hreels, hdemands, hbays⟩
  · exact State.closeWindow_served hd (hcalled'.1 hc).2
  · exact State.closeWindow_reported hd (hcalled'.1 hc).2 hwf htriple hlate hhurried hw
  · exact State.closeWindow_urgent (mt hcalled'.2 hno) hwf hdue

end Sys2Proof.Machine
end
